-- ==== Sys2Proof/Word.lean ====
section
/-!
DEFINITION. The word types of the ISV-9420 model and their plainest arithmetic (spec/00_scope.md R4–R6).
Registers are 32 bits wide, memory is byte addressed and little-endian.
-/

namespace Sys2Proof

/-- One byte of memory or of a message. -/
abbrev Byte := BitVec 8
/-- A register value or a u32 (R4). -/
abbrev Word := BitVec 32
/-- A u64, for example a time-base value (R6). -/
abbrev DWord := BitVec 64

/-- A u32 from a count, modulo 2³² (R83: every counter wraps). -/
abbrev u32 (n : Nat) : Word := BitVec.ofNat 32 n
/-- A u64 from a count, modulo 2⁶⁴. -/
abbrev u64 (n : Nat) : DWord := BitVec.ofNat 64 n
/-- A byte from a count, modulo 2⁸. -/
abbrev u8 (n : Nat) : Byte := BitVec.ofNat 8 n

end Sys2Proof
end

