-- ==== Sys2Proof/Machine/Bits.lean ====
section
/-!
DEFINITION. Bit fields, sign extension, byte order (spec/00_scope.md R4, R5), and the sparse table `SMap`:
a list of (key, value) pairs with strictly rising keys and no entry equal to what an unlisted key reads as.
Memory, register files and indexed tables of the state are all held in this one form.
-/

namespace Sys2Proof.Machine

/-- Bits [hi:lo] of a number (R4). -/
def bits (v hi lo : Nat) : Nat := (v >>> lo) % 2 ^ (hi + 1 - lo)

/-- Bit `b` of a number. -/
def bitAt (v b : Nat) : Bool := (v >>> b) % 2 == 1

/-- `v` with bits [hi:lo] replaced by `x`. -/
def putBits (v hi lo x : Nat) : Nat :=
  v - (bits v hi lo) <<< lo + (x % 2 ^ (hi + 1 - lo)) <<< lo

/-- A flag as a bit. -/
def b2n (b : Bool) : Nat := if b then 1 else 0

/-- The two's-complement reading of the low `w` bits of `v` (R4, R5). -/
def sx (w v : Nat) : Int :=
  let u := v % 2 ^ w
  if u < 2 ^ (w - 1) then (u : Int) else (u : Int) - (2 ^ w : Nat)

/-- An integer as a `w`-bit two's-complement pattern. -/
def enc (w : Nat) (i : Int) : Nat := (i % ((2 ^ w : Nat) : Int)).toNat

/-- An integer clamped to a range. -/
def clampI (lo hi x : Int) : Int := if x < lo then lo else if hi < x then hi else x

/-- The s32 nearest to an integer that fits none. -/
def satS32 (x : Int) : Int := clampI (-2147483648) 2147483647 x

/-- The bytes of a number, low byte first, `n` of them (R4: multi-byte fields are little-endian). -/
def leBytes : Nat → Nat → List Byte
  | 0, _ => []
  | n + 1, v => u8 v :: leBytes n (v >>> 8)

/-- The number that little-endian bytes spell (R4). -/
def leNat : List Byte → Nat
  | [] => 0
  | b :: bs => b.toNat + leNat bs <<< 8

/-- The bytes of a number, high byte first. -/
def beBytes (n v : Nat) : List Byte := (leBytes n v).reverse

/-- The number that big-endian bytes spell. -/
def beNat (bs : List Byte) : Nat := leNat bs.reverse

/-- `n` bytes of `bs` from offset `o`, zeros beyond the end. -/
def sliceB (bs : List Byte) (o n : Nat) : List Byte :=
  let t := (bs.drop o).take n
  t ++ List.replicate (n - t.length) 0

/-- The little-endian field of `n` bytes at offset `o` of a record. -/
def fieldLE (bs : List Byte) (o n : Nat) : Nat := leNat (sliceB bs o n)

/-- `bs` with the bytes `x` laid over it from offset `o`. -/
def overlay (bs : List Byte) (o : Nat) (x : List Byte) : List Byte :=
  sliceB bs 0 o ++ x ++ bs.drop (o + x.length)

/-- `⌈a / b⌉`. -/
def ceilDiv (a b : Nat) : Nat := (a + b - 1) / b

/-- The least multiple of `m` that is at least `a` (log 52). -/
def roundUp (a m : Nat) : Nat := ceilDiv a m * m

/-- The list [0, …, n − 1] filtered by a test. -/
def idxWhere (n : Nat) (p : Nat → Bool) : List Nat := (List.range n).filter p

/-- Integer division rounding to nearest, ties to even. -/
def divRNE (a : Int) (b : Nat) : Int :=
  let q := a / (b : Int)
  let r := a - q * b
  if 2 * r < b then q
  else if 2 * r > b then q + 1
  else if q % 2 = 0 then q else q + 1

/-- Integer division rounding to nearest, ties away from zero. -/
def divRNA (a : Int) (b : Nat) : Int :=
  if 0 ≤ a then (2 * a + b) / (2 * (b : Int)) else -((2 * (-a) + b) / (2 * (b : Int)))

/-! ### Sparse tables -/

/-- A table of values by natural-number key; keys strictly rise, and no value equals the default. -/
abbrev SMap (α : Type) := List (Nat × α)

/-- The value at key `k`; an unlisted key reads as `d`. -/
def smGet {α : Type} (d : α) : SMap α → Nat → α
  | [], _ => d
  | (k', v) :: m, k => if k = k' then v else if k < k' then d else smGet d m k

/-- Key `k` takes value `v`; the canonical form is kept. -/
def smSet {α : Type} [DecidableEq α] (d : α) : SMap α → Nat → α → SMap α
  | [], k, v => if v = d then [] else [(k, v)]
  | (k', v') :: m, k, v =>
    if k = k' then (if v = d then m else (k, v) :: m)
    else if k < k' then (if v = d then (k', v') :: m else (k, v) :: (k', v') :: m)
    else (k', v') :: smSet d m k v

/-- Key `k` takes the image of its value. -/
def smUpd {α : Type} [DecidableEq α] (d : α) (m : SMap α) (k : Nat) (f : α → α) : SMap α :=
  smSet d m k (f (smGet d m k))

/-- Every key is above `b` and the keys strictly rise. -/
def smAbove {α : Type} : Option Nat → SMap α → Bool
  | _, [] => true
  | none, (k, _) :: m => smAbove (some k) m
  | some b, (k, _) :: m => decide (b < k) && smAbove (some k) m

/-- The canonical form: keys strictly rising, no value equal to the default. -/
def smWf {α : Type} [DecidableEq α] (d : α) (m : SMap α) : Bool :=
  smAbove none m && m.all (fun kv => decide (kv.2 ≠ d))

/-- Every key takes the image of its value; the canonical form is kept. -/
def smMap {α : Type} [DecidableEq α] (d : α) (f : Nat → α → α) (m : SMap α) : SMap α :=
  m.foldl (fun acc kv => smSet d acc kv.1 (f kv.1 kv.2)) []

/-- The table in canonical form; a canonical table stands (log 123). -/
def smNorm {α : Type} [DecidableEq α] (d : α) (m : SMap α) : SMap α := smMap d (fun _ v => v) m

/-- `n` values from key `k` on. -/
def smRange {α : Type} (d : α) (m : SMap α) (k n : Nat) : List α :=
  (List.range n).map (fun i => smGet d m (k + i))

/-- The values of `xs` are stored from key `k` on. -/
def smPutList {α : Type} [DecidableEq α] (d : α) (m : SMap α) : Nat → List α → SMap α
  | _, [] => m
  | k, x :: xs => smPutList d (smSet d m k x) (k + 1) xs

end Sys2Proof.Machine
end

