-- ==== Sys2Proof/Machine/StateCan.lean ====
section
/-!
DEFINITION. The state of the CAN FD controllers (spec/17_can.md R386–R402). Modes, ONE_SHOT and the flags of a message
buffer stand in its CAN_n_MB_m_CMD register, error and state flags in CAN_n_STAT and CAN_n_ERR.
-/

namespace Sys2Proof.Machine

/-- A frame as a buffer or FIFO holds it: ID word, FORMAT word, stamp, data, accepting buffer. -/
structure CanFrame where
  id : Nat
  format : Nat
  stamp : Nat
  data : List Byte
  buf : Nat
  deriving DecidableEq, Repr, Inhabited

/-- The words of a message buffer, its shadow, and the frames it accepted since the last capture, newest first, with
the ticks of their completion. -/
structure CanBuf where
  id : Nat
  format : Nat
  stamp : Nat
  mask : Nat
  data : List Byte
  shadow : Option CanFrame
  fresh : List (Nat × CanFrame)
  deriving DecidableEq, Repr, Inhabited

/-- A buffer after reset. -/
def CanBuf.zero : CanBuf := ⟨0, 0, 0, 0, List.replicate 64 (0 : Byte), none, []⟩

/-- One controller: the buffer in transmission, an applied timing that waits to be taken up, the timing taken up, the
error counters, buffers, FIFOs with the times since when they are not empty, the time of the last bus-off entry. -/
structure CanCtl where
  run : Option Nat
  take : Bool
  nbt : Nat
  dbt : Nat
  tdc : Nat
  tec : Nat
  rec_ : Nat
  bufs : SMap CanBuf
  fifo0 : List CanFrame
  fifo1 : List CanFrame
  since0 : Nat
  since1 : Nat
  lastBoff : Nat
  deriving DecidableEq, Repr, Inhabited

/-- A controller after reset. -/
def CanCtl.reset : CanCtl := ⟨none, false, 0, 0, 0, 0, 0, [], [], [], 0, 0, 0⟩

/-- A field table entry (R397). -/
structure CanField where
  ctrl : Nat
  buffer : Nat
  first : Nat
  size : Nat
  deriving DecidableEq, Repr, Inhabited

/-- The controllers, the field table, waiting CAN_WAIT commands (command, controllers, events), the pair of R396. -/
structure CanSt where
  ctl : SMap CanCtl
  fields : SMap CanField
  waits : List (Nat × Nat × Nat)
  pairT : Nat
  pairC : Nat
  deriving DecidableEq, Repr

def CanSt.reset : CanSt := ⟨[], [], [], 0, 0⟩

end Sys2Proof.Machine
end

