-- ==== Sys2Proof/Machine/StateIO.lean ====
section
/-!
DEFINITION. The state of the capture image, the control loops, the cyclic logic engine, the converters and the output
latches (spec/12_control_loops.md, 13_cyclic_logic.md, 15_measurement_io.md; spec/01_architecture.md R23).
-/

namespace Sys2Proof.Machine

/-- The capture image of a frame (R23): boundary time and frame number, ADC codes by channel, GPIO levels, window
comparators and pulse-input levels as bits, pulses counted in the frame, and the words R302 takes from the device. -/
structure Capture where
  t : Nat
  frame : Nat
  adc : SMap Nat
  gpio : Nat
  win : Nat
  piLevel : Nat
  piCount : SMap Nat
  degraded : Bool
  pfail : Bool
  lost : Bool
  mode : Nat
  band : Nat
  deriving DecidableEq, Repr, Inhabited

/-- No capture yet. -/
def Capture.none : Capture := ⟨0, 0, [], 0, 0, 0, [], false, false, false, 0, 0⟩

/-! ### Control loops (12) -/

/-- A LOOP_RETUNE that waits for its sample (R294). -/
structure Retune where
  cmd : Nat
  words : List Nat
  commitRef : Bool
  ref : Nat
  preload : Bool
  integ : Nat
  deriving DecidableEq, Repr, Inhabited

/-- The state of a loop (R288, R300). `coef` is what the last sample read. -/
structure LoopSt where
  iAcc : Int
  dPrev : Int
  uPrev : Int
  yPrev : Int
  spPrev : Int
  spPrev2 : Int
  hiPrev : Bool
  loPrev : Bool
  first : Bool          -- the next sample is a first sample
  resume : Bool         -- the next computed sample may be a bumpless resumption
  computed : Bool       -- a sample has been computed since reset
  drove : SMap (Option Int)  -- the value last fired to each destination since reset, by 4096 × kind + index
  flags : Nat           -- LFLAGS [3:0] of the last sample
  samples : Nat
  coef : List Nat
  dirty : Bool          -- a coefficient word was written since the last sample
  retune : Option Retune
  deriving DecidableEq, Repr, Inhabited

/-- A loop after reset. -/
def LoopSt.reset : LoopSt :=
  { iAcc := 0, dPrev := 0, uPrev := 0, yPrev := 0, spPrev := 0, spPrev2 := 0, hiPrev := false, loPrev := false,
    first := true, resume := false, computed := false, drove := [], flags := 0, samples := 0, coef := [], dirty := false,
    retune := none }

/-- A setpoint map entry (R286). -/
structure SpMap where
  sp : Nat
  source : Nat
  operand : Nat
  element : Nat
  scale : Nat
  offset : Nat
  deriving DecidableEq, Repr, Inhabited

/-- An unused entry. -/
def SpMap.unused : SpMap := ⟨0, 0, 0, 0, 0, 0⟩

/-- An SP_PUBLISH that waits for its boundary (R287): the map entries it selects, none for all. -/
structure PubWait where
  cmd : Nat
  source : Nat
  bitmap : Option (List Byte)
  deriving DecidableEq, Repr, Inhabited

/-- A trace channel (R295, R296). `recs` is oldest first. -/
structure Trace where
  state : Nat
  recs : List (Nat × Nat)
  trigTime : Nat
  trigPos : Nat
  prev : Option Int
  at_ : Nat             -- LAUNCH_TIME of a TRIG 6
  deriving DecidableEq, Repr, Inhabited

/-- An idle channel. -/
def Trace.idle : Trace := ⟨0, [], 0, 0xFFFFFFFF, none, 0⟩

/-- Step 3 of a frame in progress (R280, R281): the next loop to consider, the frame's image, its frozen setpoints, its logic words
as step 2 left them, and its length. -/
structure LoopJob where
  cap : Capture
  frozen : SMap Nat
  next : Nat
  words : SMap Nat
  len : Nat
  waitScan : Bool       -- step 2 of the frame, or of an earlier one, has not ended
  deriving DecidableEq, Repr, Inhabited

/-- The control-loop engine. -/
structure ClpSt where
  loops : SMap LoopSt
  map : SMap SpMap
  pubs : List PubWait
  traces : SMap Trace
  jobs : List LoopJob
  deriving DecidableEq, Repr

def ClpSt.reset : ClpSt := ⟨[], [], [], [], []⟩

/-! ### Cyclic logic (13) -/

/-- A timer (R306). -/
structure Timer where
  et : Nat
  q : Bool
  inPrev : Bool
  ran : Bool            -- executed in this scan
  deriving DecidableEq, Repr, Inhabited

def Timer.zero : Timer := ⟨0, false, false, false⟩

/-- A counter (R307). -/
structure Counter where
  cv : Int
  prev : Bool
  deriving DecidableEq, Repr, Inhabited

def Counter.zero : Counter := ⟨0, false⟩

/-- A change that waits for the next scan (R315). -/
inductive LogicChange
  | word (cmd : Nat) (w : Nat) (value : Nat)
  | patch (cmd : Nat) (addr : Nat) (value : Nat)
  deriving DecidableEq, Repr

/-- Where a scan stands: due and not started; paused before its transfer in; paused before its transfer out. -/
inductive ScanStage
  | due | pausedIn | pausedOut
  deriving DecidableEq, Repr, Inhabited

/-- A scan that has not ended (R309–R313). -/
structure Scan where
  stage : ScanStage
  cap : Capture
  started : Nat         -- time of its start
  over_ : Bool          -- its overrun has been latched
  len : Nat             -- the length of its frame
  ofs : Nat             -- OUT_OFS and FAULT_POLICY as its start found them
  policy : Nat
  deriving DecidableEq, Repr, Inhabited

/-- The cyclic logic engine. Bits and words hold the variables; `out` is the output image in launch entry 256. -/
structure CleSt where
  prog : List Nat
  bits_ : SMap Bool
  words : SMap Nat
  timers : SMap Timer
  counters : SMap Counter
  queue : List LogicChange
  scans : List Scan     -- scans due and not ended, oldest first
  firstScan : Bool
  tPrev : Nat
  lastFrame : Nat
  out : SMap Bool
  deriving DecidableEq, Repr

def CleSt.reset : CleSt :=
  { prog := [], bits_ := [], words := [], timers := [], counters := [], queue := [], scans := [], firstScan := true,
    tPrev := 0, lastFrame := 0, out := [] }

/-! ### Converters and latches (15) -/

/-- A result of a channel: code, completion time, sample instant, conversions since reset. -/
structure AdcRes where
  code : Nat
  done : Nat
  sample : Nat
  count : Nat
  out : Bool            -- window comparator after this result
  deriving DecidableEq, Repr, Inhabited

def AdcRes.zero : AdcRes := ⟨0, 0, 0, 0, false⟩

/-- A request raised after its DELAY (R347): sequence 4c + s, its time, the ADC_START that asked for it. -/
structure AdcReq where
  seq : Nat
  due : Nat
  cmd : Option Nat
  deriving DecidableEq, Repr, Inhabited

/-- A converter: the running sequence (0–3), its entry, the tick and the time of the start of its conversion; pending
sequences. -/
structure AdcConv where
  running : Option (Nat × Nat × Nat × Nat)
  pending : List Nat
  last : Bool           -- the converter was stopped: the conversion in progress is its last
  deriving DecidableEq, Repr, Inhabited

def AdcConv.idle : AdcConv := ⟨none, [], false⟩

/-- An ADC_START that has sequences to report (R358). -/
structure AdcCmd where
  cmd : Nat
  left : Nat
  started : Nat
  pending : Nat
  dropped : Nat
  deriving DecidableEq, Repr, Inhabited

/-- The converters. `res` and `prev` hold the two newest results of a channel, `capCount` the conversion count at the
last capture; `arms` the waiting WINDOW_ARM commands: command and mask. -/
structure AdcSt where
  convs : List AdcConv
  reqs : List AdcReq
  cmds : List AdcCmd
  res : SMap AdcRes
  prev : SMap AdcRes
  capCount : SMap Nat
  arms : List (Nat × Nat)
  timerLast : SMap Nat  -- last firing of a trigger timer in the frame
  deriving DecidableEq, Repr

def AdcSt.reset : AdcSt := ⟨[AdcConv.idle, AdcConv.idle], [], [], [], [], [], [], []⟩

/-- A PWM channel (R353): high time in effect and latched for the next period, the PERIOD in effect, the tick of the
last period start. -/
structure Pwm where
  h : Nat
  next : Nat
  period : Nat
  start : Nat
  deriving DecidableEq, Repr, Inhabited

def Pwm.reset : Pwm := ⟨0, 0, 16, 0⟩

/-- A pulse output: remaining count; end of the active phase and of the gap of the pulse in progress. -/
structure PulseOut where
  remaining : Nat
  active : Bool
  endActive : Nat
  endGap : Nat
  deriving DecidableEq, Repr, Inhabited

def PulseOut.idle : PulseOut := ⟨0, false, 0, 0⟩

/-- A pulse input: the counter, the time of its newest edge, the counter at the last capture. -/
structure PulseIn where
  count : Nat
  at_ : Nat
  latched : Nat
  deriving DecidableEq, Repr, Inhabited

def PulseIn.reset : PulseIn := ⟨0, 0, 0⟩

/-- Output latches and inputs. `gpioIn` holds pin levels as bits, `holdExt` another circuit pulling HOLD_N low. -/
structure IoxSt where
  dac : SMap Nat
  pwm : SMap Pwm
  gpio : SMap Bool
  po : SMap PulseOut
  pi : SMap PulseIn
  piLevel : Nat
  gpioIn : Nat
  holdExt : Bool
  sense : Bool
  deriving DecidableEq, Repr

def IoxSt.reset : IoxSt := ⟨[], [], [], [], [], 0, 0, false, false⟩

end Sys2Proof.Machine
end

