-- ==== Sys2Proof/Machine/StateLaunch.lean ====
section
/-!
DEFINITION. The state of the launch queue (spec/14_time_ethernet_launch.md R339–R344).
-/

namespace Sys2Proof.Machine

/-- A launch entry in use (R339): its record, its fire instant, and the LAUNCH_QUEUE that queued it. -/
structure LEntry where
  time : Nat
  value : Nat
  kind : Nat
  flags : Nat
  index : Nat
  fireAt : Nat
  owner : Nat           -- id of the LAUNCH_QUEUE command; 0 for entries 0–256 and for entries of another unit
  spec : Option Nat     -- the period whose results it carries (R272)
  bySpec : Bool         -- queued with SPEC (R279)
  late : Bool           -- a forward step of the time base passed its instant (R329)
  deriving DecidableEq, Repr, Inhabited

/-- The account of one LAUNCH_QUEUE command (R344). -/
structure LGroup where
  cmd : Nat
  left : Nat            -- entries neither fired nor removed
  fired : Nat
  unfired : Nat
  squash : Option Nat   -- cause of a squash
  cancelled : Bool
  suppressed : Bool
  period : Nat
  remote : Nat          -- target unit, 0 for this one
  deriving DecidableEq, Repr, Inhabited

/-- The launch queue: entries 0–4095; those this unit forwarded to another unit's queue stand from key 4096 on, for
their command's account only (R341) (log 118). -/
structure LaunchSt where
  q : SMap (Option LEntry)
  groups : List LGroup
  deriving DecidableEq, Repr

/-- An empty queue. -/
def LaunchSt.reset : LaunchSt := ⟨[], []⟩

end Sys2Proof.Machine
end

