-- ==== Sys2Proof/Machine/StatePlan.lean ====
section
/-!
DEFINITION. The state of the network model, the measurement list, the plan slots, the frame plan and the runs of plan
entries (spec/05_network_model.md R120–R137, spec/06_plans_static_schedule.md R138–R165, R508, R509).
-/

namespace Sys2Proof.Machine

/-- A Network Object Table entry (R120). Parameters are binary64 patterns. -/
structure NetObj where
  type : Nat
  flags : Nat
  link0 : Nat
  link1 : Nat
  block : Nat
  partition : Nat
  rsvd : Nat
  userTag : Nat
  p : List Nat
  deriving DecidableEq, Repr, Inhabited

/-- An EMPTY entry: no links, the trunk, parameters +0.0. -/
def NetObj.empty : NetObj :=
  { type := 0, flags := 0, link0 := 0xFFFF, link1 := 0xFFFF, block := 0xFFFF, partition := 0, rsvd := 0, userTag := 0,
    p := [0, 0, 0, 0, 0, 0] }

/-- The descriptor half of a measurement entry (R123). -/
structure MeasDesc where
  object : Nat
  quantity : Nat
  source : Nat
  sourceIndex : Nat
  maxAge : Nat
  scale : Nat
  offset : Nat
  sigma : Nat
  rsvd : Nat
  deriving DecidableEq, Repr, Inhabited

/-- An unused descriptor. -/
def MeasDesc.unused : MeasDesc := ⟨0, 0, 0, 0, 0, 0, 0, 0, 0⟩

/-- The device-maintained half of a measurement entry (R123). -/
structure MeasVal where
  value : Nat
  ts : Nat
  mstat : Nat
  updates : Nat
  residual : Nat
  deriving DecidableEq, Repr, Inhabited

/-- The half of an entry that no capture has reached. -/
def MeasVal.zero : MeasVal := ⟨0, 0, 0, 0, 0⟩

/-- One copy of both tables (R129). -/
structure ModelCopy where
  objs : SMap NetObj
  meas : SMap MeasDesc
  gen : Nat
  sig : Nat
  deriving DecidableEq, Repr, Inhabited

/-- A host value record (R134). -/
structure HostVal where
  index : Nat
  ts : Nat
  value : Nat
  deriving DecidableEq, Repr, Inhabited

/-- A MODEL_COMMIT waiting for its boundary (R131). -/
structure CommitWait where
  cmd : Nat
  notBefore : Nat
  structural : Bool
  deriving DecidableEq, Repr, Inhabited

/-- Network model and measurement list. Values are keyed 0x1_0000 × set + entry over the four sets (R128) (log 145). -/
structure ModelSt where
  stagedObjs : SMap NetObj
  stagedMeas : SMap MeasDesc
  com : ModelCopy
  prev : Option ModelCopy
  vals : SMap MeasVal
  newest : Nat
  pins : List (Nat × Nat)        -- value set, run that pins it
  hostVals : List HostVal
  wait : Option CommitWait
  commitTime : Nat
  captureTime : Nat
  setTimes : SMap Nat            -- time base of the capture that wrote each value set (R243)
  deriving DecidableEq, Repr, Inhabited

/-- The empty model after reset (R129). -/
def ModelSt.reset : ModelSt :=
  { stagedObjs := [], stagedMeas := [], com := ⟨[], [], 0, 0⟩, prev := none, vals := [], newest := 0, pins := [],
    hostVals := [], wait := none, commitTime := 0, captureTime := 0, setTimes := [] }

/-- A tile descriptor (R143). -/
structure Tile where
  kind : Nat
  prec : Nat
  binding : Nat
  tflags : Nat
  rows : Nat
  cols : Nat
  count : Nat
  bytes : Nat
  bindIndex : Nat
  firstUse : Nat
  lastUse : Nat
  deriving DecidableEq, Repr, Inhabited

/-- A plan entry (R144). -/
structure PEntry where
  cls : Nat
  opgroup : Nat
  first : Nat
  count : Nat
  maxWidth : Nat
  wcCluster : Nat
  wcPath : Nat
  deriving DecidableEq, Repr, Inhabited

/-- A kernel record (R145), shapes m and n joined with their upper bits. -/
structure KRec where
  kernel : Nat
  width : Nat
  prec : Nat
  opnd : List Nat
  m : Nat
  n : Nat
  k : Nat
  r : Nat
  batch : Nat
  steps : Nat
  arg : Nat
  deriving DecidableEq, Repr, Inhabited

/-- A loaded plan image (R142–R145). -/
structure Plan where
  planId : Nat
  structSig : Nat
  kilardVer : Nat
  imageLen : Nat
  peakStore : Nat
  tiles : List Tile
  entries : List PEntry
  recs : List KRec
  deriving DecidableEq, Repr, Inhabited

/-- A plan slot (R150). `loadNo` counts loads, so that a run can tell the image it bound. -/
structure PSlot where
  plan : Option Plan
  loadTime : Nat
  loadNo : Nat
  deriving DecidableEq, Repr, Inhabited

/-- One currency row of a class: floor and ceiling. -/
structure FloorCeil where
  floor : Nat
  ceil : Nat
  deriving DecidableEq, Repr, Inhabited

/-- The budget of a class in a frame plan (R151): steps, beats, management µs. -/
structure ClassBudget where
  steps : FloorCeil
  beats : FloorCeil
  mgmt : FloorCeil
  deriving DecidableEq, Repr, Inhabited

/-- The budget while no frame plan is in force: no floor, no ceiling (R32). -/
def ClassBudget.open : ClassBudget := ⟨⟨0, 0xFFFFFFFF⟩, ⟨0, 0xFFFFFFFF⟩, ⟨0, 0xFFFFFFFF⟩⟩

/-- A frame plan (R151). -/
structure FramePlan where
  fpId : Nat
  frameLen : Nat
  cutOrder : List Nat
  slotOrder : List Nat
  bandAssumed : Nat
  classes : List ClassBudget
  deriving DecidableEq, Repr, Inhabited

/-- A PLAN_LOAD of a frame plan or a CLASS_BUDGET that waits for its boundary (R159, R161). -/
inductive BudgetWait
  | plan (cmd : Nat) (fp : FramePlan) (notBefore : Nat) (raise : Bool)
  | cls (cmd : Nat) (c : Nat) (currency : Nat) (fc : FloorCeil) (notBefore : Nat)
  deriving DecidableEq, Repr

/-- What a run belongs to: a command of groups 0x05–0x07, the self-test service of class 13 (R144, R188), or another unit's
split run, of which this unit runs a share (R203). -/
inductive RunKind
  | sheaf | lsq | extrapolate | selfTest | share
  deriving DecidableEq, Repr, Inhabited

/-- Where a run stands: waiting for its homes and clusters (R196), executing records, in its status phase
(R226, R252), or parked as a squashed run that waits for its re-solve (R271). -/
inductive RunPhase
  | queued | records | status
  deriving DecidableEq, Repr, Inhabited

/-- Why a run stops at its next boundary (R183, R100, R104, R187, R232). -/
inductive RunStop
  | cancel | deadline | squash | exception (status : Nat) (detail : Nat) (r0 : Nat)
  deriving DecidableEq, Repr

/-- A run of a plan entry (R164). `loops` holds, outermost first, the index of each open LOOP_BEGIN and the
iterations completed. -/
structure Run where
  id : Nat                     -- run number in start order of acceptance
  cmd : Nat                    -- its command, 0xFFFF_FFFF… none for internal runs
  kind : RunKind
  slot : Nat
  entry : Nat
  plan : Plan
  gen : Nat                    -- model generation it is bound to (R129)
  cls : Nat
  phase : RunPhase
  idx : Nat                    -- record index
  loops : List (Nat × Nat)
  path : Nat                   -- path steps done
  part : Nat                   -- path steps of the present record done before a pause (R157)
  beat : Nat                   -- memory beats of the present record's tile traffic done before a pause (R157, R167)
  deadline : Nat               -- 0 none
  stop : Option RunStop
  paused : Bool
  spec : Option Nat            -- run-ahead period of a speculative run
  startTime : Nat
  passes : Nat                 -- passes of the outermost loop completed (R185)
  tail : Bool                  -- in its tail (R183)
  dlStopped : Bool             -- the deadline stopped the run
  capped : Bool                -- an outermost loop ended at its cap
  norm : Nat                   -- norm of the last LOOP_TEST, binary64
  best : Option Nat            -- smallest norm of the LOOP_TESTs over whole tiles so far (R185)
  keepBest : Bool              -- a LOOP_TEST with KEEP_BEST has run (R185)
  indep : Bool                 -- INDEPENDENT (R263)
  resolve : Bool               -- a re-solve (R271)
  rbuf : Nat                   -- memory behind operand 0 fixed at the start (R264, R267)
  tslot : Nat                  -- tentative slot fixed at the start
  cluster : Nat                -- window base c0 of its entry at the start (R195)
  dlPassed : Bool              -- the time base has reached its deadline
  tolFails : Nat               -- inputs that failed its last TOL_COMPARE (R276)
  deriving DecidableEq, Repr

/-- Plan slots, frame plan, policy and runs. -/
structure PlanSt where
  slots : SMap PSlot
  loads : Nat
  fp : Option FramePlan
  amended : Bool
  wait : Option BudgetWait
  cuts : SMap Nat              -- step floor taken away in this frame, by class (R158)
  runs : List Run
  nextRun : Nat
  requireSigned : Bool
  lock : Bool
  policySlot : Nat
  pauses : SMap Nat            -- pauses at a ceiling since reset, by class (R164)
  deriving DecidableEq, Repr

/-- An empty slot. -/
def PSlot.empty : PSlot := ⟨none, 0, 0⟩

/-- Empty slots and no frame plan (R32, R150); the policy comes from the journal (R160). -/
def PlanSt.reset : PlanSt :=
  { slots := [], loads := 0, fp := none, amended := false, wait := none, cuts := [], runs := [], nextRun := 0,
    requireSigned := false, lock := false, policySlot := 0, pauses := [] }

end Sys2Proof.Machine
end

