-- ==== Sys2Proof/Machine/StateFabric.lean ====
section
/-!
DEFINITION. The state of the Thresher fabric, the pace bands, the voltage governor, placement and sheaf runs
(spec/07_thresher_fabric.md R166–R190, spec/08_placement.md R191–R214, spec/09_sheaf_solvers.md R215–R234).
-/

namespace Sys2Proof.Machine

/-- A physical cluster (R166, THR_CL_n registers). -/
structure Cluster where
  state : Nat            -- 0 in service, 1 spare, 2 retired
  logical : Nat          -- 0x3F when none
  kaMargin : Nat
  kaFails : Nat
  flushResults : Nat
  flushOperands : Nat
  exc : Nat              -- bit 0 INVALID, 1 DIVZERO, 2 OVERFLOW
  deriving DecidableEq, Repr, Inhabited

/-- An AVSBus Write Voltage exchange in progress (R179, R181). -/
structure AvsWrite where
  code : Nat
  tries : Nat            -- failed tries so far
  raise : Bool
  deriving DecidableEq, Repr, Inhabited

/-- Clusters, pace bands and governor. -/
structure ThrSt where
  clusters : List Cluster
  pm : SMap Nat               -- normalised counts of the last window (R173)
  band : Nat
  recent : List Nat           -- bands of the windows since a better band was first measured, newest first, at most 8
  below : Bool
  belowClear : Nat            -- consecutive windows without the condition of R176
  bandMax : Nat
  vcode : Nat
  target : Nat
  atMax : Bool
  avs : Option AvsWrite
  avsErr : Bool
  lowerSince : Option Nat     -- tick since which the lowering condition has held (R179)
  shed : List Nat             -- retirements waiting for their boundary: physical clusters (R189)
  repeatAt : Option Nat       -- tick of the evaluation after an acknowledged raise (R179)
  readTries : Nat             -- failed tries of a read exchange (R181)
  deriving DecidableEq, Repr, Inhabited

/-- Clusters 0–31 in service, 32 and 33 spare (R166). -/
def ThrSt.freshClusters : List Cluster :=
  (List.range 34).map fun k =>
    if k < 32 then ⟨0, k, 0, 0, 0, 0, 0⟩ else ⟨1, 0x3F, 0, 0, 0, 0, 0⟩

/-- Fabric state after reset: band 15, VCODE 60 (THR_GOV_STAT). -/
def ThrSt.reset : ThrSt :=
  { clusters := ThrSt.freshClusters, pm := [], band := 15, recent := [], below := false, belowClear := 0,
    bandMax := 15, vcode := 60, target := 15, atMax := false, avs := none, avsErr := false, lowerSince := none,
    shed := [], repeatAt := none, readTries := 0 }

/-- A home of a tile: a placement map entry (R209). `entry` 0xFF is a persistent home of the slot. -/
structure Home where
  idx : Nat
  slot : Nat
  entry : Nat
  tile : Nat
  home : Nat          -- 0 striped, 1 Loft, 2 DRAM, 3 guest, 4 bound
  unit : Nat
  c0 : Nat
  width : Nat
  offset : Nat        -- 64-byte units
  len : Nat           -- 64-byte units
  life0 : Nat         -- lifetime (R198)
  life1 : Nat
  deriving DecidableEq, Repr, Inhabited

/-- The values R192 latches. -/
structure PlcSizes where
  h : Nat
  g : Nat
  j : Nat
  remote : Bool
  deriving DecidableEq, Repr, Inhabited

/-- Placement. -/
structure PlcSt where
  homes : List Home
  sizes : PlcSizes
  widthSum : Nat
  c0 : SMap (List Nat)       -- window bases by slot
  unplaced : SMap Bool
  replacePend : Bool
  rebuild : Option Nat       -- the PLACE_REBUILD command that waits
  sizesBad : Bool
  digestDiff : Bool
  lost : List (Nat × Nat)    -- lost logical numbers and their physical clusters (R206)
  lostHomes : List Nat       -- map indices of homes lost with a cluster or a departed unit
  nLast : Nat                -- N_eff at the last boundary, which a unit of a pair goes by (R193)
  replaceAt : Option Nat     -- the 250 MHz tick of a boundary at which a re-placement is due (R206)
  deriving DecidableEq, Repr, Inhabited

/-- Placement after reset; the sizes are latched at the first load (R192). -/
def PlcSt.reset : PlcSt :=
  { homes := [], sizes := ⟨0x100, 0, 0xC0, false⟩, widthSum := 0, c0 := [], unplaced := [],
    replacePend := false, rebuild := none, sizesBad := false, digestDiff := false, lost := [], lostHomes := [],
    nLast := 0, replaceAt := none }

/-- The member state of a sheaf run (R223–R225). Norms and τ are binary64 or record-format patterns. -/
structure Member where
  tau : Option Nat
  regCount : Nat
  firstReg : Nat
  fail : Nat            -- bit 0 INPUT, 1 NOT_SPD, 2 OVERFLOW, 3 INVALID
  converged : Bool
  tests : Nat
  best : Nat
  norm : Nat
  kept : Bool
  deriving DecidableEq, Repr, Inhabited

/-- A member no kernel has touched. -/
def Member.fresh : Member := ⟨none, 0, 0xFF, 0, false, 0, 0, 0, false⟩

/-- What a sheaf run carries beyond its plan entry: the header of its buffer (R217), the members and the split. -/
structure SheafRun where
  run : Nat
  buf : Nat
  bufLen : Nat
  hflags : Nat
  rho : Nat
  tolAbs : Nat
  tolRel : Nat
  statusOfs : Nat
  opnds : List (Nat × Nat)
  orders : List Nat            -- n_j by used member
  c : Nat
  batch : Nat
  order : Nat
  members : SMap Member
  memberwise : Bool            -- some memberwise LOOP_TEST has run
  shares : List (Nat × Nat × Nat)   -- split: (unit, first member, count) of the partners that have not reported
  shareFirst : Nat
  shareCount : Nat
  split : Bool
  factored : Bool              -- the first factor record has fixed every τ
  rerun : List (Nat × Nat)     -- first member and count of partners' shares to run again here (R204)
  unit : Nat                   -- the submitting unit of a share, 0 for a run of this unit (R203)
  unitRun : Nat                -- its number of the run
  resBase : Nat                -- the window offset there of the memory behind result operand 0
  deriving DecidableEq, Repr, Inhabited

end Sys2Proof.Machine
end

