-- ==== Sys2Proof/Machine/StateSolve.lean ====
section
/-!
DEFINITION. The state of network estimation and of run-ahead optimisation
(spec/10_least_squares.md R235–R257, spec/11_run_ahead.md R258–R279).
-/

namespace Sys2Proof.Machine

/-- A row of the row table or of the Jacobian: its measurement entry or model object, the row kind (quantity, or the
model row number), z, w, the residual, and the derivatives by variable. -/
structure ERow where
  idx : Nat
  kind : Nat
  z : Nat
  w : Nat
  r : Nat
  der : List (Nat × Nat)
  deriving DecidableEq, Repr, Inhabited

/-- Bounds and scale of a variable kind (R242). -/
structure KindPar where
  nominal : Nat
  sigmaPrior : Nat
  low : Nat
  high : Nat
  deriving DecidableEq, Repr, Inhabited

/-- What a publication writes into the network state region (R243, R244). -/
structure Pub where
  header : List Byte
  values : List Nat
  flags : List Byte
  deriving DecidableEq, Repr, Inhabited

/-- What an estimate run carries beyond its plan entry: the LSQ header (R242), the estimate state (R246), the typed
contents of its row table, Jacobian and normal system, and the outcome conditions of R253. The normal system holds its
lower triangle at 2^17 × i + j, j ≤ i, and its gradient by variable. -/
structure LsqRun where
  run : Nat
  buf : Nat
  bufLen : Nat
  lflags : Nat
  rho : Nat
  tolAbs : Nat
  tolRel : Nat
  lambda : Nat
  lambdaUp : Nat
  lambdaDown : Nat
  lambdaMin : Nat
  lambdaMax : Nat
  dampFloor : Nat
  outlierK : Nat
  outlierFrom : Nat
  warmOfs : Nat
  sigmaModel : List Nat
  kinds : List KindPar
  started : Bool              -- the start phase has ended
  jcur : Nat
  jtrial : Nat
  rejected : Bool
  rejects : Nat
  outliers : List Nat
  factorPass : Option Nat     -- pass whose factoring `reg`, `negatives` and `marks` count
  reg : Nat
  negatives : Nat
  cost : Nat                  -- J of the last evaluation that was not a trial (R243)
  marks : List Nat            -- variables marked REGULARISED in the last factoring pass
  clamped : List Nat
  failed : Bool
  cold : Bool
  rows : List ERow
  jac : List ERow
  jacModel : List ERow
  mat : SMap Nat
  grad : SMap Nat
  resid : SMap Nat            -- z − h of the last evaluation that was not a trial, by measurement entry
  measTime : Nat
  deriving DecidableEq, Repr, Inhabited

/-- Estimation: the runs, and a publication that waits for its boundary (log 60). -/
structure LsqSt where
  runs : List LsqRun
  pub : Option Pub
  deriving DecidableEq, Repr

/-- No estimate. -/
def LsqSt.reset : LsqSt := ⟨[], none⟩

/-- An assumed-input descriptor (R260). Tolerances are binary32. -/
structure RaInput where
  meas : Nat
  mode : Nat
  iflags : Nat
  tolAbs : Nat
  tolRel : Nat
  deriving DecidableEq, Repr, Inhabited

/-- An unused descriptor. -/
def RaInput.unused : RaInput := ⟨0, 0, 0, 0, 0⟩

/-- A speculative run whose outcome the period keeps until it commits (R273). -/
structure EndedRun where
  cmd : Nat
  status : Nat
  detail : Nat
  r0 : Nat
  r1 : Nat
  r2 : Nat
  r3 : Nat
  indep : Bool
  age : Nat
  deriving DecidableEq, Repr, Inhabited

/-- A period that is open or in COMMIT_WAIT. `slot` is the tentative memory behind its operands 1–3, `buf` the memory
behind operand 0 (R267, R269) (log 144). -/
structure Period where
  n : Nat
  slot : Nat
  buf : Nat
  frozen : Bool
  freezeTime : Nat
  commitWait : Bool
  resTime : Nat         -- its resolution instant, once resolved
  wrote : Bool
  lastSquash : Nat × Nat -- tick and cause of its last squash
  staged : Option Pub
  ended : List EndedRun
  deriving DecidableEq, Repr, Inhabited

/-- A squashed run that waits for its re-solve (R271). `firm` tells cause 0x01 from cause 0x02. -/
structure ReSolve where
  cmd : Nat
  period : Nat
  firm : Bool
  age : Nat
  deriving DecidableEq, Repr, Inhabited

/-- An entry of the resolution log (R278). -/
structure Resolution where
  n : Nat
  squashed : Bool
  waited : Bool
  first : Nat
  fails : Nat
  time : Nat
  deriving DecidableEq, Repr, Inhabited

/-- Run-ahead. `resBuf` is the memory behind result operand 0. Assumed values and histories stand in the tentative
regions themselves. -/
structure RaSt where
  plen : Nat
  depth : Nat
  anchor : Nat
  newCfg : Option (Nat × Nat × Nat)
  inputs : SMap RaInput
  periods : List Period
  resBuf : Nat
  curSlot : Option Nat           -- tentative slot of the current period, whose assumed values firm runs read
  resolves : List ReSolve
  resolving : Bool
  log : List Resolution
  setsFor : SMap (SMap MeasVal)  -- the assumed set of a speculative run, built when it pinned its measurements, by run (R266)
  testSets : SMap (SMap MeasVal) -- the newest complete value set at the start of an RA_EXTRAPOLATE run, by run (R262)
  deriving DecidableEq, Repr

/-- Run-ahead disabled (R258). -/
def RaSt.reset : RaSt :=
  { plen := 0, depth := 0, anchor := 0, newCfg := none, inputs := [], periods := [], resBuf := 0, curSlot := none, resolves := [],
    resolving := false, log := [], setsFor := [], testSets := [] }

end Sys2Proof.Machine
end

