-- ==== Sys2Proof/Machine/StateTime.lean ====
section
/-!
DEFINITION. The state of the time base, PTP, the Ethernet ports and substation datagrams
(spec/14_time_ethernet_launch.md R321–R338).
-/

namespace Sys2Proof.Machine

/-- What the newest Announce of a sender said (R326). -/
structure Foreign where
  port : Nat
  src : Nat             -- clockIdentity of the sender
  srcPort : Nat
  prio1 : Nat
  cls : Nat
  accuracy : Nat
  variance : Nat
  prio2 : Nat
  gm : Nat
  steps : Nat
  deriving DecidableEq, Repr, Inhabited

/-- A PTP domain: its newest measurement, its last measurements by magnitude, newest first, its parent (R326, R328). -/
structure PtpDom where
  theta : Int
  delay : Int           -- mean path delay of the newest measurement
  at_ : Nat             -- time base of the newest measurement
  delta : Nat           -- Δ of the newest measurement, 0 before there is one
  known : Bool
  hist : List Nat
  count : Nat
  refusals : Nat
  lastSync : Option Nat -- receive time of the last Sync
  parent : Option Foreign
  senders : List Foreign
  deriving DecidableEq, Repr, Inhabited

/-- A domain never heard of. -/
def PtpDom.reset : PtpDom := ⟨0, 0, 0, 0, false, [], 0, 0, none, none, []⟩

/-- A Sync that waits for its Follow_Up: sender, sequence, receive time, correction in 2⁻¹⁶ ns. -/
structure TwoStep where
  src : Nat
  srcPort : Nat
  seq : Nat
  rx : Nat
  corr : Int
  deriving DecidableEq, Repr, Inhabited

/-- A port's PTP state: delay measurements as round trips in 2⁻¹⁶ ns, newest first, at most 8; the last Sync's
t2 − t1 in 2⁻¹⁶ ns; requests sent and not answered (sequence, transmit time); sequence numbers. -/
structure PtpPort where
  delays : List Int
  toSlave : Option Int
  waiting : Option TwoStep
  delayReq : Option (Nat × Nat)
  pdelayReq : Option (Nat × Nat)
  seqs : List Nat
  speed : Nat           -- Mb/s of the link, 0 when down
  busyUntil : Nat       -- end of the last frame handed to the port
  deriving DecidableEq, Repr, Inhabited

/-- A port after reset. -/
def PtpPort.reset : PtpPort := ⟨[], none, none, none, none, [0, 0, 0, 0], 0, 0⟩

/-- A frame the device sent: port, kind, time base of its first bit, header items, payload. Kinds: 0 Sync, 1 Announce,
2 Delay_Req, 3 Pdelay_Req, 4 Delay_Resp, 5 Pdelay_Resp, 6 ARP or neighbour answer, 7 setpoint datagram. -/
structure TxFrame where
  port : Nat
  kind : Nat
  time : Nat
  items : List Nat
  payload : List Byte
  deriving DecidableEq, Repr, Inhabited

/-- A substation table entry (R335) with its sequence state. -/
structure Subst where
  addr : List Byte
  mac : List Byte
  port : Nat
  slot : Nat
  udp : Nat
  lead : Nat
  repeats : Nat
  gap : Nat
  lastSeq : Option Nat
  outSeq : Nat
  deriving DecidableEq, Repr, Inhabited

/-- An entry never written. -/
def Subst.empty : Subst := ⟨[], [], 0, 0, 0, 0, 0, 0, none, 0⟩

/-- A copy of a setpoint datagram that waits for its instant (R338). -/
structure Repeat where
  due : Nat
  port : Nat
  subst : Nat
  left : Nat            -- copies after this one
  payload : List Byte
  deriving DecidableEq, Repr, Inhabited

/-- Time base (R321): a 64.32-bit accumulator in ns, the applied correction in ppb, the tick count; PTP and Ethernet.
`alarms` holds the armed times of TIM_ALARM_n; `rx` the telemetry accepted since the last capture:
index, value, timestamp, tick of completion; `tx` what was sent, newest first. -/
structure TimCore where
  acc : Nat
  rate : Int
  ticks : Nat
  alarms : SMap (Option Nat)
  doms : List PtpDom
  ports : List PtpPort
  servoRan : Bool       -- the servo has processed a measurement since PTP was selected
  lastSource : Nat      -- SOURCE in force
  subst : SMap Subst
  rx : List (Nat × Nat × Nat × Nat)
  repeats : List Repeat
  tx : List TxFrame
  deriving DecidableEq, Repr, Inhabited

/-- After reset: the time base starts at 0 (R323), domain A active (R328). -/
def TimCore.reset : TimCore :=
  { acc := 0, rate := 0, ticks := 0, alarms := [], doms := [PtpDom.reset, PtpDom.reset],
    ports := [PtpPort.reset, PtpPort.reset, PtpPort.reset, PtpPort.reset], servoRan := false, lastSource := 0,
    subst := [], rx := [], repeats := [], tx := [] }

end Sys2Proof.Machine
end

