-- ==== Sys2Proof/Machine/StateSync.lean ====
section
/-!
DEFINITION. The sync image of a redundant pair (spec/18_trellis_redundancy.md R418).
-/

namespace Sys2Proof.Machine

/-- What the primary sends as it stood at T_s: the model with its value sets; slots, frame plan and a waiting budget
change; placement; loops with their register words, setpoints and map; logic; substations; CAN fields; launches;
run-ahead; the published state; memory cells of tentative, state and result regions and persistent homes; and
when the last run it started before T_s ends. -/
structure SyncImage where
  ts : Nat
  model : ModelSt
  slots : SMap PSlot
  framePlan : Option FramePlan
  budgetWait : Option BudgetWait
  placement : PlcSt
  loops : SMap LoopSt
  map : SMap SpMap
  regs : List (Nat × Word)
  logic : CleSt
  subst : SMap Subst
  fields : SMap CanField
  launch : LaunchSt
  runAhead : RaSt
  published : Option Pub
  cells : List (Nat × Byte)
  runsUntil : Nat
  deriving DecidableEq, Repr

end Sys2Proof.Machine
end

