-- ==== Sys2Proof/Wire.lean ====
section
/-!
DEFINITION. What reaches the block in one piece: a command packet (spec/02_command_interface.md R50), the header of a PTP
message (spec/14_time_ethernet_launch.md R325), the bulk part of a mirror (spec/18_trellis_redundancy.md R416).
-/

namespace Sys2Proof

/-- A command packet as the device fetches it from ring `ring` (R50). -/
structure Pkt where
  ring : Fin 64
  opcode : BitVec 16
  flags : Byte
  classOvr : Byte
  tag : Word
  launchTime : DWord
  bufAddr : DWord
  bufLen : Word
  word1C : Word
  p0 : Word
  p1 : Word
  p2 : Word
  p3 : Word
  p4 : Word
  p5 : Word
  p6 : Word
  p7 : Word
  deriving DecidableEq, Repr, Inhabited

/-- What every PTP message carries (R325, R326): the port it arrives on, its domain, its sender, its sequence number,
logMessageInterval and correctionField in 2⁻¹⁶ ns. -/
structure PtpHdr where
  port : Nat
  domain : Nat
  src : Nat
  srcPort : Nat
  seq : Nat
  interval : Int
  corr : Int
  deriving DecidableEq, Repr, Inhabited

/-- A mirrored command: its packet, the class of the primary's ring, the bytes of its buffer (R415). -/
structure MirrorCmd where
  pkt : Pkt
  cls : Nat
  data : List Byte
  deriving DecidableEq, Repr, Inhabited

/-- A mirrored capture item: source, index, value in binary64, timestamp, at a limit (R415). -/
structure MirrorItem where
  source : Nat
  index : Nat
  raw : Nat
  ts : Nat
  atLimit : Bool
  deriving DecidableEq, Repr, Inhabited

/-- The fast part of the mirror of a frame (R416): by ADC channel its code, the sample instant and whether it was converted in the
frame; window bits, pulse-input levels and counts (input, count), GPIO levels. -/
structure FastPart where
  adc : List (Nat × Nat × Nat × Bool)
  win : Nat
  levels : Nat
  gpio : Nat
  counts : List (Nat × Nat)
  deriving DecidableEq, Repr, Inhabited

/-- The bulk part of the mirror of a frame (R416): the frame number, capture items, host value records (entry, time, value),
commands in the primary's order of acceptance, outgoing SEQ numbers by substation, the availability mask (R193). -/
structure BulkPart where
  frame : Nat
  items : List MirrorItem
  hosts : List (Nat × Nat × Nat)
  cmds : List MirrorCmd
  seqs : List (Nat × Nat)
  avail : Nat
  deriving DecidableEq, Repr, Inhabited

/-- A share of a split run as its submitting unit announces it (R203): the unit and its number of the run, plan slot and
entry, the command's class and deadline, window offsets of the sheaf buffer and of the memory behind result operand 0, the
buffer's length and the bytes of its header and member orders, C, and the share. -/
structure ShareReq where
  unit : Nat
  run : Nat
  slot : Nat
  entry : Nat
  deadline : Nat
  buf : Nat
  bufLen : Nat
  resBase : Nat
  header : List Byte
  orders : List Byte
  c : Nat
  first : Nat
  count : Nat
  deriving DecidableEq, Repr, Inhabited

/-- The completion of a share (R203): the unit that ran it, the submitting unit's number of the run, and by member of the share
its failure flags, its regularised pivots and the first of them. -/
structure ShareDone where
  unit : Nat
  run : Nat
  members : List (Nat × Nat × Nat)
  deriving DecidableEq, Repr, Inhabited

/-- What a Trellis packet to this unit carries: an access to its memory with the bytes of a write (R35), a share to run here, or the
completion of a share of this unit's run (R203) (log 95). -/
inductive WindowMsg
  | access (data : List Byte)
  | share (q : ShareReq)
  | done (r : ShareDone)
  deriving DecidableEq, Repr, Inhabited

/-- Its fields are within the widths of a chain: 16 units, 8 slots, 16 entries, 4,096 members; a write carries its bytes. -/
def WindowMsg.ok (write : Bool) (len : Nat) : WindowMsg → Bool
  | .access data => !write || decide (data.length = len)
  | .share q => decide (1 ≤ q.unit ∧ q.unit ≤ 16) && decide (q.slot < 8 ∧ q.entry < 16) && decide (q.c ≤ 4096 ∧ q.first + q.count ≤ 4096) &&
      decide (q.header.length = 128)
  | .done r => decide (1 ≤ r.unit ∧ r.unit ≤ 16) && decide (r.members.length ≤ 4096)

/-- What a start finds outside the device, and how long it takes (R107–R112): straps, whether the selected reference, the
AVSBus exchange, the Silo self-test, DRAM and Granary are good, the image in the NOR, whether the checkpoint of
slot A or B cannot be read, unreadable NAND pages, whether the root unseals and the entropy source passes,
ENUM_IN_N, the known-answer test of each cluster with its margin code, slots whose stored key fails its check, and the
250 MHz ticks from the release of RESET_N to the start of the frame sequencer. -/
structure BootEnv where
  refSel : Bool
  bootSel : Bool
  refOk : Bool
  avsAck : Bool
  selfOk : Bool
  dramOk : Bool
  granaryOk : Bool
  nor : Option (List Byte)
  lostA : Bool
  lostB : Bool
  badPages : Nat
  sealOk : Bool
  entropyOk : Bool
  enumLow : Bool
  tests : List (Bool × Nat)
  badSlots : List Nat
  ticks : Nat
  deriving DecidableEq, Repr, Inhabited

end Sys2Proof
end

