-- ==== Sys2Proof/Syntax.lean ====
section
/-!
DEFINITION. The commands of the block: one constructor per row of spec/opcode_table.json, with the row's operands.
-/

namespace Sys2Proof

/-- A command from outside, or an event at a pin, in a clock domain or on a link (spec/opcode_table.json). -/
inductive Instr
  /-- IDENTIFY (R68). -/
  | identify (p : Pkt)
  /-- GET_MODE (R66). -/
  | getMode (p : Pkt)
  /-- SET_MODE (R97). -/
  | setMode (p : Pkt)
  /-- READ_STATE (R115). -/
  | readState (p : Pkt)
  /-- FENCE (R69). -/
  | fence (p : Pkt)
  /-- ECHO (R66). -/
  | echo (p : Pkt)
  /-- GET_COUNTERS (R70). -/
  | getCounters (p : Pkt)
  /-- SET_FRAME (R20). -/
  | setFrame (p : Pkt)
  /-- RING_CONFIG (R71). -/
  | ringConfig (p : Pkt)
  /-- RING_RESET (R72). -/
  | ringReset (p : Pkt)
  /-- CLASS_BUDGET (R161). -/
  | classBudget (p : Pkt)
  /-- CLASS_QUERY (R164). -/
  | classQuery (p : Pkt)
  /-- MODEL_WRITE_OBJECTS (R133). -/
  | modelWriteObjects (p : Pkt)
  /-- MODEL_WRITE_MEAS (R133). -/
  | modelWriteMeas (p : Pkt)
  /-- MODEL_COMMIT (R135). -/
  | modelCommit (p : Pkt)
  /-- MODEL_READ (R133). -/
  | modelRead (p : Pkt)
  /-- MODEL_DISCARD (R133). -/
  | modelDiscard (p : Pkt)
  /-- MEAS_WRITE_VALUES (R134). -/
  | measWriteValues (p : Pkt)
  /-- MODEL_SIGNATURE (R133). -/
  | modelSignature (p : Pkt)
  /-- PLAN_LOAD (R154). -/
  | planLoad (p : Pkt)
  /-- PLAN_UNLOAD (R161). -/
  | planUnload (p : Pkt)
  /-- PLAN_QUERY (R161). -/
  | planQuery (p : Pkt)
  /-- PLAN_BOUND (R149). -/
  | planBound (p : Pkt)
  /-- PLAN_POLICY (R160). -/
  | planPolicy (p : Pkt)
  /-- PLACE_QUERY (R213). -/
  | placeQuery (p : Pkt)
  /-- PLACE_REBUILD (R212). -/
  | placeRebuild (p : Pkt)
  /-- PLACE_PREDICT (R212). -/
  | placePredict (p : Pkt)
  /-- SHEAF_SUBMIT (R215). -/
  | sheafSubmit (p : Pkt)
  /-- SHEAF_CANCEL (R232). -/
  | sheafCancel (p : Pkt)
  /-- SHEAF_QUERY (R232). -/
  | sheafQuery (p : Pkt)
  /-- LSQ_SUBMIT (R235). -/
  | lsqSubmit (p : Pkt)
  /-- LSQ_CANCEL (R254). -/
  | lsqCancel (p : Pkt)
  /-- LSQ_QUERY (R254). -/
  | lsqQuery (p : Pkt)
  /-- RA_CONFIG (R259). -/
  | raConfig (p : Pkt)
  /-- RA_INPUTS (R260). -/
  | raInputs (p : Pkt)
  /-- RA_FORECAST (R261). -/
  | raForecast (p : Pkt)
  /-- RA_EXTRAPOLATE (R262). -/
  | raExtrapolate (p : Pkt)
  /-- RA_SQUASH (R270). -/
  | raSquash (p : Pkt)
  /-- RA_QUERY (R276). -/
  | raQuery (p : Pkt)
  /-- LOOP_WRITE (R297). -/
  | loopWrite (p : Pkt)
  /-- LOOP_RETUNE (R294). -/
  | loopRetune (p : Pkt)
  /-- LOOP_ENABLE (R297). -/
  | loopEnable (p : Pkt)
  /-- SP_WRITE (R285). -/
  | spWrite (p : Pkt)
  /-- SP_MAP (R286). -/
  | spMap (p : Pkt)
  /-- SP_PUBLISH (R287). -/
  | spPublish (p : Pkt)
  /-- TRACE_ARM (R296). -/
  | traceArm (p : Pkt)
  /-- TRACE_READ (R299). -/
  | traceRead (p : Pkt)
  /-- LOGIC_LOAD (R316). -/
  | logicLoad (p : Pkt)
  /-- LOGIC_WORD_WRITE (R315). -/
  | logicWordWrite (p : Pkt)
  /-- LOGIC_PATCH (R315). -/
  | logicPatch (p : Pkt)
  /-- LOGIC_VARS_WRITE (R317). -/
  | logicVarsWrite (p : Pkt)
  /-- LOGIC_CLEAR (R317). -/
  | logicClear (p : Pkt)
  /-- LOGIC_ACK (R314). -/
  | logicAck (p : Pkt)
  /-- LOGIC_READ (R317). -/
  | logicRead (p : Pkt)
  /-- ADC_START (R358). -/
  | adcStart (p : Pkt)
  /-- WINDOW_ARM (R359). -/
  | windowArm (p : Pkt)
  /-- WINDOW_DISARM (R359). -/
  | windowDisarm (p : Pkt)
  /-- MTR_PRESET (R382). -/
  | mtrPreset (p : Pkt)
  /-- MTR_HEAT_TABLE (R382). -/
  | mtrHeatTable (p : Pkt)
  /-- MTR_SAVE (R382). -/
  | mtrSave (p : Pkt)
  /-- MTR_EVENT_WAIT (R382). -/
  | mtrEventWait (p : Pkt)
  /-- MTR_EVENT_READ (R382). -/
  | mtrEventRead (p : Pkt)
  /-- MTR_EVENT_DISARM (R383). -/
  | mtrEventDisarm (p : Pkt)
  /-- CAN_FIELDS (R397). -/
  | canFields (p : Pkt)
  /-- CAN_WAIT (R399). -/
  | canWait (p : Pkt)
  /-- CAN_DISARM (R399). -/
  | canDisarm (p : Pkt)
  /-- CAN_RECOVER (R398). -/
  | canRecover (p : Pkt)
  /-- TIME_READ (R343). -/
  | timeRead (p : Pkt)
  /-- TIME_SET (R329). -/
  | timeSet (p : Pkt)
  /-- TIME_ACCEPT (R329). -/
  | timeAccept (p : Pkt)
  /-- PTP_STATUS (R343). -/
  | ptpStatus (p : Pkt)
  /-- SUBST_WRITE (R335). -/
  | substWrite (p : Pkt)
  /-- LAUNCH_QUEUE (R344). -/
  | launchQueue (p : Pkt)
  /-- LAUNCH_CANCEL (R344). -/
  | launchCancel (p : Pkt)
  /-- TRL_QUERY (R425). -/
  | trlQuery (p : Pkt)
  /-- RED_FAILOVER (R422). -/
  | redFailover (p : Pkt)
  /-- RED_REVERT_NOW (R423). -/
  | redRevertNow (p : Pkt)
  /-- RED_RESYNC (R418). -/
  | redResync (p : Pkt)
  /-- GRN_QUERY (R444). -/
  | grnQuery (p : Pkt)
  /-- GRN_COMPACT (R434). -/
  | grnCompact (p : Pkt)
  /-- GRN_SNAPSHOT (R442). -/
  | grnSnapshot (p : Pkt)
  /-- GRN_MODEL_RESTORE (R442). -/
  | grnModelRestore (p : Pkt)
  /-- GRN_FW_WRITE (R443). -/
  | grnFwWrite (p : Pkt)
  /-- EVR_READ (R442). -/
  | evrRead (p : Pkt)
  /-- EVR_CLEAR (R440). -/
  | evrClear (p : Pkt)
  /-- EVR_LOG (R442). -/
  | evrLog (p : Pkt)
  /-- SEC_GENERATE (R457). -/
  | secGenerate (p : Pkt)
  /-- SEC_IMPORT (R457). -/
  | secImport (p : Pkt)
  /-- SEC_EXPORT (R457). -/
  | secExport (p : Pkt)
  /-- SEC_DELETE (R457). -/
  | secDelete (p : Pkt)
  /-- SEC_DERIVE (R452). -/
  | secDerive (p : Pkt)
  /-- SEC_CIPHER (R458). -/
  | secCipher (p : Pkt)
  /-- SEC_SIGN (R455). -/
  | secSign (p : Pkt)
  /-- SEC_VERIFY (R452). -/
  | secVerify (p : Pkt)
  /-- SEC_ATTEST (R456). -/
  | secAttest (p : Pkt)
  /-- SEC_PUBKEY (R457). -/
  | secPubkey (p : Pkt)
  /-- SEC_RANDOM (R457). -/
  | secRandom (p : Pkt)
  /-- PAV_DRAW (R473). -/
  | pavDraw (p : Pkt)
  /-- PAV_FLIP (R467). -/
  | pavFlip (p : Pkt)
  /-- PAV_STRESS_READ (R473). -/
  | pavStressRead (p : Pkt)
  /-- PAV_STRESS_PRESET (R473). -/
  | pavStressPreset (p : Pkt)
  /-- RTC_SET (R490). -/
  | rtcSet (p : Pkt)
  /-- RTC_ALARM (R480). -/
  | rtcAlarm (p : Pkt)
  /-- RTC_UNLOCK (R483). -/
  | rtcUnlock (p : Pkt)
  /-- RTC_TRIM (R479). -/
  | rtcTrim (p : Pkt)
  /-- HLT_REFRESH (R487). -/
  | hltRefresh (p : Pkt)
  /-- HLT_BAT_TEST (R488). -/
  | hltBatTest (p : Pkt)
  /-- SQ_TAIL_DOORBELL (R45). -/
  | sqTailDoorbell (n : Fin 64) (w : Word)
  /-- CQ_HEAD_WRITE (R46). -/
  | cqHeadWrite (n : Fin 64) (w : Word)
  /-- UPDATE_STROBE (R86). -/
  | updateStrobe
  /-- UPDATE_STROBE_IMMEDIATE (R86). -/
  | updateStrobeImmediate
  /-- COMMIT_AT_STROBE (R90). -/
  | commitAtStrobe
  /-- COMMIT_NOW (R90). -/
  | commitNow
  /-- CAPTURE_NEXT_PASS (R90). -/
  | captureNextPass
  /-- WIN_BASE_WRITE (R40). -/
  | winBaseWrite (w : Word)
  /-- HOST_BASE_WRITE (R92). -/
  | hostBaseWrite (w : Word)
  /-- RC_CLEARING_READ (R83). -/
  | rcClearingRead (o : Nat)
  /-- LATCHING_READ (R323). -/
  | latchingRead (o : Nat)
  /-- POSTED_WRITE (R88). -/
  | postedWrite (o : Nat) (w : Word)
  /-- POSTED_WRITE_LANDS (R88). -/
  | postedWriteLands (b : Nat)
  /-- RTC_COMMIT_DATETIME (R477). -/
  | rtcCommitDatetime
  /-- RTC_COMMIT_ALARM (R480). -/
  | rtcCommitAlarm
  /-- RTC_COMMIT_CTL (R479). -/
  | rtcCommitCtl
  /-- RTC_UNLOCK_KEY (R483). -/
  | rtcUnlockKey
  /-- CAN_LOCK_BUFFER (R392). -/
  | canLockBuffer (n : Fin 8) (m : Fin 64)
  /-- CAN_RELEASE_BUFFER (R392). -/
  | canReleaseBuffer (n : Fin 8) (m : Fin 64)
  /-- CAN_FIFO_POP (R393). -/
  | canFifoPop (n : Fin 8) (k : Fin 2)
  /-- CAN_TXREQ_WRITE (R394). -/
  | canTxreqWrite (n : Fin 8) (k : Fin 2) (mask : Word)
  /-- CAN_TXABORT_WRITE (R394). -/
  | canTxabortWrite (n : Fin 8) (k : Fin 2) (mask : Word)
  /-- CAN_BOFF_RECOVER (R398). -/
  | canBoffRecover (n : Fin 8) (w : Word)
  /-- ADC_START_WRITE (R347). -/
  | adcStartWrite (mask : Byte)
  /-- TIM_ALARM_ARM (R329). -/
  | timAlarmArm (n : Fin 4) (w : Word)
  /-- GPIO_OUT_WRITE (R352). -/
  | gpioOutWrite (k : Fin 3) (w : Word)
  /-- REGISTER_WRITE (R82). -/
  | registerWrite (o : Nat) (w : Word)
  /-- IRREGULAR_REGISTER_ACCESS (R81). -/
  | irregularRegisterAccess (o : Nat) (narrow : Bool) (write : Bool)
  /-- BAR2_ACCESS (R40). -/
  | bar2Access (x : Nat) (write : Bool) (len : Nat) (data : List Byte)
  /-- SPI_WRITE (R77). -/
  | spiWrite (a : Nat) (data : List Byte)
  /-- SPI_READ (R76). -/
  | spiRead (a : Nat) (n : Nat)
  /-- SPI_STATUS (R76). -/
  | spiStatus
  /-- SPI_UNKNOWN_INSTRUCTION (R76). -/
  | spiUnknownInstruction
  /-- FUNCTION_LEVEL_RESET (R41). -/
  | functionLevelReset
  /-- RING_TRANSFER_FAILURE (R49). -/
  | ringTransferFailure (n : Fin 64) (completion : Bool)
  /-- MSIX_MODERATION_EXPIRY (R59). -/
  | msixModerationExpiry (n : Fin 64)
  /-- LAUNCH_TIMED_COMMAND_START (R60). -/
  | launchTimedCommandStart
  /-- POWER_ON_RESET (R497). -/
  | powerOnReset
  /-- MAIN_SUPPLY_LOSS (R497). -/
  | mainSupplyLoss
  /-- RESET_N_ASSERT (R96). -/
  | resetNAssert
  /-- RESET_N_RELEASE (R107). -/
  | resetNRelease (e : BootEnv)
  /-- LOCKSTEP_DIVERGENCE (R111). -/
  | lockstepDivergence (e : BootEnv)
  /-- WATCHDOG_EXPIRY (R111). -/
  | watchdogExpiry (e : BootEnv)
  /-- PFAIL_N_LATCH (R100). -/
  | pfailNLatch
  /-- PFAIL_N_RELEASE (R100). -/
  | pfailNRelease (e : BootEnv)
  /-- REFERENCE_LOSS (R17). -/
  | referenceLoss
  /-- REFERENCE_RELOCK (R17). -/
  | referenceRelock
  /-- FRAME_BOUNDARY (R19). -/
  | frameBoundary (levels : BitVec 96) (peerLow : Bool) (e : BootEnv)
  /-- RE_PLACEMENT (R206). -/
  | rePlacement
  /-- SHARE_RERUN (R204). -/
  | shareRerun (id : Nat) (unit : Nat)
  /-- RE_SOLVE_START (R271). -/
  | reSolveStart (cmd : Nat)
  /-- GUARD_PASS (R89). -/
  | guardPass (olds : List Nat)
  /-- PACE_WINDOW_END (R173). -/
  | paceWindowEnd (raw : List Nat)
  /-- AVS_RESPONSE (R181). -/
  | avsResponse (good : Bool)
  /-- GOVERNOR_REPEAT (R179). -/
  | governorRepeat
  /-- GOVERNOR_LOWER (R179). -/
  | governorLower
  /-- FABRIC_RUN_START (R196). -/
  | fabricRunStart (id : Nat)
  /-- DEADLINE_REACHED (R183). -/
  | deadlineReached (id : Nat)
  /-- SHEAF_STATUS_PHASE (R227). -/
  | sheafStatusPhase (id : Nat)
  /-- LSQ_STATUS_PHASE (R252). -/
  | lsqStatusPhase (id : Nat)
  /-- FABRIC_NOP (R147). -/
  | fabricNop (id : Nat)
  /-- LOOP_BEGIN (R148). -/
  | loopBegin (id : Nat)
  /-- LOOP_TEST (R185). -/
  | loopTest (id : Nat)
  /-- LOOP_END (R148). -/
  | loopEnd (id : Nat)
  /-- COPY (R222). -/
  | copy (id : Nat)
  /-- FILL (R147). -/
  | fill (id : Nat)
  /-- GATHER_MEAS (R246). -/
  | gatherMeas (id : Nat)
  /-- PUBLISH (R246). -/
  | publish (id : Nat)
  /-- AXPY (R222). -/
  | axpy (id : Nat)
  /-- DOT (R147). -/
  | dot (id : Nat)
  /-- GEMV (R147). -/
  | gemv (id : Nat)
  /-- GEMM (R147). -/
  | gemm (id : Nat)
  /-- SYRK (R147). -/
  | syrk (id : Nat)
  /-- BPOTRF (R221). -/
  | bpotrf (id : Nat)
  /-- BLDLT (R221). -/
  | bldlt (id : Nat)
  /-- BGETRF (R221). -/
  | bgetrf (id : Nat)
  /-- BGEQRF (R221). -/
  | bgeqrf (id : Nat)
  /-- BTRS (R221). -/
  | btrs (id : Nat)
  /-- BRESID (R221). -/
  | bresid (id : Nat)
  /-- BPERM (R221). -/
  | bperm (id : Nat)
  /-- BQR_APPLY (R221). -/
  | bqrApply (id : Nat)
  /-- POTRF (R248). -/
  | potrf (id : Nat)
  /-- TRS (R246). -/
  | trs (id : Nat)
  /-- JAC_EVAL (R246). -/
  | jacEval (id : Nat)
  /-- JTWJ (R246). -/
  | jtwj (id : Nat)
  /-- BLOCK_ELIM (R246). -/
  | blockElim (id : Nat)
  /-- BLOCK_BACK (R246). -/
  | blockBack (id : Nat)
  /-- LM_DAMP_DAMP (R246). -/
  | lmDampDamp (id : Nat)
  /-- LM_DAMP_DECIDE (R247). -/
  | lmDampDecide (id : Nat)
  /-- BOX_PROJECT (R246). -/
  | boxProject (id : Nat)
  /-- EXTRAPOLATE (R262). -/
  | extrapolate (id : Nat)
  /-- TOL_COMPARE (R262). -/
  | tolCompare (id : Nat)
  /-- KNOWN_ANSWER (R188). -/
  | knownAnswer (slot : Nat) (entry : Nat) (margins : List Nat) (pass : List Bool)
  /-- LOGIC_SCAN_START (R309). -/
  | logicScanStart (dur : Nat)
  /-- LOGIC_SCAN_RESUME (R311). -/
  | logicScanResume (dur : Nat)
  /-- LOGIC_SCAN_OVERRUN (R313). -/
  | logicScanOverrun
  /-- LOOP_SAMPLE (R288). -/
  | loopSample
  /-- LAUNCH_FIRE (R340). -/
  | launchFire
  /-- SETPOINT_REPEAT_SEND (R338). -/
  | setpointRepeatSend
  /-- PWM_PERIOD_START (R353). -/
  | pwmPeriodStart (n : Fin 16)
  /-- PULSE_OUTPUT_PULSE (R355). -/
  | pulseOutputPulse (n : Fin 8)
  /-- PULSE_INPUT_EDGE (R356). -/
  | pulseInputEdge (n : Fin 16) (rising : Bool)
  /-- HOLD_N_CHANGE (R352). -/
  | holdNChange (ext : Bool) (sense : Bool)
  /-- ADC_TRIGGER_TIMER (R347). -/
  | adcTriggerTimer (n : Fin 8)
  /-- ADC_SEQUENCE_REQUEST (R348). -/
  | adcSequenceRequest
  /-- ADC_CONVERSION_COMPLETE (R349). -/
  | adcConversionComplete (c : Fin 2) (vin : Int) (vref : Nat) (refOk : Bool)
  /-- MTR_SAMPLE (R362). -/
  | mtrSample (codes : List Int)
  /-- PSEUDO_CYCLE (R364). -/
  | pseudoCycle (n : Fin 3)
  /-- ZERO_CROSSING_LOSS (R375). -/
  | zeroCrossingLoss (n : Fin 3)
  /-- MTR_TEMP_READ (R367). -/
  | mtrTempRead (temp : Int)
  /-- HEAT_CIRCUIT_COMPUTE (R373). -/
  | heatCircuitCompute (c : Nat)
  /-- PERIODIC_SAVE (R379). -/
  | periodicSave
  /-- METERING_PULSE_DUE (R377). -/
  | meteringPulseDue (n : Nat)
  /-- CAN_FRAME_RECEIVED (R391). -/
  | canFrameReceived (n : Fin 8) (id : Nat) (format : Nat) (data : List Byte) (dur : Nat) (lec : Nat) (eights : Nat)
  /-- CAN_FRAME_TRANSMITTED (R394). -/
  | canFrameTransmitted (n : Fin 8) (dur : Nat) (lec : Nat) (exempt : Bool) (eights : Nat) (tdcv : Nat)
  /-- CAN_RECOVERY_COMPLETE (R398). -/
  | canRecoveryComplete (n : Fin 8)
  /-- CAN_TIMING_TAKEUP (R389). -/
  | canTimingTakeup (n : Fin 8)
  /-- SYNC (R328). -/
  | sync (h : PtpHdr) (twoStep : Bool) (secs : Nat) (ns : Nat)
  /-- FOLLOW_UP (R326). -/
  | followUp (h : PtpHdr) (secs : Nat) (ns : Nat)
  /-- ANNOUNCE (R326). -/
  | announce (h : PtpHdr) (prio1 : Nat) (cls : Nat) (accuracy : Nat) (variance : Nat) (prio2 : Nat) (gm : Nat) (steps : Nat)
  /-- ANNOUNCE_RECEIPT_TIMEOUT (R328). -/
  | announceReceiptTimeout (x : Fin 2)
  /-- DELAY_REQ (R326). -/
  | delayReq (h : PtpHdr)
  /-- DELAY_RESP (R326). -/
  | delayResp (h : PtpHdr) (secs : Nat) (ns : Nat)
  /-- PDELAY_REQ (R332). -/
  | pdelayReq (h : PtpHdr) (turn : Nat)
  /-- PDELAY_RESP (R326). -/
  | pdelayResp (h : PtpHdr) (twoStep : Bool)
  /-- PTP_MESSAGE_TRANSMIT (R332). -/
  | ptpMessageTransmit (port : Fin 4) (kind : Fin 4)
  /-- ARP_REQUEST (R334). -/
  | arpRequest (port : Fin 4) (addr : List Byte) (from_ : Nat)
  /-- TELEMETRY_DATAGRAM (R337). -/
  | telemetryDatagram (port : Fin 4) (dport : Nat) (src : List Byte) (dst : List Byte) (data : List Byte)
  /-- ETHERNET_FRAME_DROP (R334). -/
  | ethernetFrameDrop (port : Fin 4) (ptp : Bool)
  /-- TIME_ALARM (R329). -/
  | timeAlarm (n : Fin 4)
  /-- ENUM_IN_FALL (R405). -/
  | enumInFall (up : Nat)
  /-- TRELLIS_LINK_TRAINED (R405). -/
  | trellisLinkTrained (down : Bool)
  /-- TRELLIS_CRC_FAILURE (R403). -/
  | trellisCrcFailure (down : Bool) (again : Nat)
  /-- TIME_MARK (R408). -/
  | timeMark (dep : Nat) (step : Bool) (delay : Nat)
  /-- HEALTH_REPORT_SEND (R410). -/
  | healthReportSend
  /-- HEALTH_REPORT (R410). -/
  | healthReport (data : List Byte) (hostM : Nat) (guestM : Nat) (images : Nat)
  /-- HEALTH_REPORT_MISSED (R410). -/
  | healthReportMissed (a : Nat)
  /-- LEASE_LAPSE (R414). -/
  | leaseLapse
  /-- FORWARDED_LAUNCH (R341). -/
  | forwardedLaunch (recs : List (Nat × Nat × Nat × Nat))
  /-- MIRROR_FAST_PART (R416). -/
  | mirrorFastPart (adc : List (Nat × Nat × Nat × Bool)) (win levels gpio : Nat) (counts : List (Nat × Nat))
  /-- MIRROR_BULK_PART (R416). -/
  | mirrorBulkPart (b : BulkPart)
  /-- MIRROR_LATE (R416). -/
  | mirrorLate (fast : Bool)
  /-- SYNC_IMAGE (R418). -/
  | syncImage (x : Machine.SyncImage)
  /-- WINDOW_TRAFFIC (R35). -/
  | windowTraffic (o : Nat) (write : Bool) (len : Nat) (msg : WindowMsg)
  /-- TAKEOVER (R420). -/
  | takeover
  /-- REVERT_REQUEST (R423). -/
  | revertRequest
  /-- HANDOVER_RELEASE (R424). -/
  | handoverRelease
  /-- HANDOVER (R424). -/
  | handover (peerLow : Bool)
  /-- JOURNAL_APPEND_COMMIT (R431). -/
  | journalAppendCommit
  /-- APPEND_WAIT_TIMEOUT (R432). -/
  | appendWaitTimeout
  /-- CHECKPOINT_DUE (R434). -/
  | checkpointDue
  /-- CHECKPOINT_COMPLETE (R435). -/
  | checkpointComplete
  /-- EVENT_RECORD (R439). -/
  | eventRecord
  /-- REMASK_PASS (R450). -/
  | remaskPass
  /-- ENTROPY_TEST_FAILURE (R453). -/
  | entropyTestFailure
  /-- DRBG_RESEED (R453). -/
  | drbgReseed
  /-- PANEL_FRAME_START (R465). -/
  | panelFrameStart
  /-- PANEL_LINE (R468). -/
  | panelLine
  /-- STRESS_JOURNAL (R471). -/
  | stressJournal
  /-- RTC_SECOND (R475). -/
  | rtcSecond
  /-- TRIM_CORRECTION (R479). -/
  | trimCorrection
  /-- OSC_STOP_DETECT (R485). -/
  | oscStopDetect
  /-- INTERFACE_LOCK (R482). -/
  | interfaceLock (vaon : Bool)
  /-- SWITCH_TO_VBAT (R481). -/
  | switchToVbat
  /-- SWITCH_BACK_TO_VAON (R481). -/
  | switchBackToVaon
  /-- ALWAYS_ON_RESET (R484). -/
  | alwaysOnReset
  /-- UNLOCK_READY (R483). -/
  | unlockReady
  /-- HEALTH_RECORD (R487). -/
  | healthRecord
  /-- BAT_LOAD_TEST_END (R488). -/
  | batLoadTestEnd (vo : Nat) (vl : Nat)
  /-- SPI_WRITE_LANDS (R77). -/
  | spiWriteLands
  /-- CAN_BUS_INTEGRATION (R389). -/
  | canBusIntegration (n : Fin 8)
  /-- ETHERNET_LINK_CHANGE (R333). -/
  | ethernetLinkChange (port : Fin 4) (speed : Nat)
  /-- NAND_BLOCK_RETIREMENT (R428). -/
  | nandBlockRetirement (b : Nat)
  /-- RECORDER_STATE_APPEND (R430). -/
  | recorderStateAppend
  deriving DecidableEq, Repr

end Sys2Proof
end

