-- ==== Sys2Proof/Machine/Lms.lean ====
section
/-!
DEFINITION. LMS keys and signatures and HSS verification (spec/04_modes_boot_recovery.md R110, spec/20_silo_security.md R452–R455),
which the spec names by NIST SP 800-208 without giving: PRESUMED RFC 8554 with SHA-256 (log 135).
-/

namespace Sys2Proof.Machine

/-- What an LM-OTS type of SP 800-208 sets: Winternitz width w, chains p, shift of the checksum. -/
structure OtsType where
  w : Nat
  p : Nat
  ls : Nat

/-- LMOTS_SHA256_N32_W1, W2, W4, W8 by type code. -/
def otsType : Nat → Option OtsType
  | 1 => some ⟨1, 265, 7⟩
  | 2 => some ⟨2, 133, 6⟩
  | 3 => some ⟨4, 67, 4⟩
  | 4 => some ⟨8, 34, 0⟩
  | _ => none

/-- The height of LMS_SHA256_M32_H5, H10, H15, H20, H25 by type code. -/
def lmsHeight (type : Nat) : Option Nat := if 5 ≤ type ∧ type ≤ 9 then some (5 * (type - 4)) else none

/-- The digits of w bits of a byte string, most significant first. -/
def otsDigits (w : Nat) (bs : List Byte) : List Nat :=
  bs.flatMap (fun b => (List.range (8 / w)).map (fun i => b.toNat >>> (8 - w * (i + 1)) % 2 ^ w))

/-- The p digits that sign a 32-byte hash: its own and those of its checksum. -/
def otsCoefs (t : OtsType) (q : List Byte) : List Nat :=
  let ds := otsDigits t.w q
  let sum := ds.foldl (fun s x => s + (2 ^ t.w - 1 - x)) 0
  (ds ++ otsDigits t.w (beBytes 2 (sum <<< t.ls))).take t.p

/-- The rest of a hash chain: n steps from step j of chain i. -/
def otsChain (pre : List Byte) (i : Nat) : Nat → Nat → List Byte → List Byte
  | 0, _, y => y
  | n + 1, j, y => otsChain pre i n (j + 1) (sha256 (pre ++ beBytes 2 i ++ beBytes 1 j ++ y))

/-- The candidate for a one-time public key that a signature of a message gives. -/
def otsCandidate (t : OtsType) (ident : List Byte) (q : Nat) (msg sig : List Byte) : List Byte :=
  let pre := ident ++ beBytes 4 q
  let h := sha256 (pre ++ [0x81, 0x81] ++ sliceB sig 4 32 ++ msg)
  let zs := (otsCoefs t h).zipIdx.map (fun x => otsChain pre x.2 (2 ^ t.w - 1 - x.1) x.1 (sliceB sig (36 + 32 * x.2) 32))
  sha256 (pre ++ [0x80, 0x80] ++ zs.flatten)

/-- A one-time private key of a seed (RFC 8554 appendix A): the start of chain i (log 135). -/
def otsSecret (ident seed : List Byte) (q i : Nat) : List Byte :=
  sha256 (ident ++ beBytes 4 q ++ beBytes 2 i ++ [0xFF] ++ seed)

/-- The one-time public key of index q. -/
def otsPublic (t : OtsType) (ident seed : List Byte) (q : Nat) : List Byte :=
  let pre := ident ++ beBytes 4 q
  sha256 (pre ++ [0x80, 0x80] ++
    (List.range t.p).flatMap (fun i => otsChain pre i (2 ^ t.w - 1) 0 (otsSecret ident seed q i)))

/-- The one-time signature of a message under a randomizer, after its type. -/
def otsSign (t : OtsType) (ident seed : List Byte) (q : Nat) (c msg : List Byte) : List Byte :=
  let pre := ident ++ beBytes 4 q
  let h := sha256 (pre ++ [0x81, 0x81] ++ c ++ msg)
  c ++ (otsCoefs t h).zipIdx.flatMap (fun x => otsChain pre x.2 x.1 0 (otsSecret ident seed q x.2))

/-- Node r of the tree of height h, k levels above its leaves. -/
def lmsNode (t : OtsType) (ident seed : List Byte) (h : Nat) : Nat → Nat → List Byte
  | 0, r => sha256 (ident ++ beBytes 4 r ++ [0x82, 0x82] ++ otsPublic t ident seed (r - 2 ^ h))
  | k + 1, r =>
    sha256 (ident ++ beBytes 4 r ++ [0x83, 0x83] ++ lmsNode t ident seed h k (2 * r) ++ lmsNode t ident seed h k (2 * r + 1))

/-- LMOTS_SHA256_N32_W8, the one-time type of every key the Silo signs with (R452, R454). -/
def otsW8 : OtsType := ⟨8, 34, 0⟩

/-- The 56-byte public key of an LMS private key of height h with LMOTS_SHA256_N32_W8 (R454) (log 135). -/
def lmsPublic (ident seed : List Byte) (h : Nat) : List Byte :=
  beBytes 4 (4 + h / 5) ++ beBytes 4 4 ++ ident ++ lmsNode otsW8 ident seed h h 1

/-- The node beside node r. -/
def sibling (r : Nat) : Nat := if r % 2 = 0 then r + 1 else r - 1

/-- The LMS signature of a message with index q: index, LMOTS signature, type, authentication path (R454, R455) (log 135). -/
def lmsSign (ident seed : List Byte) (h q : Nat) (c msg : List Byte) : List Byte :=
  beBytes 4 q ++ beBytes 4 4 ++ otsSign otsW8 ident seed q c msg ++ beBytes 4 (4 + h / 5) ++
  (List.range h).flatMap (fun i => lmsNode otsW8 ident seed h i (sibling ((2 ^ h + q) / 2 ^ i)))

/-- The root above a node along an authentication path. -/
def lmsRoot (ident : List Byte) : Nat → List (List Byte) → List Byte → List Byte
  | _, [], h => h
  | node, p :: path, h =>
    lmsRoot ident (node / 2) path
      (sha256 (ident ++ beBytes 4 (node / 2) ++ [0x83, 0x83] ++ (if node % 2 = 1 then p ++ h else h ++ p)))

/-- The length of an LMS signature of given type codes. -/
def lmsSigLen (ots : OtsType) (height : Nat) : Nat := 4 + 4 + 32 + 32 * ots.p + 4 + 32 * height

/-- Whether an LMS signature of a message verifies under a 56-byte public key (log 135). -/
def lmsVerify (pub msg sig : List Byte) : Bool :=
  match lmsHeight (beNat (sliceB pub 0 4)), otsType (beNat (sliceB pub 4 4)) with
  | some h, some t =>
    let ident := sliceB pub 8 16
    let q := beNat (sliceB sig 0 4)
    let o := 40 + 32 * t.p
    if sig.length ≠ lmsSigLen t h ∨ sliceB sig 4 4 ≠ sliceB pub 4 4 ∨ sliceB sig o 4 ≠ sliceB pub 0 4 ∨ 2 ^ h ≤ q then false
    else
      let kc := otsCandidate t ident q msg (sig.drop 4)
      let leaf := sha256 (ident ++ beBytes 4 (2 ^ h + q) ++ [0x82, 0x82] ++ kc)
      lmsRoot ident (2 ^ h + q) ((List.range h).map (fun i => sliceB sig (o + 4 + 32 * i) 32)) leaf == sliceB pub 24 32
  | _, _ => false

/-- The length of the LMS signature that starts a byte string, under a public key. -/
def lmsLenUnder (pub : List Byte) : Option Nat :=
  match lmsHeight (beNat (sliceB pub 0 4)), otsType (beNat (sliceB pub 4 4)) with
  | some h, some t => some (lmsSigLen t h)
  | _, _ => none

/-- The chain of n signed public keys and the last signature. -/
def hssChain : Nat → List Byte → List Byte → List Byte → Bool
  | 0, pub, msg, sig => lmsVerify pub msg sig
  | n + 1, pub, msg, sig =>
    match lmsLenUnder pub with
    | none => false
    | some l =>
      let next := sliceB sig l 56
      decide (l + 56 ≤ sig.length) && lmsVerify pub next (sig.take l) && hssChain n next msg (sig.drop (l + 56))

/-- HSS verification of a 60-byte public key, a message and a signature (R110, R452): L is 1 to 3, and the signature's L equals
the key's (log 135). -/
def hssVerify (pub msg sig : List Byte) : Bool :=
  let l := beNat (sliceB pub 0 4)
  decide (1 ≤ l ∧ l ≤ 3 ∧ pub.length = 60 ∧ beNat (sliceB sig 0 4) + 1 = l ∧ 4 ≤ sig.length) &&
  hssChain (l - 1) (pub.drop 4) msg (sig.drop 4)

end Sys2Proof.Machine
end

