-- ==== Sys2Proof/Config.lean ====
section
/-!
DEFINITION. What one device fixes at manufacture and what spec/ leaves open: opaque constants without a body, so that
no proof can lean on a value (notes/assumptions/2.md, 3.md). A statement about the model holds for every value of them.
-/

namespace Sys2Proof.Config

/-! ### Fused at manufacture -/

/-- The device serial number, 16 bytes (R68) (log 110). -/
opaque serial : BitVec 128
/-- The base MAC address (R510) (log 110). -/
opaque baseMac : BitVec 48
/-- Boot ROM version (R68) (log 110). -/
opaque romVersion : BitVec 32
/-- The public-key hash of R109, 32 bytes (log 110). -/
opaque keyHash : BitVec 256
/-- THR_BAND_TH_b.K (R173) (log 90). -/
opaque bandTh : Nat → BitVec 16
/-- THR_PV_k.SPEED (R177) (log 90). -/
opaque pvSpeed : Nat → BitVec 16
/-- THR_PM_n.BASE: the normalised count at manufacture (R173) (log 90). -/
opaque pmBase : Nat → BitVec 16
/-- The fused scale factor of monitor n, as a multiple of 2⁻¹⁶ (R173) (log 79, 90). -/
opaque pmFactor : Nat → BitVec 32
/-- The fused band 15 margin (R176) (log 90). -/
opaque bandMargin : BitVec 16
/-- The fused minimum known-answer margin (R188) (log 90). -/
opaque kaMinMargin : BitVec 8

/-! ### Values the spec leaves open -/

/-- What a reserved (RK) field holds after a value other than the one read was written to it (R84): by offset,
value before and value written (log 32). -/
opaque rkAfter : Nat → BitVec 32 → BitVec 32 → BitVec 32
/-- The CODE of an event whose owning chapter names none (R437), by 256 × its source + the model's own number of it
(log 46, 124). -/
opaque eventCode : Nat → BitVec 8
/-- The DATA bytes of an event whose layout no chapter gives, from the items its chapter names (R437) (log 46). -/
opaque eventData : Nat → List Nat → BitVec 256
/-- The Nolgrax diagnostic code of an INTERNAL_ERROR whose cause has no code of its own (R65) (log 46, 124). -/
opaque diagCode : Nat → BitVec 32

/-- A sum of products whose order R168 fixes without stating it (R168): kernel, WIDTH, binary32, the first summand and
the pairs. It counts only where the order could show (log 10). -/
opaque reduce : Nat → Nat → Bool → Nat → List (Nat × Nat) → BitVec 64
/-- Results flushed to zero inside such a sum (log 10). -/
opaque reduceFlush : Nat → Nat → Bool → Nat → List (Nat × Nat) → Nat
/-- The cluster of a window of W that computes element e of a kernel that spreads elements over its clusters (R170) (log 62). -/
opaque elemCluster : Nat → Nat → Nat
/-- The row, modulo the order n, that BPERM exchanges for a pivot v that names no row of its member (log 56). -/
opaque permRow : Nat → Nat → BitVec 32
/-- Memory beats of the tile traffic of a record other than COPY, FILL and PUBLISH that has operands outside the cluster stores:
kernel, WIDTH, STEPS and the bytes of those operands (R31, R167 give no count) (log 51). -/
opaque streamBeats : Nat → Nat → Nat → Nat → Nat
/-- Management-core microseconds of a placement, by the image's tiles and entries (R200) (log 50). -/
opaque placeUs : Nat → Nat → BitVec 13
/-- Memory beats and management-core microseconds of class 7 for the service of a CAN frame, by its bytes (R30 gives no count)
(log 50, 51). -/
opaque canBeats : Nat → BitVec 8
opaque canUs : Nat → BitVec 8
/-- What FILL writes, by precision (R147 names the kernel and no value) (log 58). -/
opaque fillValue : Nat → BitVec 64
/-- Natural logarithm, exponential and decimal logarithm of a binary64 value (R238, R239 give no rounding) (log 61). -/
opaque ln64 : BitVec 64 → BitVec 64
opaque exp64 : BitVec 64 → BitVec 64
opaque log1064 : BitVec 64 → BitVec 64

/-- Whether a quotient whose rounding the spec does not state is taken up: numerator and denominator (log 52). -/
opaque roundUp : Int → Nat → Bool
/-- The clockIdentity of clause 7.5.2.2.2 of IEEE 1588-2019 for a MAC address (R326) (log 116). -/
opaque clockIdentity : BitVec 48 → BitVec 64

/-- Memory beats of class 1 that a sample of a loop takes, which no chapter states (R281) (log 51). -/
opaque loopBeats : Nat → BitVec 16

/-- The code of a conversion whose reference is out of range, by channel and conversion (R511) (log 117). -/
opaque openCode : Nat → Nat → BitVec 16

/-- A result word that the spec does not state, by the model's own number of the case (log 89, 124). -/
opaque openResult : Nat → BitVec 32
/-- A sum of products over the samples of a metering cycle, where its order could show (R365 names no order) (log 112). -/
opaque sum64 : List (Nat × Nat) → BitVec 64
/-- Linear interpolation in binary64 at a fraction num / den between two values, whose roundings R363, R365 and R373 do
not state (log 112). -/
opaque lerp64 : Nat → Nat → Int → Nat → BitVec 64
/-- The DFT at the tracked line frequency (R365): values with their times since the cycle start, and T_c; the real part
low, the imaginary part high (log 112). -/
opaque dft64 : List (Nat × Nat) → Nat → BitVec 128
/-- What an increment that is not finite leaves in an accumulator (R370) (log 112). -/
opaque openFloor : Nat → Nat → BitVec 64
/-- The coefficient of a heat table that was never loaded, by table and temperatures (R373) (log 112). -/
opaque noTable : Nat → Nat → Nat → BitVec 64
/-- Management-core microseconds of metering work, by kind: 0 a heat circuit, 1 a save (R373, R379) (log 50, 124). -/
opaque meterUs : Nat → BitVec 16

/-- REC after a reception with REC above 127: ISO 11898-1 lets the device choose from 119 to 127; by controller and
count (R398) (log 115). -/
opaque canRec : Nat → Nat → BitVec 4

/-- Management-core microseconds of a Silo operation, by opcode, and of a journal append, by type (R431, R452) (log 50). -/
opaque siloUs : Nat → BitVec 16
opaque appendUs : Nat → BitVec 16

/-- Management-core microseconds of an event record (R439) (log 50, 124). -/
opaque recordUs : BitVec 8
/-- Whether the read-back of a firmware slot agrees, by the number of writes before (R443) (log 104). -/
opaque readBack : Nat → Bool
/-- How many fuses of the rollback floor a firmware update blows, by the floor and the image's SEC_VERSION; it counts modulo the
number of values allowed (R110) (log 136). -/
opaque floorRise : Nat → Nat → BitVec 6
/-- Management-core microseconds of a READ_STATE, by state address (R115) (log 50). -/
opaque readUs : Nat → BitVec 16
/-- The 32 bytes of the mode record and of the boot record, whose layouts R116 does not give: which record, its items (log 48). -/
opaque sysRecord : Nat → List Nat → BitVec 256
/-- NAND blocks that a checkpoint takes, by its generation (R434) (log 101). -/
opaque ckptBlocks : Nat → BitVec 8

/-- Beats of class 12 for Trellis traffic, by kind: 0 health report, 1 fast part, 2 bulk part, 3 sync image (R403) (log 51). -/
opaque trellisBeats : Nat → BitVec 16

/-! ### Cryptography the spec names by standard (R110, R449–R455) -/

/-- The n-th output of the DRBG, as a number whose low bytes are drawn first (R449) (log 109). -/
opaque drbgOut : Nat → Nat
/-- The n-th mask of the always-on noise source in BACKUP (R450) (log 109). -/
opaque noiseMask : Nat → BitVec 512
/-- What SP 800-108 counter mode feeds to the PRF for its i-th block: the encodings of counter, label and length are an
implementation's choice: i, label, bytes wanted (log 109). -/
opaque kdfInput : Nat → List Byte → Nat → List Byte
/-- The randomizer of an LMS signature: seed and identifier, index, message (log 109). -/
opaque lmsRandom : BitVec 512 → Nat → List Byte → BitVec 256
/-- The attribute word of an ISV-7100 type and usage with the attributes asked for (R450, R457) (log 109). -/
opaque isvAttr : Nat → Nat → Nat → BitVec 32

/-! ### Health and clock (R476, R486) -/

/-- w_lim of monitor 2, fused (R486) (log 90). -/
opaque slackLimit : BitVec 32
/-- The fused full margin of monitor 5 (log 90). -/
opaque kaFullMargin : BitVec 8
/-- w of monitor 2 at the n-th health record (R486) (log 90). -/
opaque slack : Nat → BitVec 32
/-- FRAC at a number of ticks after the last second increment (R476) (log 86). -/
opaque rtcFrac : Nat → BitVec 15

end Sys2Proof.Config
end

