-- ==== Sys2Proof/Machine/Float.lean ====
section
/-!
DEFINITION. IEEE 754 binary64 and binary32 arithmetic on bit patterns, rounding to nearest, ties to even
(spec/07_thresher_fabric.md R169, R170; spec/05_network_model.md R125). Every operation is computed exactly on
integers and rounded once. Flushing of subnormals is the fabric's own rule and stands in Fabric.lean.
-/

namespace Sys2Proof.Machine

/-- A binary format: bits of the exponent field and of the fraction field. -/
structure FFmt where
  eb : Nat
  mb : Nat
  deriving DecidableEq, Repr

/-- binary64. -/
def f64 : FFmt := ⟨11, 52⟩
/-- binary32. -/
def f32 : FFmt := ⟨8, 23⟩

/-- The bias of a format. -/
def FFmt.bias (f : FFmt) : Nat := 2 ^ (f.eb - 1) - 1
/-- Bits of a format. -/
def FFmt.width (f : FFmt) : Nat := 1 + f.eb + f.mb
/-- The pattern of +∞. -/
def FFmt.infBits (f : FFmt) : Nat := (2 ^ f.eb - 1) <<< f.mb
/-- The sign bit alone. -/
def FFmt.signBit (f : FFmt) : Nat := 1 <<< (f.eb + f.mb)
/-- The canonical quiet NaN: sign clear, the top fraction bit alone set (R169). -/
def FFmt.nan (f : FFmt) : Nat := f.infBits + 1 <<< (f.mb - 1)

/-- What a pattern stands for: a NaN, an infinity, or ± m × 2ᵉ. -/
inductive FVal
  | nan
  | inf (neg : Bool)
  | fin (neg : Bool) (m : Nat) (e : Int)
  deriving DecidableEq, Repr

/-- The value of a pattern. -/
def fval (f : FFmt) (x : Nat) : FVal :=
  let neg := bitAt x (f.eb + f.mb)
  let ex := bits x (f.eb + f.mb - 1) f.mb
  let fr := bits x (f.mb - 1) 0
  if ex = 2 ^ f.eb - 1 then (if fr = 0 then .inf neg else .nan)
  else if ex = 0 then .fin neg fr (1 - (f.bias : Int) - f.mb)
  else .fin neg (fr + 2 ^ f.mb) ((ex : Int) - f.bias - f.mb)

/-- The signed zero, or the sign laid over a magnitude pattern. -/
def fsign (f : FFmt) (neg : Bool) (mag : Nat) : Nat := if neg then mag + f.signBit else mag

/-- ± m × 2ᵉ rounded to nearest, ties to even, and overflowing to infinity. A quotient or a root passes its rest as
a sticky low bit of `m`, with at least two bits more than the format keeps. -/
def fround (f : FFmt) (neg : Bool) (m : Nat) (e : Int) : Nat :=
  if m = 0 then fsign f neg 0 else
  let n := Nat.log2 m + 1
  let top : Int := e + n - 1
  let emin : Int := 1 - (f.bias : Int)
  let q : Int := max (top - f.mb) (emin - f.mb)
  let sh : Int := q - e
  let r : Nat :=
    if sh ≤ 0 then m <<< (-sh).toNat
    else
      let s := sh.toNat
      let a := m >>> s
      let low := m - a <<< s
      let half := 1 <<< (s - 1)
      if low < half then a else if half < low then a + 1 else if a % 2 = 0 then a else a + 1
  let biased : Nat := (q + f.mb + f.bias).toNat
  let mag := biased <<< f.mb + r - 2 ^ f.mb
  if f.infBits ≤ mag then fsign f neg f.infBits else fsign f neg mag

/-- Whether the pattern is a NaN. -/
def fIsNan (f : FFmt) (x : Nat) : Bool := fval f x == .nan

/-- Whether the pattern is finite. -/
def fIsFin (f : FFmt) (x : Nat) : Bool :=
  match fval f x with | .fin _ _ _ => true | _ => false

/-- Whether the pattern is a zero of either sign. -/
def fIsZero (f : FFmt) (x : Nat) : Bool := bits x (f.eb + f.mb - 1) 0 == 0

/-- The exact sum ± m × 2ᵉ of two finite values. -/
def fsumExact (s1 : Bool) (m1 : Nat) (e1 : Int) (s2 : Bool) (m2 : Nat) (e2 : Int) : Bool × Nat × Int :=
  let e := min e1 e2
  let a : Int := (if s1 then -1 else 1) * ((m1 <<< (e1 - e).toNat : Nat) : Int)
  let b : Int := (if s2 then -1 else 1) * ((m2 <<< (e2 - e).toNat : Nat) : Int)
  let c := a + b
  (if c = 0 then s1 && s2 else decide (c < 0), c.natAbs, e)

/-- Addition. -/
def fadd (f : FFmt) (x y : Nat) : Nat :=
  match fval f x, fval f y with
  | .nan, _ => f.nan
  | _, .nan => f.nan
  | .inf a, .inf b => if a = b then fsign f a f.infBits else f.nan
  | .inf a, _ => fsign f a f.infBits
  | _, .inf b => fsign f b f.infBits
  | .fin s1 m1 e1, .fin s2 m2 e2 =>
    let r := fsumExact s1 m1 e1 s2 m2 e2
    fround f r.1 r.2.1 r.2.2

/-- Negation of the sign bit. -/
def fneg (f : FFmt) (x : Nat) : Nat := if bitAt x (f.eb + f.mb) then x - f.signBit else x + f.signBit

/-- Magnitude. -/
def fabs (f : FFmt) (x : Nat) : Nat := bits x (f.eb + f.mb - 1) 0

/-- Subtraction. -/
def fsub (f : FFmt) (x y : Nat) : Nat := if fIsNan f y then f.nan else fadd f x (fneg f y)

/-- Multiplication. -/
def fmul (f : FFmt) (x y : Nat) : Nat :=
  match fval f x, fval f y with
  | .nan, _ => f.nan
  | _, .nan => f.nan
  | .inf a, .inf b => fsign f (a != b) f.infBits
  | .inf a, .fin b m _ => if m = 0 then f.nan else fsign f (a != b) f.infBits
  | .fin a m _, .inf b => if m = 0 then f.nan else fsign f (a != b) f.infBits
  | .fin a m1 e1, .fin b m2 e2 => fround f (a != b) (m1 * m2) (e1 + e2)

/-- Fused multiply-add x × y + z with one rounding. -/
def ffma (f : FFmt) (x y z : Nat) : Nat :=
  match fval f x, fval f y, fval f z with
  | .fin a m1 e1, .fin b m2 e2, .fin c m3 e3 =>
    let r := fsumExact (a != b) (m1 * m2) (e1 + e2) c m3 e3
    fround f r.1 r.2.1 r.2.2
  | .fin _ _ _, .fin _ _ _, .inf c => fsign f c f.infBits
  | _, _, _ => fadd f (fmul f x y) z

/-- Division. -/
def fdiv (f : FFmt) (x y : Nat) : Nat :=
  match fval f x, fval f y with
  | .nan, _ => f.nan
  | _, .nan => f.nan
  | .inf _, .inf _ => f.nan
  | .inf a, .fin b _ _ => fsign f (a != b) f.infBits
  | .fin a _ _, .inf b => fsign f (a != b) 0
  | .fin a m1 e1, .fin b m2 e2 =>
    if m2 = 0 then (if m1 = 0 then f.nan else fsign f (a != b) f.infBits)
    else
      let s := 2 * f.mb + 6
      let n := m1 <<< s
      let q := n / m2
      let r := n - q * m2
      fround f (a != b) (2 * q + b2n (decide (r ≠ 0))) (e1 - e2 - s - 1)

/-- Square root. -/
def fsqrt (f : FFmt) (x : Nat) : Nat :=
  match fval f x with
  | .nan => f.nan
  | .inf a => if a then f.nan else f.infBits
  | .fin a m e =>
    if m = 0 then x
    else if a then f.nan
    else
      let s := 2 * f.mb + 8 + (if (e - (2 * f.mb + 8 : Nat)) % 2 = 0 then 0 else 1)
      let n := m <<< s
      let q := Nat.sqrt n
      fround f false (2 * q + b2n (decide (q * q ≠ n))) ((e - s) / 2 - 1)

/-- Exact comparison of two finite values or infinities; false on a NaN. -/
def flt (f : FFmt) (x y : Nat) : Bool :=
  match fval f x, fval f y with
  | .nan, _ => false
  | _, .nan => false
  | .inf a, .inf b => a && !b
  | .inf a, _ => a
  | _, .inf b => !b
  | .fin s1 m1 e1, .fin s2 m2 e2 =>
    let r := fsumExact s1 m1 e1 (!s2) m2 e2
    r.1 && decide (r.2.1 ≠ 0)

/-- x ≤ y, false on a NaN. -/
def fle (f : FFmt) (x y : Nat) : Bool := !fIsNan f x && !fIsNan f y && !flt f y x

/-- x = y as numbers (the zeros are equal), false on a NaN. -/
def feq (f : FFmt) (x y : Nat) : Bool := fle f x y && fle f y x

/-- The larger of two, the first when equal. -/
def fmax2 (f : FFmt) (x y : Nat) : Nat := if flt f x y then y else x

/-- An integer rounded to the format. -/
def fOfInt (f : FFmt) (i : Int) : Nat := fround f (decide (i < 0)) i.natAbs 0

/-- ± n / d rounded to the format. -/
def fOfRat (f : FFmt) (i : Int) (d : Nat) : Nat :=
  let s := 2 * f.mb + 6 + Nat.log2 (d + 1)
  let n := i.natAbs <<< s
  let q := n / d
  fround f (decide (i < 0)) (2 * q + b2n (decide (n - q * d ≠ 0))) (-(s : Int) - 1)

/-- Conversion between formats. -/
def fconv (src dst : FFmt) (x : Nat) : Nat :=
  match fval src x with
  | .nan => dst.nan
  | .inf a => fsign dst a dst.infBits
  | .fin a m e => fround dst a m e

/-- A finite value to the nearest integer, ties to even; none for NaN and infinity. -/
def fToIntRNE (f : FFmt) (x : Nat) : Option Int :=
  match fval f x with
  | .fin a m e =>
    let s : Int := if a then -1 else 1
    if 0 ≤ e then some (s * ((m <<< e.toNat : Nat) : Int))
    else some (s * divRNE (m : Int) (2 ^ (-e).toNat))
  | _ => none

/-- A finite value as a rational: numerator and power-of-two denominator. -/
def fToRat (f : FFmt) (x : Nat) : Option (Int × Nat) :=
  match fval f x with
  | .fin a m e =>
    let s : Int := if a then -1 else 1
    if 0 ≤ e then some (s * ((m <<< e.toNat : Nat) : Int), 1) else some (s * (m : Int), 2 ^ (-e).toNat)
  | _ => none

end Sys2Proof.Machine
end

