-- ==== Sys2Proof/Machine/RegMap.lean ====
section
/-!
DEFINITION. The register map of Base Address Register 0 as the register tables of spec/ give it
(spec/03_registers.md R80–R92 and the register sections of chapters 02, 04, 06–08, 12–22): one row per register or
register family, with its fields, their access codes (R9, R82) and their reset values.
Bits that no field of a listed register names, and offsets a block calls reserved, are RK.
-/

namespace Sys2Proof.Machine

/-- The access codes of R9 and R82. -/
inductive Acc
  | rw | ro | wo | rc | rws | rwp | rk
  deriving DecidableEq, Repr

/-- One field of a register: bits [hi:lo], its access code and its reset value. -/
structure Fld where
  hi : Nat
  lo : Nat
  acc : Acc
  reset : Nat
  deriving DecidableEq, Repr

/-- A register, or a family of them at `base + s1 × i + s2 × j` with i < n1 and j < n2 (offsets of Base Address
Register 0, peek alias excluded). `guarded` marks registers the owning chapter marks as guarded (R89). -/
structure RegDef where
  base : Nat
  n1 : Nat
  s1 : Nat
  n2 : Nat
  s2 : Nat
  guarded : Bool
  fields : List Fld
  deriving DecidableEq, Repr

/-! ### Offsets by register name -/

def Reg.sysId : Nat := 0x000000
def Reg.sysMode : Nat := 0x000004
def Reg.sysBootStat : Nat := 0x000008
def Reg.sysResetCause : Nat := 0x00000C
def Reg.sysEvent : Nat := 0x000010
def Reg.sysEventMask : Nat := 0x000014
def Reg.sysRefStat : Nat := 0x000020
def Reg.sysFrameLen : Nat := 0x000030
def Reg.sysFrameNoLo : Nat := 0x000034
def Reg.sysFrameNoHi : Nat := 0x000038
def Reg.sysFrameSlip : Nat := 0x00003C
def Reg.sysFrameLate : Nat := 0x000040
def Reg.sysHostBaseLo : Nat := 0x000050
def Reg.sysHostBaseHi : Nat := 0x000054
def Reg.sysWinBaseLo : Nat := 0x000058
def Reg.sysWinBaseHi : Nat := 0x00005C
def Reg.sysBadAccess : Nat := 0x000060
def Reg.cfgCtl : Nat := 0x010000
def Reg.cfgUpdateMask : Nat := 0x010004
def Reg.cfgUpdate : Nat := 0x010008
def Reg.cfgPend : Nat := 0x01000C
def Reg.cfgCrcRef : Nat := 0x010010
def Reg.cfgCommit : Nat := 0x010014
def Reg.cfgCrcLive : Nat := 0x010018
def Reg.cfgCrcActive : Nat := 0x01001C
def Reg.cfgStat : Nat := 0x010020
def Reg.cfgMismatchCnt : Nat := 0x010024
def Reg.cfgPassCnt : Nat := 0x010028
def Reg.ringSqTail (n : Nat) : Nat := 0x020000 + 0x40 * n
def Reg.ringCqHead (n : Nat) : Nat := 0x020004 + 0x40 * n
def Reg.ringSqHead (n : Nat) : Nat := 0x020008 + 0x40 * n
def Reg.ringCqTail (n : Nat) : Nat := 0x02000C + 0x40 * n
def Reg.ringState (n : Nat) : Nat := 0x020010 + 0x40 * n
def Reg.ringStat (n : Nat) : Nat := 0x020014 + 0x40 * n
def Reg.budFpId : Nat := 0x040000
def Reg.budStat : Nat := 0x040004
def Reg.budCapSteps : Nat := 0x040008
def Reg.budCutFrames : Nat := 0x04000C
def Reg.budStepsUsed (n : Nat) : Nat := 0x040100 + 0x20 * n
def Reg.budBeatsUsed (n : Nat) : Nat := 0x040104 + 0x20 * n
def Reg.budMgmtUsed (n : Nat) : Nat := 0x040108 + 0x20 * n
def Reg.budPauses (n : Nat) : Nat := 0x04010C + 0x20 * n
def Reg.budClsStat (n : Nat) : Nat := 0x040110 + 0x20 * n
def Reg.plcCtl : Nat := 0x050000
def Reg.plcHostLoft : Nat := 0x050008
def Reg.plcHostDram : Nat := 0x05000C
def Reg.plcGuestDram : Nat := 0x050010
def Reg.plcGroup : Nat := 0x050014
def Reg.plcStat : Nat := 0x050020
def Reg.plcLoftFree : Nat := 0x050024
def Reg.plcDramFree : Nat := 0x050028
def Reg.plcDigestLo : Nat := 0x05002C
def Reg.plcDigestHi : Nat := 0x050030
def Reg.plcReplaceCnt : Nat := 0x050038
def Reg.plcRerunCnt : Nat := 0x05003C
def Reg.plcLostCnt : Nat := 0x050040
def Reg.thrCtl : Nat := 0x060000
def Reg.thrGovCfg : Nat := 0x060008
def Reg.thrGovStat : Nat := 0x06000C
def Reg.thrBandChg : Nat := 0x060010
def Reg.thrGovRaises : Nat := 0x060014
def Reg.thrDlStops : Nat := 0x060018
def Reg.thrDlLate : Nat := 0x06001C
def Reg.thrSpare : Nat := 0x060020
def Reg.thrAvsErrCnt : Nat := 0x060024
def Reg.thrBandRate (n : Nat) : Nat := 0x060100 + 0x4 * n
def Reg.thrBandTh (n : Nat) : Nat := 0x060140 + 0x4 * n
def Reg.thrPv (n : Nat) : Nat := 0x060180 + 0x4 * n
def Reg.thrPm (n : Nat) : Nat := 0x060200 + 0x4 * n
def Reg.thrClStat (n : Nat) : Nat := 0x060300 + 0x10 * n
def Reg.thrClFlush (n : Nat) : Nat := 0x060304 + 0x10 * n
def Reg.thrClExc (n : Nat) : Nat := 0x060308 + 0x10 * n
def Reg.clpCtl : Nat := 0x080000
def Reg.clpLateCnt : Nat := 0x080010
def Reg.clpMixedCnt : Nat := 0x080014
def Reg.clpSpSatCnt : Nat := 0x080018
def Reg.clpEn (n : Nat) : Nat := 0x080040 + 0x4 * n
def Reg.clpTrcCfg (n : Nat) : Nat := 0x080200 + 0x10 * n
def Reg.clpTrcLevel (n : Nat) : Nat := 0x080204 + 0x10 * n
def Reg.clpTrcStat (n : Nat) : Nat := 0x080208 + 0x10 * n
def Reg.clpLoopCfg (n : Nat) : Nat := 0x084000 + 0x40 * n
def Reg.clpLoopSrc (n : Nat) : Nat := 0x084004 + 0x40 * n
def Reg.clpLoopDst (n : Nat) : Nat := 0x084008 + 0x40 * n
def Reg.clpLoopShifts (n : Nat) : Nat := 0x08400C + 0x40 * n
def Reg.clpLoopCoef (n k : Nat) : Nat := 0x084010 + 0x40 * n + 0x4 * k
def Reg.clpLoopStat (n : Nat) : Nat := 0x08403C + 0x40 * n
def Reg.clpSp (n : Nat) : Nat := 0x090000 + 0x4 * n
def Reg.cleCtl : Nat := 0x0A0000
def Reg.cleScanCfg : Nat := 0x0A0008
def Reg.cleStat : Nat := 0x0A000C
def Reg.cleFault : Nat := 0x0A0010
def Reg.cleScanCnt : Nat := 0x0A0014
def Reg.cleOverrunCnt : Nat := 0x0A0018
def Reg.cleStackCnt : Nat := 0x0A001C
def Reg.cleLastDur : Nat := 0x0A0020
def Reg.cleMaxDur : Nat := 0x0A0024
def Reg.cleProgCrc : Nat := 0x0A0028
def Reg.adcCtl : Nat := 0x0C0000
def Reg.adcStat : Nat := 0x0C0004
def Reg.adcStart : Nat := 0x0C0008
def Reg.adcTimerCfg (n : Nat) : Nat := 0x0C0010 + 0x8 * n
def Reg.adcTimerPeriod (n : Nat) : Nat := 0x0C0014 + 0x8 * n
def Reg.adcSeqCfg (n : Nat) : Nat := 0x0C0100 + 0x10 * n
def Reg.adcSeqCh0 (n : Nat) : Nat := 0x0C0104 + 0x10 * n
def Reg.adcSeqCh1 (n : Nat) : Nat := 0x0C0108 + 0x10 * n
def Reg.adcWinLim (n : Nat) : Nat := 0x0C0200 + 0x8 * n
def Reg.adcWinHyst (n : Nat) : Nat := 0x0C0204 + 0x8 * n
def Reg.adcWinStat : Nat := 0x0C0300
def Reg.adcWinEvt : Nat := 0x0C0304
def Reg.adcRes (n : Nat) : Nat := 0x0C0400 + 0x4 * n
def Reg.mtrCtl : Nat := 0x0D0000
def Reg.mtrSaveCfg : Nat := 0x0D0008
def Reg.mtrStat : Nat := 0x0D000C
def Reg.mtrTemp : Nat := 0x0D0010
def Reg.mtrFreq : Nat := 0x0D0014
def Reg.mtrTb (n : Nat) : Nat := 0x0D0020 + 0x4 * n
def Reg.mtrChOffset (n : Nat) : Nat := 0x0D0100 + 0x40 * n
def Reg.mtrChScale (n : Nat) : Nat := 0x0D0104 + 0x40 * n
def Reg.mtrChPhcal (n : Nat) : Nat := 0x0D0108 + 0x40 * n
def Reg.mtrChRms (n : Nat) : Nat := 0x0D010C + 0x40 * n
def Reg.mtrChGain (n k : Nat) : Nat := 0x0D0110 + 0x40 * n + 0x4 * k
def Reg.mtrQGain (n : Nat) : Nat := 0x0D0400 + 0x8 * n
def Reg.mtrQOfs (n : Nat) : Nat := 0x0D0404 + 0x8 * n
def Reg.mtrEvtCfg (n : Nat) : Nat := 0x0D0500 + 0x10 * n
def Reg.mtrEvtTh1 (n : Nat) : Nat := 0x0D0504 + 0x10 * n
def Reg.mtrEvtTh2 (n : Nat) : Nat := 0x0D0508 + 0x10 * n
def Reg.mtrEvtUref (n : Nat) : Nat := 0x0D050C + 0x10 * n
def Reg.mtrHcCfg (n : Nat) : Nat := 0x0D0800 + 0x20 * n
def Reg.mtrHcVpp (n : Nat) : Nat := 0x0D0804 + 0x20 * n
def Reg.mtrHcTscale (n : Nat) : Nat := 0x0D0808 + 0x20 * n
def Reg.mtrHcTofs (n : Nat) : Nat := 0x0D080C + 0x20 * n
def Reg.mtrHcDtMin (n : Nat) : Nat := 0x0D0810 + 0x20 * n
def Reg.mtrHcStat (n : Nat) : Nat := 0x0D0814 + 0x20 * n
def Reg.mtrPoSrc (n : Nat) : Nat := 0x0D0C00 + 0x10 * n
def Reg.mtrPoConst (n : Nat) : Nat := 0x0D0C04 + 0x10 * n
def Reg.mtrPoPending (n : Nat) : Nat := 0x0D0C08 + 0x10 * n
def Reg.mtrPoLagged (n : Nat) : Nat := 0x0D0C0C + 0x10 * n
def Reg.mtrAccLo (n : Nat) : Nat := 0x0D1000 + 0x10 * n
def Reg.mtrAccHi (n : Nat) : Nat := 0x0D1004 + 0x10 * n
def Reg.mtrAccWrap (n : Nat) : Nat := 0x0D1008 + 0x10 * n
def Reg.canCtl (n : Nat) : Nat := 0x0E0000 + 0x2000 * (n % 4) + 0x10000 * (n / 4)
def Reg.canPstat (n : Nat) : Nat := 0x0E0004 + 0x2000 * (n % 4) + 0x10000 * (n / 4)
def Reg.canNbt (n : Nat) : Nat := 0x0E0008 + 0x2000 * (n % 4) + 0x10000 * (n / 4)
def Reg.canDbt (n : Nat) : Nat := 0x0E000C + 0x2000 * (n % 4) + 0x10000 * (n / 4)
def Reg.canTdc (n : Nat) : Nat := 0x0E0010 + 0x2000 * (n % 4) + 0x10000 * (n / 4)
def Reg.canStat (n : Nat) : Nat := 0x0E0014 + 0x2000 * (n % 4) + 0x10000 * (n / 4)
def Reg.canErr (n : Nat) : Nat := 0x0E0018 + 0x2000 * (n % 4) + 0x10000 * (n / 4)
def Reg.canLock (n : Nat) : Nat := 0x0E001C + 0x2000 * (n % 4) + 0x10000 * (n / 4)
def Reg.canTxreq (n k : Nat) : Nat := 0x0E0020 + 0x2000 * (n % 4) + 0x10000 * (n / 4) + 4 * k
def Reg.canTxabort (n k : Nat) : Nat := 0x0E0028 + 0x2000 * (n % 4) + 0x10000 * (n / 4) + 4 * k
def Reg.canFifoPop (n : Nat) : Nat := 0x0E0030 + 0x2000 * (n % 4) + 0x10000 * (n / 4)
def Reg.canFifoStat (n : Nat) : Nat := 0x0E0034 + 0x2000 * (n % 4) + 0x10000 * (n / 4)
def Reg.canFifoDrop (n : Nat) : Nat := 0x0E0038 + 0x2000 * (n % 4) + 0x10000 * (n / 4)
def Reg.canTsc (n : Nat) : Nat := 0x0E003C + 0x2000 * (n % 4) + 0x10000 * (n / 4)
def Reg.canPairCnt (n : Nat) : Nat := 0x0E0040 + 0x2000 * (n % 4) + 0x10000 * (n / 4)
def Reg.canPairTbLo (n : Nat) : Nat := 0x0E0044 + 0x2000 * (n % 4) + 0x10000 * (n / 4)
def Reg.canPairTbHi (n : Nat) : Nat := 0x0E0048 + 0x2000 * (n % 4) + 0x10000 * (n / 4)
def Reg.canUnmatched (n : Nat) : Nat := 0x0E0050 + 0x2000 * (n % 4) + 0x10000 * (n / 4)
def Reg.canOverrun (n : Nat) : Nat := 0x0E0054 + 0x2000 * (n % 4) + 0x10000 * (n / 4)
def Reg.canLaunchLost (n : Nat) : Nat := 0x0E0058 + 0x2000 * (n % 4) + 0x10000 * (n / 4)
def Reg.canMbCmd (n k : Nat) : Nat := 0x0E0100 + 0x2000 * (n % 4) + 0x10000 * (n / 4) + 4 * k
def Reg.ethCtl : Nat := 0x100000
def Reg.ethCfg (n : Nat) : Nat := 0x100100 + 0x40 * n
def Reg.ethLat (n : Nat) : Nat := 0x100104 + 0x40 * n
def Reg.ethVlan (n : Nat) : Nat := 0x100108 + 0x40 * n
def Reg.ethMacLo (n : Nat) : Nat := 0x10010C + 0x40 * n
def Reg.ethMacHi (n : Nat) : Nat := 0x100110 + 0x40 * n
def Reg.ethIp4 (n : Nat) : Nat := 0x100114 + 0x40 * n
def Reg.ethIp6 (n k : Nat) : Nat := 0x100118 + 0x40 * n + 0x4 * k
def Reg.ethStat (n : Nat) : Nat := 0x100128 + 0x40 * n
def Reg.timCtl : Nat := 0x110000
def Reg.timNowLo : Nat := 0x110004
def Reg.timNowHi : Nat := 0x110008
def Reg.timEpochLo : Nat := 0x11000C
def Reg.timEpochHi : Nat := 0x110010
def Reg.timFreePpb : Nat := 0x110014
def Reg.timRateLim : Nat := 0x110018
def Reg.timJump : Nat := 0x11001C
def Reg.timAgree : Nat := 0x110020
def Reg.timDomain : Nat := 0x110024
def Reg.timServo : Nat := 0x110028
def Reg.timStat : Nat := 0x11002C
def Reg.timEvent : Nat := 0x110030
def Reg.timOffsetA : Nat := 0x110034
def Reg.timOffsetB : Nat := 0x110038
def Reg.timRate : Nat := 0x11003C
def Reg.timAlarmLo (n : Nat) : Nat := 0x110040 + 0x8 * n
def Reg.timAlarmHi (n : Nat) : Nat := 0x110044 + 0x8 * n
def Reg.trlCtl : Nat := 0x120000
def Reg.trlStat : Nat := 0x120004
def Reg.trlPresent : Nat := 0x120008
def Reg.trlHeadLen : Nat := 0x12000C
def Reg.trlUpDelay : Nat := 0x120010
def Reg.trlTimeOfs : Nat := 0x120014
def Reg.trlRetryCnt : Nat := 0x120018
def Reg.trlDownCnt : Nat := 0x12001C
def Reg.redCtl : Nat := 0x130000
def Reg.redRevert : Nat := 0x130008
def Reg.redStat : Nat := 0x13000C
def Reg.redTimer : Nat := 0x130010
def Reg.redEvent : Nat := 0x130014
def Reg.redTakeoverCnt : Nat := 0x130018
def Reg.rtcCtl : Nat := 0x140000
def Reg.rtcPstat : Nat := 0x140004
def Reg.rtcSetDate : Nat := 0x140008
def Reg.rtcSetTime : Nat := 0x14000C
def Reg.rtcCommit : Nat := 0x140010
def Reg.rtcUnlock : Nat := 0x140014
def Reg.rtcNowTime : Nat := 0x140018
def Reg.rtcNowDate : Nat := 0x14001C
def Reg.rtcSecsLo : Nat := 0x140020
def Reg.rtcSecsHi : Nat := 0x140024
def Reg.rtcStat : Nat := 0x140028
def Reg.rtcLockDrops : Nat := 0x14002C
def Reg.rtcAlmDate (n : Nat) : Nat := 0x140030 + 0x10 * n
def Reg.rtcAlmTime (n : Nat) : Nat := 0x140034 + 0x10 * n
def Reg.pavCtl : Nat := 0x150000
def Reg.pavPstat : Nat := 0x150004
def Reg.pavHTotal : Nat := 0x150008
def Reg.pavVTotal : Nat := 0x15000C
def Reg.pavGate : Nat := 0x150010
def Reg.pavPhase : Nat := 0x150014
def Reg.pavPhStart : Nat := 0x150018
def Reg.pavStressCfg : Nat := 0x15001C
def Reg.pavAge (n : Nat) : Nat := 0x150020 + 0x4 * n
def Reg.pavStat : Nat := 0x150030
def Reg.pavEolDays : Nat := 0x150034
def Reg.pavUnderrunCnt : Nat := 0x150038
def Reg.pavClipCnt : Nat := 0x15003C
def Reg.pavWeight (n k : Nat) : Nat := 0x150100 + 0x80 * n + 0x4 * k
def Reg.grnStat : Nat := 0x160000
def Reg.grnSeqLo : Nat := 0x160004
def Reg.grnSeqHi : Nat := 0x160008
def Reg.grnCkptGen : Nat := 0x16000C
def Reg.grnCkptSeqLo : Nat := 0x160010
def Reg.grnCkptSeqHi : Nat := 0x160014
def Reg.grnMedia : Nat := 0x160018
def Reg.grnWaitCnt : Nat := 0x16001C
def Reg.evrStat : Nat := 0x170000
def Reg.evrLost : Nat := 0x170004
def Reg.evrClears : Nat := 0x170008
def Reg.secCtl : Nat := 0x180000
def Reg.secStat : Nat := 0x180004
def Reg.secAttNext : Nat := 0x180008
def Reg.secRemaskCnt : Nat := 0x18000C
def Reg.secIntegrityCnt : Nat := 0x180010
def Reg.hltCtl : Nat := 0x190000
def Reg.hltBatCfg : Nat := 0x190008
def Reg.hltStat : Nat := 0x19000C
def Reg.hltEolDays : Nat := 0x190040
def Reg.hltBatV : Nat := 0x190044
def Reg.hltWear (n : Nat) : Nat := 0x190100 + 0x8 * n
def Reg.hltDays (n : Nat) : Nat := 0x190104 + 0x8 * n
def Reg.ioxCtl : Nat := 0x1A0000
def Reg.ioxStat : Nat := 0x1A0004
def Reg.ioxFrozenCnt : Nat := 0x1A0008
def Reg.ioxDacPark (n : Nat) : Nat := 0x1A0100 + 0x8 * n
def Reg.ioxDacVal (n : Nat) : Nat := 0x1A0104 + 0x8 * n
def Reg.ioxPwmCfg (n : Nat) : Nat := 0x1A0200 + 0x10 * n
def Reg.ioxPwmHigh (n : Nat) : Nat := 0x1A0204 + 0x10 * n
def Reg.ioxGpioCfg (n : Nat) : Nat := 0x1A0400 + 0x4 * n
def Reg.ioxGpioOut (n : Nat) : Nat := 0x1A0600 + 0x4 * n
def Reg.ioxGpioIn (n : Nat) : Nat := 0x1A0610 + 0x4 * n
def Reg.ioxPiCfg (n : Nat) : Nat := 0x1A0700 + 0x8 * n
def Reg.ioxPiCnt (n : Nat) : Nat := 0x1A0704 + 0x8 * n
def Reg.ioxPoCfg (n : Nat) : Nat := 0x1A0800 + 0x8 * n
def Reg.ioxPoTime (n : Nat) : Nat := 0x1A0804 + 0x8 * n
def Reg.ioxPoStat (n : Nat) : Nat := 0x1A0880 + 0x4 * n

/-- The registers of the SYS block. -/
def regsSys : List RegDef :=
  [⟨0x000000, 1, 0x4, 1, 0x4, false, [⟨31, 0, .ro, 0x94201FB3⟩]⟩,
   ⟨0x000004, 1, 0x4, 1, 0x4, false, [⟨23, 16, .ro, 0x0⟩, ⟨10, 8, .ro, 0x0⟩, ⟨4, 4, .ro, 0x0⟩, ⟨3, 3, .ro, 0x0⟩, ⟨2, 0, .ro, 0x1⟩]⟩,
   ⟨0x000008, 1, 0x4, 1, 0x4, false, [⟨31, 31, .ro, 0x0⟩, ⟨23, 16, .ro, 0x1⟩, ⟨15, 8, .ro, 0x0⟩, ⟨7, 7, .ro, 0x0⟩, ⟨4, 4, .ro, 0x0⟩, ⟨3, 2, .ro, 0x0⟩, ⟨1, 1, .ro, 0x0⟩]⟩,
   ⟨0x00000C, 1, 0x4, 1, 0x4, false, [⟨3, 3, .rc, 0x0⟩, ⟨2, 2, .rc, 0x0⟩, ⟨1, 1, .rc, 0x0⟩, ⟨0, 0, .rc, 0x1⟩]⟩,
   ⟨0x000010, 1, 0x4, 1, 0x4, false, [⟨8, 8, .rc, 0x0⟩, ⟨7, 0, .rc, 0x0⟩]⟩,
   ⟨0x000014, 1, 0x4, 1, 0x4, false, [⟨8, 0, .rw, 0x0⟩]⟩,
   ⟨0x000020, 1, 0x4, 1, 0x4, false, [⟨2, 2, .rc, 0x0⟩, ⟨1, 1, .ro, 0x0⟩, ⟨0, 0, .ro, 0x0⟩]⟩,
   ⟨0x000030, 1, 0x4, 1, 0x4, false, [⟨23, 0, .ro, 0xF4240⟩]⟩,
   ⟨0x000034, 1, 0x4, 1, 0x4, false, [⟨31, 0, .ro, 0x0⟩]⟩,
   ⟨0x000038, 1, 0x4, 1, 0x4, false, [⟨31, 0, .ro, 0x0⟩]⟩,
   ⟨0x00003C, 1, 0x4, 1, 0x4, false, [⟨31, 0, .rc, 0x0⟩]⟩,
   ⟨0x000040, 1, 0x4, 1, 0x4, false, [⟨31, 0, .rc, 0x0⟩]⟩,
   ⟨0x000050, 1, 0x4, 1, 0x4, false, [⟨31, 12, .rw, 0x0⟩]⟩,
   ⟨0x000054, 1, 0x4, 1, 0x4, false, [⟨31, 0, .rw, 0x0⟩]⟩,
   ⟨0x000058, 1, 0x4, 1, 0x4, false, [⟨31, 20, .rw, 0x0⟩]⟩,
   ⟨0x00005C, 1, 0x4, 1, 0x4, false, [⟨15, 0, .rw, 0x10⟩]⟩,
   ⟨0x000060, 1, 0x4, 1, 0x4, false, [⟨31, 0, .rc, 0x0⟩]⟩]

/-- The registers of the CFG block. -/
def regsCfg : List RegDef :=
  [⟨0x010000, 1, 0x4, 1, 0x4, false, [⟨1, 1, .rw, 0x0⟩, ⟨0, 0, .rw, 0x0⟩]⟩,
   ⟨0x010004, 1, 0x4, 1, 0x4, false, [⟨31, 0, .rw, 0x0⟩]⟩,
   ⟨0x010008, 1, 0x4, 1, 0x4, false, [⟨31, 31, .wo, 0x0⟩, ⟨0, 0, .wo, 0x0⟩]⟩,
   ⟨0x01000C, 1, 0x4, 1, 0x4, false, [⟨31, 0, .ro, 0x0⟩]⟩,
   ⟨0x010010, 1, 0x4, 1, 0x4, false, [⟨31, 0, .rw, 0x0⟩]⟩,
   ⟨0x010014, 1, 0x4, 1, 0x4, false, [⟨1, 0, .wo, 0x0⟩]⟩,
   ⟨0x010018, 1, 0x4, 1, 0x4, false, [⟨31, 0, .ro, 0x0⟩]⟩,
   ⟨0x01001C, 1, 0x4, 1, 0x4, false, [⟨31, 0, .ro, 0x0⟩]⟩,
   ⟨0x010020, 1, 0x4, 1, 0x4, false, [⟨3, 3, .ro, 0x0⟩, ⟨2, 2, .ro, 0x0⟩, ⟨1, 1, .ro, 0x0⟩, ⟨0, 0, .rc, 0x0⟩]⟩,
   ⟨0x010024, 1, 0x4, 1, 0x4, false, [⟨31, 0, .rc, 0x0⟩]⟩,
   ⟨0x010028, 1, 0x4, 1, 0x4, false, [⟨31, 0, .ro, 0x0⟩]⟩]

/-- The registers of the RING block. -/
def regsRing : List RegDef :=
  [⟨0x020000, 64, 0x40, 1, 0x4, false, [⟨11, 0, .rw, 0x0⟩]⟩,
   ⟨0x020004, 64, 0x40, 1, 0x4, false, [⟨11, 0, .rw, 0x0⟩]⟩,
   ⟨0x020008, 64, 0x40, 1, 0x4, false, [⟨11, 0, .ro, 0x0⟩]⟩,
   ⟨0x02000C, 64, 0x40, 1, 0x4, false, [⟨12, 12, .ro, 0x1⟩, ⟨11, 0, .ro, 0x0⟩]⟩,
   ⟨0x020010, 64, 0x40, 1, 0x4, false, [⟨28, 16, .ro, 0x0⟩, ⟨10, 10, .ro, 0x0⟩, ⟨9, 8, .ro, 0x0⟩, ⟨7, 4, .ro, 0x0⟩, ⟨3, 0, .ro, 0x0⟩]⟩,
   ⟨0x020014, 64, 0x40, 1, 0x4, false, [⟨3, 3, .rc, 0x0⟩, ⟨2, 2, .rc, 0x0⟩, ⟨1, 1, .rc, 0x0⟩, ⟨0, 0, .rc, 0x0⟩]⟩]

/-- The registers of the BUD block. -/
def regsBud : List RegDef :=
  [⟨0x040000, 1, 0x4, 1, 0x4, false, [⟨31, 0, .ro, 0x0⟩]⟩,
   ⟨0x040004, 1, 0x4, 1, 0x4, false, [⟨31, 31, .ro, 0x0⟩, ⟨30, 30, .ro, 0x0⟩, ⟨29, 29, .ro, 0x0⟩, ⟨28, 28, .ro, 0x0⟩, ⟨23, 20, .ro, 0x0⟩, ⟨15, 0, .ro, 0x0⟩]⟩,
   ⟨0x040008, 1, 0x4, 1, 0x4, false, [⟨31, 0, .ro, 0x0⟩]⟩,
   ⟨0x04000C, 1, 0x4, 1, 0x4, false, [⟨31, 0, .rc, 0x0⟩]⟩,
   ⟨0x040100, 16, 0x20, 1, 0x4, false, [⟨31, 0, .ro, 0x0⟩]⟩,
   ⟨0x040104, 16, 0x20, 1, 0x4, false, [⟨31, 0, .ro, 0x0⟩]⟩,
   ⟨0x040108, 16, 0x20, 1, 0x4, false, [⟨31, 0, .ro, 0x0⟩]⟩,
   ⟨0x04010C, 16, 0x20, 1, 0x4, false, [⟨31, 0, .rc, 0x0⟩]⟩,
   ⟨0x040110, 16, 0x20, 1, 0x4, false, [⟨7, 6, .ro, 0x0⟩, ⟨2, 2, .ro, 0x0⟩, ⟨1, 1, .ro, 0x0⟩, ⟨0, 0, .ro, 0x0⟩]⟩]

/-- The registers of the PLC block. -/
def regsPlc : List RegDef :=
  [⟨0x050000, 1, 0x4, 1, 0x4, false, [⟨28, 24, .rw, 0x0⟩, ⟨1, 1, .rws, 0x0⟩, ⟨0, 0, .rws, 0x0⟩]⟩,
   ⟨0x050008, 1, 0x4, 1, 0x4, false, [⟨8, 0, .rws, 0xC0⟩]⟩,
   ⟨0x05000C, 1, 0x4, 1, 0x4, false, [⟨12, 0, .rws, 0x100⟩]⟩,
   ⟨0x050010, 1, 0x4, 1, 0x4, false, [⟨8, 0, .rws, 0x0⟩]⟩,
   ⟨0x050014, 1, 0x4, 1, 0x4, false, [⟨16, 1, .rws, 0x0⟩]⟩,
   ⟨0x050020, 1, 0x4, 1, 0x4, false, [⟨31, 31, .ro, 0x0⟩, ⟨30, 30, .ro, 0x0⟩, ⟨29, 29, .ro, 0x0⟩, ⟨28, 28, .ro, 0x0⟩, ⟨27, 27, .ro, 0x0⟩, ⟨21, 16, .ro, 0x0⟩, ⟨12, 0, .ro, 0x0⟩]⟩,
   ⟨0x050024, 1, 0x4, 1, 0x4, false, [⟨31, 0, .ro, 0x0⟩]⟩,
   ⟨0x050028, 1, 0x4, 1, 0x4, false, [⟨31, 0, .ro, 0x0⟩]⟩,
   ⟨0x05002C, 1, 0x4, 1, 0x4, false, [⟨31, 0, .ro, 0x0⟩]⟩,
   ⟨0x050030, 1, 0x4, 1, 0x4, false, [⟨31, 0, .ro, 0x0⟩]⟩,
   ⟨0x050038, 1, 0x4, 1, 0x4, false, [⟨31, 0, .rc, 0x0⟩]⟩,
   ⟨0x05003C, 1, 0x4, 1, 0x4, false, [⟨31, 0, .rc, 0x0⟩]⟩,
   ⟨0x050040, 1, 0x4, 1, 0x4, false, [⟨31, 0, .rc, 0x0⟩]⟩]

/-- The registers of the THR block. -/
def regsThr : List RegDef :=
  [⟨0x060000, 1, 0x4, 1, 0x4, false, [⟨28, 24, .rw, 0x0⟩, ⟨0, 0, .rws, 0x0⟩]⟩,
   ⟨0x060008, 1, 0x4, 1, 0x4, false, [⟨31, 28, .rws, 0xF⟩, ⟨27, 24, .rws, 0x1⟩, ⟨23, 16, .rws, 0x46⟩, ⟨15, 8, .rws, 0x0⟩, ⟨7, 0, .rws, 0xA⟩]⟩,
   ⟨0x06000C, 1, 0x4, 1, 0x4, false, [⟨23, 16, .ro, 0x3C⟩, ⟨15, 12, .ro, 0xF⟩, ⟨11, 8, .ro, 0xF⟩, ⟨7, 4, .ro, 0xF⟩, ⟨3, 3, .ro, 0x0⟩, ⟨2, 2, .ro, 0x0⟩, ⟨1, 1, .ro, 0x0⟩, ⟨0, 0, .ro, 0x0⟩]⟩,
   ⟨0x060010, 1, 0x4, 1, 0x4, false, [⟨31, 16, .rc, 0x0⟩, ⟨15, 0, .rc, 0x0⟩]⟩,
   ⟨0x060014, 1, 0x4, 1, 0x4, false, [⟨31, 0, .rc, 0x0⟩]⟩,
   ⟨0x060018, 1, 0x4, 1, 0x4, false, [⟨31, 0, .rc, 0x0⟩]⟩,
   ⟨0x06001C, 1, 0x4, 1, 0x4, false, [⟨31, 0, .rc, 0x0⟩]⟩,
   ⟨0x060020, 1, 0x4, 1, 0x4, false, [⟨13, 8, .ro, 0x0⟩, ⟨5, 0, .ro, 0x0⟩]⟩,
   ⟨0x060024, 1, 0x4, 1, 0x4, false, [⟨31, 0, .rc, 0x0⟩]⟩,
   ⟨0x060100, 16, 0x4, 1, 0x4, false, [⟨15, 0, .ro, 0x0⟩]⟩,
   ⟨0x060140, 15, 0x4, 1, 0x4, false, [⟨15, 0, .ro, 0x0⟩]⟩,
   ⟨0x060180, 8, 0x4, 1, 0x4, false, [⟨15, 0, .ro, 0x0⟩]⟩,
   ⟨0x060200, 16, 0x4, 1, 0x4, false, [⟨31, 16, .ro, 0x0⟩, ⟨15, 0, .ro, 0x0⟩]⟩,
   ⟨0x060300, 34, 0x10, 1, 0x4, false, [⟨31, 30, .ro, 0x0⟩, ⟨29, 24, .ro, 0x0⟩, ⟨23, 16, .ro, 0x0⟩, ⟨15, 0, .ro, 0x0⟩]⟩,
   ⟨0x060304, 34, 0x10, 1, 0x4, false, [⟨31, 16, .rc, 0x0⟩, ⟨15, 0, .rc, 0x0⟩]⟩,
   ⟨0x060308, 34, 0x10, 1, 0x4, false, [⟨2, 2, .rc, 0x0⟩, ⟨1, 1, .rc, 0x0⟩, ⟨0, 0, .rc, 0x0⟩]⟩]

/-- The registers of the CLP block. -/
def regsClp : List RegDef :=
  [⟨0x080000, 1, 0x4, 1, 0x4, false, [⟨28, 24, .rw, 0x0⟩]⟩,
   ⟨0x080010, 1, 0x4, 1, 0x4, false, [⟨31, 0, .rc, 0x0⟩]⟩,
   ⟨0x080014, 1, 0x4, 1, 0x4, false, [⟨31, 0, .rc, 0x0⟩]⟩,
   ⟨0x080018, 1, 0x4, 1, 0x4, false, [⟨31, 0, .rc, 0x0⟩]⟩,
   ⟨0x080040, 8, 0x4, 1, 0x4, true, [⟨31, 0, .rw, 0x0⟩]⟩,
   ⟨0x080200, 8, 0x10, 1, 0x4, false, [⟨31, 24, .rw, 0x0⟩, ⟨23, 20, .rw, 0x0⟩, ⟨19, 16, .rw, 0x0⟩, ⟨11, 0, .rw, 0x0⟩]⟩,
   ⟨0x080204, 8, 0x10, 1, 0x4, false, [⟨31, 0, .rw, 0x0⟩]⟩,
   ⟨0x080208, 8, 0x10, 1, 0x4, false, [⟨31, 30, .ro, 0x0⟩, ⟨12, 0, .ro, 0x0⟩]⟩,
   ⟨0x084000, 256, 0x40, 1, 0x4, false, [⟨31, 31, .rws, 0x0⟩, ⟨30, 30, .rws, 0x0⟩, ⟨29, 20, .rws, 0x0⟩, ⟨19, 10, .rws, 0x0⟩, ⟨9, 0, .rws, 0x1⟩]⟩,
   ⟨0x084004, 256, 0x40, 1, 0x4, false, [⟨31, 16, .rws, 0x0⟩, ⟨15, 0, .rws, 0x0⟩]⟩,
   ⟨0x084008, 256, 0x40, 1, 0x4, false, [⟨31, 16, .rws, 0x0⟩, ⟨15, 0, .rws, 0x0⟩]⟩,
   ⟨0x08400C, 256, 0x40, 1, 0x4, true, [⟨29, 25, .rw, 0x0⟩, ⟨24, 20, .rw, 0x0⟩, ⟨19, 15, .rw, 0x0⟩, ⟨14, 10, .rw, 0x0⟩, ⟨9, 5, .rw, 0x0⟩, ⟨4, 0, .rw, 0x0⟩]⟩,
   ⟨0x084010, 256, 0x40, 11, 0x4, true, [⟨31, 0, .rw, 0x0⟩]⟩,
   ⟨0x08403C, 256, 0x40, 1, 0x4, false, [⟨9, 9, .rc, 0x0⟩, ⟨8, 8, .rc, 0x0⟩, ⟨7, 7, .rc, 0x0⟩, ⟨6, 6, .rc, 0x0⟩, ⟨5, 5, .rc, 0x0⟩, ⟨4, 4, .rc, 0x0⟩, ⟨3, 3, .rc, 0x0⟩, ⟨2, 2, .rc, 0x0⟩, ⟨1, 1, .rc, 0x0⟩]⟩,
   ⟨0x090000, 1024, 0x4, 1, 0x4, false, [⟨31, 0, .rw, 0x0⟩]⟩]

/-- The registers of the CLE block. -/
def regsCle : List RegDef :=
  [⟨0x0A0000, 1, 0x4, 1, 0x4, false, [⟨28, 24, .rw, 0x0⟩, ⟨1, 1, .rws, 0x0⟩, ⟨0, 0, .rws, 0x0⟩]⟩,
   ⟨0x0A0008, 1, 0x4, 1, 0x4, false, [⟨29, 20, .rws, 0x0⟩, ⟨19, 10, .rws, 0x0⟩, ⟨9, 0, .rws, 0x1⟩]⟩,
   ⟨0x0A000C, 1, 0x4, 1, 0x4, false, [⟨19, 18, .ro, 0x0⟩, ⟨16, 0, .ro, 0x0⟩]⟩,
   ⟨0x0A0010, 1, 0x4, 1, 0x4, false, [⟨1, 1, .ro, 0x0⟩, ⟨0, 0, .ro, 0x0⟩]⟩,
   ⟨0x0A0014, 1, 0x4, 1, 0x4, false, [⟨31, 0, .ro, 0x0⟩]⟩,
   ⟨0x0A0018, 1, 0x4, 1, 0x4, false, [⟨31, 0, .rc, 0x0⟩]⟩,
   ⟨0x0A001C, 1, 0x4, 1, 0x4, false, [⟨31, 0, .rc, 0x0⟩]⟩,
   ⟨0x0A0020, 1, 0x4, 1, 0x4, false, [⟨31, 0, .ro, 0x0⟩]⟩,
   ⟨0x0A0024, 1, 0x4, 1, 0x4, false, [⟨31, 0, .rc, 0x0⟩]⟩,
   ⟨0x0A0028, 1, 0x4, 1, 0x4, false, [⟨31, 0, .ro, 0x0⟩]⟩]

/-- The registers of the ADC block. -/
def regsAdc : List RegDef :=
  [⟨0x0C0000, 1, 0x4, 1, 0x4, false, [⟨28, 24, .rw, 0x0⟩, ⟨1, 0, .rws, 0x0⟩]⟩,
   ⟨0x0C0004, 1, 0x4, 1, 0x4, false, [⟨31, 16, .rc, 0x0⟩, ⟨15, 4, .rc, 0x0⟩, ⟨1, 0, .ro, 0x0⟩]⟩,
   ⟨0x0C0008, 1, 0x4, 1, 0x4, false, [⟨7, 0, .wo, 0x0⟩]⟩,
   ⟨0x0C0010, 8, 0x8, 1, 0x4, false, [⟨31, 31, .rws, 0x0⟩, ⟨23, 0, .rws, 0x0⟩]⟩,
   ⟨0x0C0014, 8, 0x8, 1, 0x4, false, [⟨23, 0, .rws, 0x0⟩]⟩,
   ⟨0x0C0100, 8, 0x10, 1, 0x4, false, [⟨31, 31, .rws, 0x0⟩, ⟨30, 30, .rws, 0x0⟩, ⟨29, 24, .rws, 0x0⟩, ⟨23, 20, .rws, 0x0⟩, ⟨15, 0, .rws, 0x0⟩]⟩,
   ⟨0x0C0104, 8, 0x10, 1, 0x4, false, [⟨31, 0, .rws, 0x0⟩]⟩,
   ⟨0x0C0108, 8, 0x10, 1, 0x4, false, [⟨31, 0, .rws, 0x0⟩]⟩,
   ⟨0x0C0200, 32, 0x8, 1, 0x4, false, [⟨31, 16, .rws, 0xFFFF⟩, ⟨15, 0, .rws, 0x0⟩]⟩,
   ⟨0x0C0204, 32, 0x8, 1, 0x4, false, [⟨31, 31, .rws, 0x0⟩, ⟨15, 0, .rws, 0x0⟩]⟩,
   ⟨0x0C0300, 1, 0x4, 1, 0x4, false, [⟨31, 0, .ro, 0x0⟩]⟩,
   ⟨0x0C0304, 1, 0x4, 1, 0x4, false, [⟨31, 0, .rc, 0x0⟩]⟩,
   ⟨0x0C0400, 32, 0x4, 1, 0x4, false, [⟨31, 24, .ro, 0x0⟩, ⟨16, 16, .ro, 0x0⟩, ⟨15, 0, .ro, 0x0⟩]⟩]

/-- The registers of the MTR block. -/
def regsMtr : List RegDef :=
  [⟨0x0D0000, 1, 0x4, 1, 0x4, false, [⟨28, 24, .rw, 0x0⟩, ⟨2, 2, .rws, 0x0⟩, ⟨1, 1, .rws, 0x0⟩, ⟨0, 0, .rws, 0x0⟩]⟩,
   ⟨0x0D0008, 1, 0x4, 1, 0x4, false, [⟨5, 0, .rws, 0xA⟩]⟩,
   ⟨0x0D000C, 1, 0x4, 1, 0x4, false, [⟨31, 31, .ro, 0x0⟩, ⟨30, 30, .rc, 0x0⟩, ⟨8, 6, .ro, 0x0⟩, ⟨5, 3, .ro, 0x0⟩, ⟨2, 0, .ro, 0x0⟩]⟩,
   ⟨0x0D0010, 1, 0x4, 1, 0x4, false, [⟨31, 0, .ro, 0x0⟩]⟩,
   ⟨0x0D0014, 1, 0x4, 1, 0x4, false, [⟨31, 0, .ro, 0x0⟩]⟩,
   ⟨0x0D0020, 7, 0x4, 1, 0x4, false, [⟨15, 0, .rws, 0x7FFF⟩]⟩,
   ⟨0x0D0100, 8, 0x40, 1, 0x4, false, [⟨23, 0, .rws, 0x0⟩]⟩,
   ⟨0x0D0104, 8, 0x40, 1, 0x4, false, [⟨31, 0, .rws, 0x0⟩]⟩,
   ⟨0x0D0108, 8, 0x40, 1, 0x4, false, [⟨15, 0, .rws, 0x0⟩]⟩,
   ⟨0x0D010C, 8, 0x40, 1, 0x4, false, [⟨31, 0, .ro, 0x0⟩]⟩,
   ⟨0x0D0110, 8, 0x40, 8, 0x4, false, [⟨31, 0, .rws, 0x40000000⟩]⟩,
   ⟨0x0D0400, 18, 0x8, 1, 0x4, false, [⟨31, 0, .rws, 0x40000000⟩]⟩,
   ⟨0x0D0404, 18, 0x8, 1, 0x4, false, [⟨31, 0, .rws, 0x0⟩]⟩,
   ⟨0x0D0500, 3, 0x10, 1, 0x4, false, [⟨31, 30, .rws, 0x0⟩, ⟨15, 0, .rws, 0x64⟩]⟩,
   ⟨0x0D0504, 3, 0x10, 1, 0x4, false, [⟨31, 16, .rws, 0x399A⟩, ⟨15, 0, .rws, 0x4666⟩]⟩,
   ⟨0x0D0508, 3, 0x10, 1, 0x4, false, [⟨31, 16, .rws, 0x333⟩, ⟨15, 0, .rws, 0x148⟩]⟩,
   ⟨0x0D050C, 3, 0x10, 1, 0x4, false, [⟨31, 0, .rws, 0x43660000⟩]⟩,
   ⟨0x0D0800, 16, 0x20, 1, 0x4, false, [⟨31, 31, .rws, 0x0⟩, ⟨25, 24, .rws, 0x0⟩, ⟨19, 16, .rws, 0x0⟩, ⟨12, 8, .rws, 0x0⟩, ⟨4, 0, .rws, 0x0⟩]⟩,
   ⟨0x0D0804, 16, 0x20, 1, 0x4, false, [⟨31, 0, .rws, 0x0⟩]⟩,
   ⟨0x0D0808, 16, 0x20, 1, 0x4, false, [⟨31, 0, .rws, 0x0⟩]⟩,
   ⟨0x0D080C, 16, 0x20, 1, 0x4, false, [⟨31, 0, .rws, 0x0⟩]⟩,
   ⟨0x0D0810, 16, 0x20, 1, 0x4, false, [⟨31, 0, .rws, 0x0⟩]⟩,
   ⟨0x0D0814, 16, 0x20, 1, 0x4, false, [⟨2, 2, .rc, 0x0⟩, ⟨1, 1, .rc, 0x0⟩, ⟨0, 0, .rc, 0x0⟩]⟩,
   ⟨0x0D0C00, 8, 0x10, 1, 0x4, false, [⟨6, 0, .rws, 0x0⟩]⟩,
   ⟨0x0D0C04, 8, 0x10, 1, 0x4, false, [⟨31, 0, .rws, 0x3E8⟩]⟩,
   ⟨0x0D0C08, 8, 0x10, 1, 0x4, false, [⟨31, 0, .ro, 0x0⟩]⟩,
   ⟨0x0D0C0C, 8, 0x10, 1, 0x4, false, [⟨31, 0, .rc, 0x0⟩]⟩,
   ⟨0x0D1000, 96, 0x10, 1, 0x4, false, [⟨31, 0, .ro, 0x0⟩]⟩,
   ⟨0x0D1004, 96, 0x10, 1, 0x4, false, [⟨31, 0, .ro, 0x0⟩]⟩,
   ⟨0x0D1008, 96, 0x10, 1, 0x4, false, [⟨31, 0, .ro, 0x0⟩]⟩]

/-- The registers of the CAN block. -/
def regsCan : List RegDef :=
  [⟨0x0E0000, 4, 0x2000, 1, 0x4, false, [⟨31, 31, .wo, 0x0⟩, ⟨28, 24, .rw, 0x0⟩, ⟨4, 4, .rws, 0x0⟩, ⟨3, 2, .rws, 0x0⟩, ⟨1, 1, .rws, 0x0⟩]⟩,
   ⟨0x0F0000, 4, 0x2000, 1, 0x4, false, [⟨31, 31, .wo, 0x0⟩, ⟨28, 24, .rw, 0x0⟩, ⟨4, 4, .rws, 0x0⟩, ⟨3, 2, .rws, 0x0⟩, ⟨1, 1, .rws, 0x0⟩]⟩,
   ⟨0x0E0004, 4, 0x2000, 1, 0x4, false, [⟨31, 16, .rc, 0x0⟩, ⟨0, 0, .ro, 0x0⟩]⟩,
   ⟨0x0F0004, 4, 0x2000, 1, 0x4, false, [⟨31, 16, .rc, 0x0⟩, ⟨0, 0, .ro, 0x0⟩]⟩,
   ⟨0x0E0008, 4, 0x2000, 1, 0x4, false, [⟨29, 23, .rwp, 0x0⟩, ⟨22, 16, .rwp, 0x0⟩, ⟨15, 8, .rwp, 0x0⟩, ⟨7, 0, .rwp, 0x0⟩]⟩,
   ⟨0x0F0008, 4, 0x2000, 1, 0x4, false, [⟨29, 23, .rwp, 0x0⟩, ⟨22, 16, .rwp, 0x0⟩, ⟨15, 8, .rwp, 0x0⟩, ⟨7, 0, .rwp, 0x0⟩]⟩,
   ⟨0x0E000C, 4, 0x2000, 1, 0x4, false, [⟨23, 20, .rwp, 0x0⟩, ⟨19, 16, .rwp, 0x0⟩, ⟨12, 8, .rwp, 0x0⟩, ⟨4, 0, .rwp, 0x0⟩]⟩,
   ⟨0x0F000C, 4, 0x2000, 1, 0x4, false, [⟨23, 20, .rwp, 0x0⟩, ⟨19, 16, .rwp, 0x0⟩, ⟨12, 8, .rwp, 0x0⟩, ⟨4, 0, .rwp, 0x0⟩]⟩,
   ⟨0x0E0010, 4, 0x2000, 1, 0x4, false, [⟨31, 31, .rwp, 0x0⟩, ⟨22, 16, .rwp, 0x0⟩, ⟨6, 0, .rwp, 0x0⟩]⟩,
   ⟨0x0F0010, 4, 0x2000, 1, 0x4, false, [⟨31, 31, .rwp, 0x0⟩, ⟨22, 16, .rwp, 0x0⟩, ⟨6, 0, .rwp, 0x0⟩]⟩,
   ⟨0x0E0014, 4, 0x2000, 1, 0x4, false, [⟨31, 31, .ro, 0x0⟩, ⟨30, 30, .ro, 0x0⟩, ⟨29, 29, .ro, 0x0⟩, ⟨28, 28, .ro, 0x0⟩, ⟨27, 27, .ro, 0x0⟩, ⟨26, 26, .ro, 0x0⟩, ⟨25, 25, .rc, 0x0⟩, ⟨24, 24, .rc, 0x0⟩, ⟨22, 16, .ro, 0x0⟩, ⟨2, 0, .ro, 0x0⟩]⟩,
   ⟨0x0F0014, 4, 0x2000, 1, 0x4, false, [⟨31, 31, .ro, 0x0⟩, ⟨30, 30, .ro, 0x0⟩, ⟨29, 29, .ro, 0x0⟩, ⟨28, 28, .ro, 0x0⟩, ⟨27, 27, .ro, 0x0⟩, ⟨26, 26, .ro, 0x0⟩, ⟨25, 25, .rc, 0x0⟩, ⟨24, 24, .rc, 0x0⟩, ⟨22, 16, .ro, 0x0⟩, ⟨2, 0, .ro, 0x0⟩]⟩,
   ⟨0x0E0018, 4, 0x2000, 1, 0x4, false, [⟨23, 23, .ro, 0x0⟩, ⟨22, 16, .ro, 0x0⟩, ⟨8, 0, .ro, 0x0⟩]⟩,
   ⟨0x0F0018, 4, 0x2000, 1, 0x4, false, [⟨23, 23, .ro, 0x0⟩, ⟨22, 16, .ro, 0x0⟩, ⟨8, 0, .ro, 0x0⟩]⟩,
   ⟨0x0E001C, 4, 0x2000, 1, 0x4, false, [⟨7, 7, .wo, 0x0⟩, ⟨5, 0, .wo, 0x0⟩]⟩,
   ⟨0x0F001C, 4, 0x2000, 1, 0x4, false, [⟨7, 7, .wo, 0x0⟩, ⟨5, 0, .wo, 0x0⟩]⟩,
   ⟨0x0E0020, 4, 0x2000, 2, 0x4, false, [⟨31, 0, .wo, 0x0⟩]⟩,
   ⟨0x0F0020, 4, 0x2000, 2, 0x4, false, [⟨31, 0, .wo, 0x0⟩]⟩,
   ⟨0x0E0028, 4, 0x2000, 2, 0x4, false, [⟨31, 0, .wo, 0x0⟩]⟩,
   ⟨0x0F0028, 4, 0x2000, 2, 0x4, false, [⟨31, 0, .wo, 0x0⟩]⟩,
   ⟨0x0E0030, 4, 0x2000, 1, 0x4, false, [⟨0, 0, .wo, 0x0⟩]⟩,
   ⟨0x0F0030, 4, 0x2000, 1, 0x4, false, [⟨0, 0, .wo, 0x0⟩]⟩,
   ⟨0x0E0034, 4, 0x2000, 1, 0x4, false, [⟨21, 16, .ro, 0x0⟩, ⟨5, 0, .ro, 0x0⟩]⟩,
   ⟨0x0F0034, 4, 0x2000, 1, 0x4, false, [⟨21, 16, .ro, 0x0⟩, ⟨5, 0, .ro, 0x0⟩]⟩,
   ⟨0x0E0038, 4, 0x2000, 1, 0x4, false, [⟨31, 16, .rc, 0x0⟩, ⟨15, 0, .rc, 0x0⟩]⟩,
   ⟨0x0F0038, 4, 0x2000, 1, 0x4, false, [⟨31, 16, .rc, 0x0⟩, ⟨15, 0, .rc, 0x0⟩]⟩,
   ⟨0x0E003C, 4, 0x2000, 1, 0x4, false, [⟨31, 0, .ro, 0x0⟩]⟩,
   ⟨0x0F003C, 4, 0x2000, 1, 0x4, false, [⟨31, 0, .ro, 0x0⟩]⟩,
   ⟨0x0E0040, 4, 0x2000, 1, 0x4, false, [⟨31, 0, .ro, 0x0⟩]⟩,
   ⟨0x0F0040, 4, 0x2000, 1, 0x4, false, [⟨31, 0, .ro, 0x0⟩]⟩,
   ⟨0x0E0044, 4, 0x2000, 1, 0x4, false, [⟨31, 0, .ro, 0x0⟩]⟩,
   ⟨0x0F0044, 4, 0x2000, 1, 0x4, false, [⟨31, 0, .ro, 0x0⟩]⟩,
   ⟨0x0E0048, 4, 0x2000, 1, 0x4, false, [⟨31, 0, .ro, 0x0⟩]⟩,
   ⟨0x0F0048, 4, 0x2000, 1, 0x4, false, [⟨31, 0, .ro, 0x0⟩]⟩,
   ⟨0x0E0050, 4, 0x2000, 1, 0x4, false, [⟨31, 0, .rc, 0x0⟩]⟩,
   ⟨0x0F0050, 4, 0x2000, 1, 0x4, false, [⟨31, 0, .rc, 0x0⟩]⟩,
   ⟨0x0E0054, 4, 0x2000, 1, 0x4, false, [⟨31, 0, .rc, 0x0⟩]⟩,
   ⟨0x0F0054, 4, 0x2000, 1, 0x4, false, [⟨31, 0, .rc, 0x0⟩]⟩,
   ⟨0x0E0058, 4, 0x2000, 1, 0x4, false, [⟨31, 0, .rc, 0x0⟩]⟩,
   ⟨0x0F0058, 4, 0x2000, 1, 0x4, false, [⟨31, 0, .rc, 0x0⟩]⟩,
   ⟨0x0E0100, 4, 0x2000, 64, 0x4, false, [⟨31, 29, .rw, 0x0⟩, ⟨28, 28, .rw, 0x0⟩, ⟨7, 7, .ro, 0x0⟩, ⟨6, 6, .rc, 0x0⟩, ⟨5, 5, .rc, 0x0⟩, ⟨4, 4, .ro, 0x0⟩, ⟨3, 3, .ro, 0x0⟩, ⟨2, 2, .ro, 0x0⟩, ⟨1, 1, .rc, 0x0⟩, ⟨0, 0, .ro, 0x0⟩]⟩,
   ⟨0x0F0100, 4, 0x2000, 64, 0x4, false, [⟨31, 29, .rw, 0x0⟩, ⟨28, 28, .rw, 0x0⟩, ⟨7, 7, .ro, 0x0⟩, ⟨6, 6, .rc, 0x0⟩, ⟨5, 5, .rc, 0x0⟩, ⟨4, 4, .ro, 0x0⟩, ⟨3, 3, .ro, 0x0⟩, ⟨2, 2, .ro, 0x0⟩, ⟨1, 1, .rc, 0x0⟩, ⟨0, 0, .ro, 0x0⟩]⟩]

/-- The registers of the ETH block. -/
def regsEth : List RegDef :=
  [⟨0x100000, 1, 0x4, 1, 0x4, false, [⟨28, 24, .rw, 0x0⟩, ⟨15, 0, .rws, 0x5F64⟩]⟩,
   ⟨0x100100, 4, 0x40, 1, 0x4, false, [⟨9, 9, .rws, 0x0⟩, ⟨8, 8, .rws, 0x0⟩, ⟨7, 6, .rws, 0x0⟩, ⟨5, 4, .rws, 0x0⟩, ⟨3, 2, .rws, 0x0⟩, ⟨0, 0, .rws, 0x0⟩]⟩,
   ⟨0x100104, 4, 0x40, 1, 0x4, false, [⟨31, 16, .rws, 0x0⟩, ⟨15, 0, .rws, 0x0⟩]⟩,
   ⟨0x100108, 4, 0x40, 1, 0x4, false, [⟨15, 13, .rws, 0x0⟩, ⟨11, 0, .rws, 0x0⟩]⟩,
   ⟨0x10010C, 4, 0x40, 1, 0x4, false, [⟨31, 0, .rws, 0x0⟩]⟩,
   ⟨0x100110, 4, 0x40, 1, 0x4, false, [⟨15, 0, .rws, 0x0⟩]⟩,
   ⟨0x100114, 4, 0x40, 1, 0x4, false, [⟨31, 0, .rws, 0x0⟩]⟩,
   ⟨0x100118, 4, 0x40, 4, 0x4, false, [⟨31, 0, .rws, 0x0⟩]⟩,
   ⟨0x100128, 4, 0x40, 1, 0x4, false, [⟨3, 3, .ro, 0x0⟩, ⟨2, 1, .ro, 0x0⟩, ⟨0, 0, .ro, 0x0⟩]⟩]

/-- The registers of the TIM block. -/
def regsTim : List RegDef :=
  [⟨0x110000, 1, 0x4, 1, 0x4, false, [⟨28, 24, .rw, 0x0⟩, ⟨1, 0, .rws, 0x0⟩]⟩,
   ⟨0x110004, 1, 0x4, 1, 0x4, false, [⟨31, 0, .ro, 0x0⟩]⟩,
   ⟨0x110008, 1, 0x4, 1, 0x4, false, [⟨31, 0, .ro, 0x0⟩]⟩,
   ⟨0x11000C, 1, 0x4, 1, 0x4, false, [⟨31, 0, .rws, 0x0⟩]⟩,
   ⟨0x110010, 1, 0x4, 1, 0x4, false, [⟨31, 0, .rws, 0x0⟩]⟩,
   ⟨0x110014, 1, 0x4, 1, 0x4, false, [⟨31, 0, .rws, 0x0⟩]⟩,
   ⟨0x110018, 1, 0x4, 1, 0x4, false, [⟨31, 0, .rws, 0x186A0⟩]⟩,
   ⟨0x11001C, 1, 0x4, 1, 0x4, false, [⟨31, 0, .rws, 0x3E8⟩]⟩,
   ⟨0x110020, 1, 0x4, 1, 0x4, false, [⟨31, 28, .rws, 0x4⟩, ⟨27, 0, .rws, 0x1F4⟩]⟩,
   ⟨0x110024, 1, 0x4, 1, 0x4, false, [⟨15, 8, .rws, 0x1⟩, ⟨7, 0, .rws, 0x0⟩]⟩,
   ⟨0x110028, 1, 0x4, 1, 0x4, false, [⟨31, 16, .rws, 0x80⟩, ⟨15, 0, .rws, 0x20⟩]⟩,
   ⟨0x11002C, 1, 0x4, 1, 0x4, false, [⟨4, 4, .ro, 0x0⟩, ⟨3, 3, .ro, 0x0⟩, ⟨2, 2, .ro, 0x0⟩, ⟨1, 1, .ro, 0x0⟩, ⟨0, 0, .ro, 0x0⟩]⟩,
   ⟨0x110030, 1, 0x4, 1, 0x4, false, [⟨7, 4, .rc, 0x0⟩, ⟨3, 3, .rc, 0x0⟩, ⟨2, 2, .rc, 0x0⟩, ⟨1, 1, .rc, 0x0⟩, ⟨0, 0, .rc, 0x0⟩]⟩,
   ⟨0x110034, 1, 0x4, 1, 0x4, false, [⟨31, 0, .ro, 0x0⟩]⟩,
   ⟨0x110038, 1, 0x4, 1, 0x4, false, [⟨31, 0, .ro, 0x0⟩]⟩,
   ⟨0x11003C, 1, 0x4, 1, 0x4, false, [⟨31, 0, .ro, 0x0⟩]⟩,
   ⟨0x110040, 4, 0x8, 1, 0x4, false, [⟨31, 0, .rw, 0x0⟩]⟩,
   ⟨0x110044, 4, 0x8, 1, 0x4, false, [⟨31, 0, .rw, 0x0⟩]⟩]

/-- The registers of the TRL block. -/
def regsTrl : List RegDef :=
  [⟨0x120000, 1, 0x4, 1, 0x4, false, [⟨28, 24, .rw, 0x0⟩, ⟨1, 1, .rws, 0x1⟩, ⟨0, 0, .rws, 0x1⟩]⟩,
   ⟨0x120004, 1, 0x4, 1, 0x4, false, [⟨31, 31, .ro, 0x0⟩, ⟨30, 30, .ro, 0x0⟩, ⟨29, 29, .ro, 0x0⟩, ⟨28, 28, .ro, 0x0⟩, ⟨27, 27, .ro, 0x0⟩, ⟨4, 0, .ro, 0x0⟩]⟩,
   ⟨0x120008, 1, 0x4, 1, 0x4, false, [⟨31, 0, .ro, 0x0⟩]⟩,
   ⟨0x12000C, 1, 0x4, 1, 0x4, false, [⟨31, 0, .ro, 0x0⟩]⟩,
   ⟨0x120010, 1, 0x4, 1, 0x4, false, [⟨31, 0, .ro, 0x0⟩]⟩,
   ⟨0x120014, 1, 0x4, 1, 0x4, false, [⟨31, 0, .ro, 0x0⟩]⟩,
   ⟨0x120018, 1, 0x4, 1, 0x4, false, [⟨31, 0, .rc, 0x0⟩]⟩,
   ⟨0x12001C, 1, 0x4, 1, 0x4, false, [⟨31, 0, .rc, 0x0⟩]⟩]

/-- The registers of the RED block. -/
def regsRed : List RegDef :=
  [⟨0x130000, 1, 0x4, 1, 0x4, false, [⟨28, 24, .rw, 0x0⟩, ⟨23, 20, .rws, 0x0⟩, ⟨12, 8, .rws, 0x0⟩, ⟨4, 4, .rws, 0x1⟩, ⟨1, 0, .rws, 0x0⟩]⟩,
   ⟨0x130008, 1, 0x4, 1, 0x4, false, [⟨11, 0, .rws, 0x12C⟩]⟩,
   ⟨0x13000C, 1, 0x4, 1, 0x4, false, [⟨31, 31, .ro, 0x0⟩, ⟨30, 30, .ro, 0x0⟩, ⟨29, 29, .ro, 0x0⟩, ⟨28, 28, .ro, 0x0⟩, ⟨27, 27, .ro, 0x0⟩, ⟨26, 26, .ro, 0x0⟩, ⟨25, 25, .ro, 0x0⟩, ⟨24, 24, .ro, 0x0⟩, ⟨1, 0, .ro, 0x0⟩]⟩,
   ⟨0x130010, 1, 0x4, 1, 0x4, false, [⟨15, 0, .ro, 0x0⟩]⟩,
   ⟨0x130014, 1, 0x4, 1, 0x4, false, [⟨5, 5, .rc, 0x0⟩, ⟨4, 4, .rc, 0x0⟩, ⟨3, 3, .rc, 0x0⟩, ⟨2, 2, .rc, 0x0⟩, ⟨1, 1, .rc, 0x0⟩, ⟨0, 0, .rc, 0x0⟩]⟩,
   ⟨0x130018, 1, 0x4, 1, 0x4, false, [⟨31, 0, .rc, 0x0⟩]⟩]

/-- The registers of the RTC block. -/
def regsRtc : List RegDef :=
  [⟨0x140000, 1, 0x4, 1, 0x4, false, [⟨28, 24, .rw, 0x0⟩, ⟨9, 0, .rwp, 0x0⟩]⟩,
   ⟨0x140004, 1, 0x4, 1, 0x4, false, [⟨31, 16, .rc, 0x0⟩, ⟨0, 0, .ro, 0x0⟩]⟩,
   ⟨0x140008, 1, 0x4, 1, 0x4, false, [⟨23, 16, .rwp, 0x0⟩, ⟨15, 8, .rwp, 0x1⟩, ⟨7, 0, .rwp, 0x1⟩]⟩,
   ⟨0x14000C, 1, 0x4, 1, 0x4, false, [⟨23, 16, .rwp, 0x0⟩, ⟨15, 8, .rwp, 0x0⟩, ⟨7, 0, .rwp, 0x0⟩]⟩,
   ⟨0x140010, 1, 0x4, 1, 0x4, false, [⟨3, 0, .rwp, 0x0⟩]⟩,
   ⟨0x140014, 1, 0x4, 1, 0x4, false, [⟨15, 0, .rwp, 0x0⟩]⟩,
   ⟨0x140018, 1, 0x4, 1, 0x4, false, [⟨31, 17, .ro, 0x0⟩, ⟨16, 12, .ro, 0x0⟩, ⟨11, 6, .ro, 0x0⟩, ⟨5, 0, .ro, 0x0⟩]⟩,
   ⟨0x14001C, 1, 0x4, 1, 0x4, false, [⟨31, 0, .ro, 0x6000101⟩]⟩,
   ⟨0x140020, 1, 0x4, 1, 0x4, false, [⟨31, 0, .ro, 0x0⟩]⟩,
   ⟨0x140024, 1, 0x4, 1, 0x4, false, [⟨31, 0, .ro, 0x0⟩]⟩,
   ⟨0x140028, 1, 0x4, 1, 0x4, false, [⟨10, 10, .rc, 0x0⟩, ⟨9, 9, .rc, 0x1⟩, ⟨8, 8, .rc, 0x0⟩, ⟨7, 7, .rc, 0x0⟩, ⟨6, 6, .rc, 0x0⟩, ⟨5, 5, .rc, 0x0⟩, ⟨4, 4, .rc, 0x0⟩, ⟨2, 2, .ro, 0x0⟩, ⟨1, 1, .ro, 0x1⟩, ⟨0, 0, .ro, 0x1⟩]⟩,
   ⟨0x14002C, 1, 0x4, 1, 0x4, false, [⟨31, 0, .rc, 0x0⟩]⟩,
   ⟨0x140030, 2, 0x10, 1, 0x4, false, [⟨31, 31, .rwp, 0x0⟩, ⟨29, 24, .rwp, 0x0⟩, ⟨18, 16, .rwp, 0x0⟩, ⟨15, 8, .rwp, 0x0⟩, ⟨7, 0, .rwp, 0x0⟩]⟩,
   ⟨0x140034, 2, 0x10, 1, 0x4, false, [⟨23, 16, .rwp, 0x0⟩, ⟨15, 8, .rwp, 0x0⟩, ⟨7, 0, .rwp, 0x0⟩]⟩]

/-- The registers of the PAV block. -/
def regsPav : List RegDef :=
  [⟨0x150000, 1, 0x4, 1, 0x4, false, [⟨28, 24, .rw, 0x0⟩, ⟨3, 2, .rws, 0x0⟩, ⟨1, 1, .rws, 0x1⟩, ⟨0, 0, .rws, 0x0⟩]⟩,
   ⟨0x150004, 1, 0x4, 1, 0x4, false, [⟨31, 16, .rc, 0x0⟩, ⟨0, 0, .ro, 0x0⟩]⟩,
   ⟨0x150008, 1, 0x4, 1, 0x4, false, [⟨15, 0, .rwp, 0x411B⟩]⟩,
   ⟨0x15000C, 1, 0x4, 1, 0x4, false, [⟨15, 0, .rwp, 0xFA⟩]⟩,
   ⟨0x150010, 1, 0x4, 1, 0x4, false, [⟨31, 16, .rwp, 0x4010⟩, ⟨15, 0, .rwp, 0xC8⟩]⟩,
   ⟨0x150014, 1, 0x4, 1, 0x4, false, [⟨31, 16, .rwp, 0x64⟩, ⟨15, 0, .rwp, 0x7D0⟩]⟩,
   ⟨0x150018, 1, 0x4, 1, 0x4, false, [⟨15, 0, .rwp, 0x190⟩]⟩,
   ⟨0x15001C, 1, 0x4, 1, 0x4, false, [⟨31, 16, .rws, 0x1400⟩, ⟨15, 0, .rws, 0x3C⟩]⟩,
   ⟨0x150020, 3, 0x4, 1, 0x4, false, [⟨15, 0, .rws, 0x0⟩]⟩,
   ⟨0x150030, 1, 0x4, 1, 0x4, false, [⟨31, 0, .ro, 0x0⟩]⟩,
   ⟨0x150034, 1, 0x4, 1, 0x4, false, [⟨31, 0, .ro, 0xFFFFFFFF⟩]⟩,
   ⟨0x150038, 1, 0x4, 1, 0x4, false, [⟨31, 0, .rc, 0x0⟩]⟩,
   ⟨0x15003C, 1, 0x4, 1, 0x4, false, [⟨31, 0, .rc, 0x0⟩]⟩,
   ⟨0x150100, 3, 0x80, 32, 0x4, false, [⟨15, 0, .rws, 0x0⟩]⟩]

/-- The registers of the GRN block. -/
def regsGrn : List RegDef :=
  [⟨0x160000, 1, 0x4, 1, 0x4, false, [⟨31, 31, .ro, 0x0⟩, ⟨30, 30, .ro, 0x0⟩, ⟨29, 29, .ro, 0x0⟩, ⟨28, 28, .ro, 0x0⟩, ⟨27, 27, .ro, 0x0⟩, ⟨6, 0, .ro, 0x0⟩]⟩,
   ⟨0x160004, 1, 0x4, 1, 0x4, false, [⟨31, 0, .ro, 0x0⟩]⟩,
   ⟨0x160008, 1, 0x4, 1, 0x4, false, [⟨31, 0, .ro, 0x0⟩]⟩,
   ⟨0x16000C, 1, 0x4, 1, 0x4, false, [⟨31, 0, .ro, 0x0⟩]⟩,
   ⟨0x160010, 1, 0x4, 1, 0x4, false, [⟨31, 0, .ro, 0x0⟩]⟩,
   ⟨0x160014, 1, 0x4, 1, 0x4, false, [⟨31, 0, .ro, 0x0⟩]⟩,
   ⟨0x160018, 1, 0x4, 1, 0x4, false, [⟨31, 16, .ro, 0x0⟩, ⟨15, 0, .rc, 0x0⟩]⟩,
   ⟨0x16001C, 1, 0x4, 1, 0x4, false, [⟨31, 0, .rc, 0x0⟩]⟩]

/-- The registers of the EVR block. -/
def regsEvr : List RegDef :=
  [⟨0x170000, 1, 0x4, 1, 0x4, false, [⟨31, 31, .ro, 0x0⟩, ⟨30, 30, .ro, 0x0⟩, ⟨15, 0, .ro, 0x0⟩]⟩,
   ⟨0x170004, 1, 0x4, 1, 0x4, false, [⟨31, 0, .ro, 0x0⟩]⟩,
   ⟨0x170008, 1, 0x4, 1, 0x4, false, [⟨31, 0, .ro, 0x0⟩]⟩]

/-- The registers of the SEC block. -/
def regsSec : List RegDef :=
  [⟨0x180000, 1, 0x4, 1, 0x4, false, [⟨28, 24, .rw, 0x0⟩, ⟨11, 0, .rws, 0x3C⟩]⟩,
   ⟨0x180004, 1, 0x4, 1, 0x4, false, [⟨31, 31, .ro, 0x0⟩, ⟨30, 30, .ro, 0x0⟩, ⟨29, 29, .ro, 0x0⟩, ⟨28, 28, .ro, 0x0⟩, ⟨8, 0, .ro, 0x0⟩]⟩,
   ⟨0x180008, 1, 0x4, 1, 0x4, false, [⟨31, 0, .ro, 0x0⟩]⟩,
   ⟨0x18000C, 1, 0x4, 1, 0x4, false, [⟨31, 0, .ro, 0x0⟩]⟩,
   ⟨0x180010, 1, 0x4, 1, 0x4, false, [⟨31, 0, .rc, 0x0⟩]⟩]

/-- The registers of the HLT block. -/
def regsHlt : List RegDef :=
  [⟨0x190000, 1, 0x4, 1, 0x4, false, [⟨28, 24, .rw, 0x0⟩, ⟨15, 0, .rws, 0x16D⟩]⟩,
   ⟨0x190008, 1, 0x4, 1, 0x4, false, [⟨31, 16, .rws, 0x7D0⟩, ⟨15, 0, .rws, 0x190⟩]⟩,
   ⟨0x19000C, 1, 0x4, 1, 0x4, false, [⟨6, 6, .ro, 0x0⟩, ⟨5, 0, .ro, 0x0⟩]⟩,
   ⟨0x190040, 1, 0x4, 1, 0x4, false, [⟨31, 0, .ro, 0xFFFFFFFF⟩]⟩,
   ⟨0x190044, 1, 0x4, 1, 0x4, false, [⟨31, 0, .ro, 0x0⟩]⟩,
   ⟨0x190100, 6, 0x8, 1, 0x4, false, [⟨31, 0, .ro, 0x0⟩]⟩,
   ⟨0x190104, 6, 0x8, 1, 0x4, false, [⟨31, 0, .ro, 0xFFFFFFFF⟩]⟩]

/-- The registers of the IOX block. -/
def regsIox : List RegDef :=
  [⟨0x1A0000, 1, 0x4, 1, 0x4, false, [⟨28, 24, .rw, 0x0⟩, ⟨0, 0, .rws, 0x0⟩]⟩,
   ⟨0x1A0004, 1, 0x4, 1, 0x4, false, [⟨2, 0, .ro, 0x0⟩]⟩,
   ⟨0x1A0008, 1, 0x4, 1, 0x4, false, [⟨31, 0, .rc, 0x0⟩]⟩,
   ⟨0x1A0100, 8, 0x8, 1, 0x4, false, [⟨15, 0, .rws, 0x0⟩]⟩,
   ⟨0x1A0104, 8, 0x8, 1, 0x4, false, [⟨15, 0, .ro, 0x0⟩]⟩,
   ⟨0x1A0200, 16, 0x10, 1, 0x4, false, [⟨31, 31, .rws, 0x0⟩, ⟨30, 30, .rws, 0x0⟩, ⟨29, 29, .rws, 0x0⟩, ⟨28, 28, .rws, 0x0⟩, ⟨23, 0, .rws, 0x10⟩]⟩,
   ⟨0x1A0204, 16, 0x10, 1, 0x4, false, [⟨23, 0, .ro, 0x0⟩]⟩,
   ⟨0x1A0400, 96, 0x4, 1, 0x4, false, [⟨7, 6, .rws, 0x0⟩, ⟨5, 5, .rws, 0x0⟩, ⟨4, 3, .rws, 0x0⟩, ⟨2, 2, .rws, 0x0⟩, ⟨1, 1, .rws, 0x0⟩]⟩,
   ⟨0x1A0600, 3, 0x4, 1, 0x4, false, [⟨31, 0, .rw, 0x0⟩]⟩,
   ⟨0x1A0610, 3, 0x4, 1, 0x4, false, [⟨31, 0, .ro, 0x0⟩]⟩,
   ⟨0x1A0700, 16, 0x8, 1, 0x4, false, [⟨31, 31, .rws, 0x0⟩, ⟨9, 8, .rws, 0x0⟩, ⟨7, 0, .rws, 0x0⟩]⟩,
   ⟨0x1A0704, 16, 0x8, 1, 0x4, false, [⟨31, 0, .ro, 0x0⟩]⟩,
   ⟨0x1A0800, 8, 0x8, 1, 0x4, false, [⟨31, 31, .rws, 0x0⟩, ⟨30, 30, .rws, 0x0⟩, ⟨29, 29, .rws, 0x0⟩]⟩,
   ⟨0x1A0804, 8, 0x8, 1, 0x4, false, [⟨31, 16, .rws, 0x64⟩, ⟨15, 0, .rws, 0x64⟩]⟩,
   ⟨0x1A0880, 8, 0x4, 1, 0x4, false, [⟨31, 16, .rc, 0x0⟩, ⟨15, 0, .ro, 0x0⟩]⟩]

/-- The whole register map, in ascending offset of the blocks (R80). -/
def regTable : List RegDef :=
  regsSys ++ regsCfg ++ regsRing ++ regsBud ++ regsPlc ++ regsThr ++ regsClp ++ regsCle ++ regsAdc ++ regsMtr ++ regsCan ++ regsEth ++ regsTim ++ regsTrl ++ regsRed ++ regsRtc ++ regsPav ++ regsGrn ++ regsEvr ++ regsSec ++ regsHlt ++ regsIox

/-- Whether offset `o` is a register of the family, and which instance. -/
def RegDef.index (r : RegDef) (o : Nat) : Option (Nat × Nat) :=
  if o < r.base then none else
  let d := o - r.base
  let i := if r.n1 ≤ 1 then 0 else min (d / r.s1) (r.n1 - 1)
  let e := d - r.s1 * i
  let j := if r.n2 ≤ 1 then 0 else e / r.s2
  if e = r.s2 * j ∧ j < r.n2 then some (i, j) else none

/-- The row of the map that holds offset `o`, searched in the given rows. -/
def findReg : List RegDef → Nat → Option RegDef
  | [], _ => none
  | r :: rs, o => if (r.index o).isSome then some r else findReg rs o

/-- The rows of the block whose pages hold offset `o`. -/
def blockRows (o : Nat) : List RegDef :=
  match o / 0x10000 with
  | 0 => regsSys
  | 1 => regsCfg
  | 2 => regsRing
  | 4 => regsBud
  | 5 => regsPlc
  | 6 => regsThr
  | 7 => regsThr
  | 8 => regsClp
  | 9 => regsClp
  | 10 => regsCle
  | 11 => regsCle
  | 12 => regsAdc
  | 13 => regsMtr
  | 14 => regsCan
  | 15 => regsCan
  | 16 => regsEth
  | 17 => regsTim
  | 18 => regsTrl
  | 19 => regsRed
  | 20 => regsRtc
  | 21 => regsPav
  | 22 => regsGrn
  | 23 => regsEvr
  | 24 => regsSec
  | 25 => regsHlt
  | 26 => regsIox
  | _ => []

/-- The fields of the register at offset `o` (R80), if a register of the map stands there. -/
def regFields (o : Nat) : Option (List Fld) := (findReg (blockRows o) o).map (·.fields)

/-- The block of pages that hold registers under R80; the page at 0x0003_0000 and everything from 0x001B_0000 on
are unimplemented. -/
def pageImplemented (o : Nat) : Bool := decide (o / 0x10000 ≤ 26) && decide (o / 0x10000 ≠ 3)

/-- Offsets without a named register that are reserved (RK): those of every block whose chapter says so, the doorbell
tail of R44 and, in the BUD block, the tail of each class. SYS, CFG and the rest of BUD and RING have no such rule. -/
def offsetReserved (o : Nat) : Bool :=
  pageImplemented o &&
  (match o / 0x10000 with
   | 0 => false
   | 1 => false
   | 2 => decide (o % 0x10000 < 0x1000)
   | 4 => decide (0x100 ≤ o % 0x10000 ∧ o % 0x10000 < 0x300)
   | _ => true)

/-- Whether a register, named or reserved, stands at the offset (R81). -/
def offsetImplemented (o : Nat) : Bool := (regFields o).isSome || offsetReserved o

end Sys2Proof.Machine
end

