-- ==== Sys2Proof/Machine/StateCore.lean ====
section
/-!
DEFINITION. The state of the command interface, the registers, the modes and the boot code
(spec/01_architecture.md, 02_command_interface.md, 03_registers.md, 04_modes_boot_recovery.md).
-/

namespace Sys2Proof.Machine

/-- The eight modes (R93). -/
inductive Mode
  | backup | boot | provision | config | standby | run | hold | service
  deriving DecidableEq, Repr, Inhabited

/-- The mode code (R93). -/
def Mode.code : Mode → Nat
  | .backup => 0 | .boot => 1 | .provision => 2 | .config => 3
  | .standby => 4 | .run => 5 | .hold => 6 | .service => 7

/-- The mode of a code 0–7. -/
def Mode.ofCode : Nat → Mode
  | 0 => .backup | 1 => .boot | 2 => .provision | 3 => .config
  | 4 => .standby | 5 => .run | 6 => .hold | _ => .service

/-- RING_n_STATE.STATE (R44). -/
inductive RingSt
  | disabled | active | stopped | resetting
  deriving DecidableEq, Repr, Inhabited

/-- The field code of a ring state. -/
def RingSt.code : RingSt → Nat
  | .disabled => 0 | .active => 1 | .stopped => 2 | .resetting => 3

/-- A completion (R63). PHASE is laid in when it is written. -/
structure Cpl where
  tag : Word
  status : Nat
  detail : Nat
  more : Bool
  doneTime : Nat
  r0 : Nat
  r1 : Nat
  r2 : Nat
  r3 : Nat
  notify : Bool
  deriving DecidableEq, Repr, Inhabited

/-- What the last fetched entry of a ring left for the next one when it had CHAIN set (R58): the command, and, once
it has completed, whether it completed with a status of 0x0010 or above. -/
structure ChainLink where
  id : Nat
  failed : Option Bool
  deriving DecidableEq, Repr, Inhabited

/-- One ring pair: the doorbell block (R44), its bases and interrupt settings (R71), kept completions (R47) (log 129). -/
structure Ring where
  sqTail : Nat
  cqHead : Nat
  sqHead : Nat
  cqTail : Nat
  phase : Bool
  st : RingSt
  loc : Bool
  cls : Nat
  log2 : Nat
  badDb : Bool
  cqFull : Bool
  xferErr : Bool
  dbDropped : Bool
  sqBase : Nat
  cqBase : Nat
  modUs : Nat
  intMode : Nat
  kept : List Cpl
  lost : Bool           -- stopped by a Function Level Reset and not configured since (R41)
  lastMsg : Option Nat  -- time of the last MSI-X message of the ring (R59)
  msgDue : Bool         -- a completion waits for the moderation time to end
  failing : Bool        -- its next completion write fails (R49)
  link : Option ChainLink
  filled : Nat          -- entries from SQ_HEAD on that packet rows have placed (the model's own; log 129)
  deriving DecidableEq, Repr, Inhabited

/-- A ring after reset: all pointers 0, PHASE 1, DISABLED (R44). -/
def Ring.reset : Ring :=
  { sqTail := 0, cqHead := 0, sqHead := 0, cqTail := 0, phase := true, st := .disabled, loc := false, cls := 0,
    log2 := 0, badDb := false, cqFull := false, xferErr := false, dbDropped := false, sqBase := 0, cqBase := 0,
    modUs := 0, intMode := 0, kept := [], lost := false, lastMsg := none, msgDue := false, failing := false, link := none,
    filled := 0 }

/-- The depth D of a ring (R42). -/
def Ring.depth (r : Ring) : Nat := if r.log2 = 0 then 0 else 2 ^ r.log2

/-- Where a fetched command stands: waiting for its launch time (R60), or started and not completed. An entry that FENCE,
CHAIN or ring order holds back is not fetched yet (log 129). -/
inductive CmdPhase
  | waiting | active
  deriving DecidableEq, Repr, Inhabited

/-- A command fetched and not yet completed. `id` is the fetch order over all rings. -/
structure Cmd where
  id : Nat
  pkt : Pkt
  phase : CmdPhase
  cls : Nat             -- the class in force at the start (R52)
  ringless : Bool       -- a mirrored command of the partner: no completion is written (R416)
  deriving DecidableEq, Repr, Inhabited

/-- The PCI Express configuration space: identity (R38), Base Address Registers 0–5 (R39), the MSI-X enable bit (log 31, 130). -/
structure PcieCfg where
  vendorId : Nat
  deviceId : Nat
  revisionId : Nat
  classCode : Nat
  subVendorId : Nat
  subsystemId : Nat
  bars : List Word
  maxPayload : Nat     -- Max_Payload_Size, bytes
  maxRead : Nat        -- Max_Read_Request_Size, bytes
  aspmL1 : Bool        -- ASPM L1 enabled
  msixOn : Bool        -- MSI-X enabled
  deriving DecidableEq, Repr, Inhabited

/-- Its reset values: the identity table of R38; Base Address Registers 0 (64-bit, non-prefetchable) and 2 (64-bit,
prefetchable) with 1 and 3 their upper halves, 4 and 5 not implemented (R39); no address assigned, sizes of the PCI rules,
MSI-X on (log 31, 130). -/
def PcieCfg.reset : PcieCfg :=
  { vendorId := 0x1FB3, deviceId := 0x9420, revisionId := 0xB1, classCode := 0x118000, subVendorId := 0x1FB3,
    subsystemId := 0x9420, bars := [0x4, 0, 0xC, 0, 0, 0], maxPayload := 128, maxRead := 512, aspmL1 := false, msixOn := true }

/-- A transfer of the host through Base Address Register 2 that its class holds: device address, bytes, the data of a write (R40)
(log 38). -/
structure Bar2Req where
  addr : Nat
  len : Nat
  data : Option (List Byte)
  deriving DecidableEq, Repr, Inhabited

/-- Rings, commands and interrupts (02_command_interface.md). -/
structure CmdSt where
  pcie : PcieCfg
  bar2 : List Bar2Req           -- transfers through Base Address Register 2 that class 15 holds (R30, R157)
  rings : SMap Ring
  cmds : List Cmd
  nextId : Nat
  resetting : List (Nat × Nat × Nat)  -- RING_RESET commands waiting for step 4: (command id, ring, cancelled)
  msix : SMap Word              -- MSI-X table words by index 4 × vector + word (R38)
  pba : SMap Bool               -- pending bits of masked vectors
  sent : List Nat               -- vectors of the messages sent, newest first (R59, R73)
  counters : SMap DWord         -- GET_COUNTERS values at 0x1000 × group + index (R70)
  snaps : List Nat              -- READ_STATE commands that wait for the snapshot of a boundary (R115)
  spiBusy : Bool
  spiErr : Bool
  spiWrite : Option (Nat × List Byte)  -- a WRITE accepted and not landed (R77)
  lastRead : List Byte          -- the data the last read returned to its requester
  deriving DecidableEq, Repr, Inhabited

/-- The MSI-X table after reset: every vector masked (PRESUMED, the PCI rule; log 31). -/
def msixReset : SMap Word := (List.range 72).map (fun v => (4 * v + 3, (1 : Word)))

/-- After reset: every ring disabled, no command in flight. -/
def CmdSt.reset : CmdSt :=
  { pcie := PcieCfg.reset, bar2 := [], rings := [], cmds := [], nextId := 0, resetting := [], msix := msixReset, pba := [], sent := [], counters := [],
    snaps := [], spiBusy := false, spiErr := false, spiWrite := none, lastRead := [] }

/-- The registers of Base Address Register 0 by offset (R80–R92): present values (shadows of RWS and RWP fields),
applied values, landed values of posted fields, posting buffers. -/
structure RegSt where
  present : SMap (Option Word)
  applied : SMap (Option Word)
  landed : SMap (Option Word)
  post : SMap (Option (Nat × Word))   -- by posting block: the accepted write that has not landed (R88)
  passOld : SMap (List Word)          -- guarded words changed during this pass without a strobe: the values before each change
  passRestart : Bool                  -- the pass that is running started after the last CFG_COMMIT action 0b11
  deriving DecidableEq, Repr, Inhabited

/-- After reset: every register at its reset value. -/
def RegSt.reset : RegSt := { present := [], applied := [], landed := [], post := [], passOld := [], passRestart := true }

/-- A SET_MODE waiting for its frame boundary (R101). -/
structure ModeReq where
  target : Mode
  cmd : Nat
  notBefore : Nat
  deriving DecidableEq, Repr, Inhabited

/-- A pending frame-length change (R20). -/
structure FrameNew where
  len : Nat
  effect : Nat
  deriving DecidableEq, Repr, Inhabited

/-- Mode, frame sequencer, reference, supplies and boot (01, 04, 23). -/
structure SysSt where
  mode : Mode
  prevMode : Mode
  holdCause : Nat
  own : Bool                 -- the device drives OWN_N low
  degraded : Bool
  seqOn : Bool               -- the frame sequencer runs (R29)
  frameLen : Nat
  frameNew : Option FrameNew
  lastBoundary : Option Nat  -- the multiple of L at which the last boundary fired
  modeReq : Option ModeReq
  pfail : Bool               -- PFAIL_N latched and not released
  refPresent : Bool
  resetLow : Bool            -- RESET_N is asserted
  refSel : Bool              -- straps as sampled (R16)
  bootSel : Bool
  prot : SMap Byte           -- the Protection Table in force (R113)
  fwVersion : Nat
  secVersion : Nat
  rollback : Nat             -- fused rollback floor (R110), 0–32
  fwBody : List Byte         -- BODY_HASH of the firmware image started (R109)
  nor : List Byte            -- contents of the external xSPI NOR (R109)
  bootPaused : Bool          -- a boot self-test waits for PFAIL_N to release (R100)
  deriving DecidableEq, Repr, Inhabited

/-- After a power-on reset, RESET_N still low (log 17, 19). -/
def SysSt.reset : SysSt :=
  { mode := .boot, prevMode := .backup, holdCause := 0, own := false, degraded := false, seqOn := false,
    frameLen := 1000000, frameNew := none, lastBoundary := none, modeReq := none, pfail := false, refPresent := true,
    resetLow := true, refSel := false, bootSel := false, prot := [], fwVersion := 0, secVersion := 0, rollback := 0,
    fwBody := [], nor := [], bootPaused := false }

end Sys2Proof.Machine
end

