-- ==== Sys2Proof/Machine/StateGran.lean ====
section
/-!
DEFINITION. The state of the Granary journal and the event recorder (spec/19_granary_recorder.md R428–R445).
-/

namespace Sys2Proof.Machine

/-- What a completed command returns once its record has committed: command, STATUS and results (R431). -/
structure JDone where
  cmd : Nat
  status : Nat
  r0 : Nat
  r1 : Nat
  r2 : Nat
  r3 : Nat
  deriving DecidableEq, Repr, Inhabited

/-- An append accepted and not yet committed. `key` tells items of one TYPE apart (a slot, a cluster);
`data` is the item as its owner gives it, and `len` the payload bytes. -/
structure JReq where
  type : Nat
  key : Nat
  data : List Nat
  len : Nat
  done : Option JDone
  reserve : Bool          -- may use the reserve of R432
  since : Option Nat      -- waits for space since this time (R432)
  deriving DecidableEq, Repr, Inhabited

/-- A committed journal record (R429). -/
structure JRec where
  seq : Nat
  pos : Nat
  size : Nat
  time : Nat
  type : Nat
  key : Nat
  data : List Nat
  deriving DecidableEq, Repr, Inhabited

/-- Every persistent item by 0x10_0000 × TYPE + key, as the last record left it. -/
abbrev Persist := SMap (List Nat)

/-- A checkpoint (R434, R435). -/
structure Ckpt where
  gen : Nat
  sc : Nat
  pos : Nat
  valid : Bool
  items : Persist
  time : Nat
  blocks : List Nat
  deriving DecidableEq, Repr, Inhabited

/-- The three steps of a checkpoint in progress: being written, or its marker waiting to commit (R435). -/
structure CkptRun where
  ck : Ckpt
  marker : Bool
  cmd : Option Nat
  deriving DecidableEq, Repr, Inhabited

/-- An event record (R437); `data` holds the items its owner names. -/
structure EvRec where
  number : Nat
  source : Nat
  code : Nat
  form : Nat
  time : Nat
  rtc : Nat
  mode : Nat
  data : List Byte
  deriving DecidableEq, Repr, Inhabited

/-- An event that waits for the recorder (R439, R441), with the EVR_LOG command that it completes. -/
structure EvReq where
  source : Nat
  code : Nat
  time : Nat
  data : List Byte
  cmd : Option Nat
  deriving DecidableEq, Repr, Inhabited

/-- Granary and recorder (log 15). -/
structure GranSt where
  formatted : Bool
  recs : List JRec             -- retained records, oldest first
  nextSeq : Nat
  nextPos : Nat
  queue : List JReq            -- accepted appends, first in first out
  items : Persist              -- persistent items as the last committed record left them
  ckA : Option Ckpt
  ckB : Option Ckpt
  ckRun : Option CkptRun
  lastCkptStart : Nat
  fallback : Bool
  pfailCommit : Bool
  refuse : Bool                -- appends refused after step 4 of R433
  fwA : List Byte              -- firmware slots of the NAND (R109, R428)
  fwB : List Byte
  fwBusy : Option (Nat × Nat × List Byte)  -- GRN_FW_WRITE in progress: command, slot, image
  fwWrites : Nat               -- writes done
  erase : SMap Nat             -- NAND erase counts by block
  mramWrites : SMap Nat        -- bytes written to MRAM by area (0 superblock, 1 recorder, 2 ring)
  retired : SMap Nat           -- retired NAND block ↦ 1 + its replacement
  evr : List EvRec             -- records held, oldest first
  evFull : Bool
  evq : List EvReq
  recDirty : Bool              -- recorder state changed since it was last appended
  recTime : Option Nat         -- time of its last append
  deriving DecidableEq, Repr, Inhabited

/-- An unformatted Granary (R112): what a unit holds before its first start. -/
def GranSt.reset : GranSt :=
  { formatted := false, recs := [], nextSeq := 1, nextPos := 0, queue := [], items := [], ckA := none, ckB := none,
    ckRun := none, lastCkptStart := 0, fallback := false, pfailCommit := false, refuse := false,
    fwA := [], fwB := [], fwBusy := none, fwWrites := 0, erase := [], mramWrites := [], retired := [], evr := [], evFull := false,
    evq := [], recDirty := false, recTime := none }

end Sys2Proof.Machine
end

