-- ==== Sys2Proof/Machine/StateMtr.lean ====
section
/-!
DEFINITION. The state of electrical and heat metering (spec/16_metering.md R362–R385).
-/

namespace Sys2Proof.Machine

/-- What corrects a channel: OFFSET, SCALE, PHCAL and the gain of the band in force (R363, R368). -/
structure ChanCal where
  offset : Nat
  scale : Nat
  phcal : Nat
  gain : Nat
  deriving DecidableEq, Repr, Inhabited

/-- A power-quality event still open: end of the window that started it, extreme RMS (binary64). -/
structure PqOpen where
  kind : Nat
  start : Nat
  extreme : Nat
  deriving DecidableEq, Repr, Inhabited

/-- One phase (R364–R368, R375). Times are of the time base; voltages binary64. -/
structure Phase where
  start : Nat             -- start of the open cycle
  genuine : Bool          -- it began at an accepted crossing
  negRun : Nat            -- consecutive samples below 0 before the next one
  prevT : Nat             -- the newest sample looked at for crossings
  prevX : Nat
  lastCross : Option Nat
  lastT : Nat             -- duration of the last cycle, 0 before there is one
  halfDone : Bool         -- the half-cycle window of the open cycle has been evaluated
  band : Nat
  q : List Nat            -- corrected quantities of the last cycle, kinds 0–5
  dip : Option PqOpen     -- sag or interruption
  dipOver : Bool          -- an interruption ended within a dip that has not
  swell : Option PqOpen
  zx : Option PqOpen
  deriving DecidableEq, Repr, Inhabited

/-- A phase before metering starts. -/
def Phase.reset : Phase :=
  { start := 0, genuine := false, negRun := 0, prevT := 0, prevX := 0, lastCross := none, lastT := 0, halfDone := false,
    band := 0, q := [0, 0, 0, 0, 0, 0], dip := none, dipOver := false, swell := none, zx := none }

/-- An accumulator (R369, R370): value, wrap count, binary64 residue. -/
structure Accum where
  value : Nat
  wraps : Nat
  residue : Nat
  deriving DecidableEq, Repr, Inhabited

def Accum.zero : Accum := ⟨0, 0, 0⟩

/-- A heat coefficient table (R374), binary32 words. -/
structure HeatTable where
  theta0 : Nat
  step : Nat
  k : List Nat
  deriving DecidableEq, Repr, Inhabited

/-- A frame of a circuit that has been captured and not computed (R373). -/
structure HeatJob where
  c : Nat
  t : Nat
  tp : Nat
  pulses : Nat
  sup : Nat
  ret : Nat
  deriving DecidableEq, Repr, Inhabited

/-- A metering event record (R376). -/
structure PqRec where
  kind : Nat
  phase : Nat
  byPfail : Bool
  seq : Nat
  start : Nat
  duration : Nat
  extreme : Nat           -- binary32
  deriving DecidableEq, Repr, Inhabited

/-- A pulse output owned by metering (R377): residue R, due instants of queued pulses, restored pulses, the accumulator
in force. -/
structure MtrPulse where
  r : Nat
  queue : List Nat
  restored : Nat
  acc : Nat
  deriving DecidableEq, Repr, Inhabited

def MtrPulse.zero : MtrPulse := ⟨0, [], 0, 0⟩

/-- A value of source 2 or 3 that waits for the capture: source, index, raw, end of its interval. -/
structure MtrVal where
  source : Nat
  index : Nat
  raw : Nat
  ts : Nat
  deriving DecidableEq, Repr, Inhabited

/-- The meter. `hist` holds samples newest first: time, eight codes. `cal` holds per channel what corrected it since
when, newest first. `lastSave` is what the newest committed save or final delta left. -/
structure MtrSt where
  on : Bool
  lastTick : Nat
  hist : List (Nat × List Int)
  cal : SMap (List (Nat × ChanCal))
  phases : List Phase
  total : List Nat
  tempTick : Nat
  accs : SMap Accum
  temps : SMap (Nat × Nat)
  tables : SMap (Option HeatTable)
  staged : SMap (Option HeatTable)
  jobs : List HeatJob
  taken : SMap Nat          -- pulses of the running frame that a power failure closed, by circuit (R380)
  vals : List MtrVal
  fifo : List PqRec
  evSeq : Nat
  waits : List (Nat × Nat × Nat)
  po : SMap MtrPulse
  seq : Nat
  saveTick : Nat
  lastSave : SMap Nat
  lastSeq : Nat
  lastRtc : Nat
  presets : List (Nat × Nat × List Nat)  -- MTR_PRESET commands whose save has not committed: command, first, values
  pfailed : Bool            -- a final delta has been latched and PFAIL_N has not released
  deriving DecidableEq, Repr

def MtrSt.reset : MtrSt :=
  { on := false, lastTick := 0, hist := [], cal := [], phases := [Phase.reset, Phase.reset, Phase.reset],
    total := [0, 0, 0, 0, 0, 0], tempTick := 0, accs := [], temps := [], tables := [], staged := [], jobs := [],
    taken := [], vals := [], fifo := [], evSeq := 0, waits := [], po := [], seq := 0, saveTick := 0, lastSave := [],
    lastSeq := 0, lastRtc := 0, presets := [], pfailed := false }

/-- A time moved by a step of the time base. -/
def shiftT (by_ : Int) (t : Nat) : Nat := ((t : Int) + by_).toNat

/-- A step of the time base moves the instants of the open cycles with it: durations are not changed by it. -/
def MtrSt.shift (by_ : Int) (m : MtrSt) : MtrSt :=
  let ev (o : Option PqOpen) : Option PqOpen := o.map (fun e => { e with start := shiftT by_ e.start })
  { m with
    hist := m.hist.map (fun h => (shiftT by_ h.1, h.2))
    cal := m.cal.map (fun kv => (kv.1, kv.2.map (fun c => (shiftT by_ c.1, c.2))))
    phases := m.phases.map (fun x =>
      { x with start := shiftT by_ x.start, prevT := shiftT by_ x.prevT, lastCross := x.lastCross.map (shiftT by_),
               dip := ev x.dip, swell := ev x.swell, zx := ev x.zx })
    po := m.po.map (fun kv => (kv.1, { kv.2 with queue := kv.2.queue.map (shiftT by_) })) }

end Sys2Proof.Machine
end

