-- ==== Sys2Proof/Machine/StatePav.lean ====
section
/-!
DEFINITION. The state of the panel driver, the real-time clock and the health monitors (spec/21_pavilion_display.md
R462–R474, spec/22_rtc_health.md R475–R493).
-/

namespace Sys2Proof.Machine

/-- The line timing of a panel frame (R463). -/
structure PanelTiming where
  hTotal : Nat
  vTotal : Nat
  gateOn : Nat
  gateOff : Nat
  phStart : Nat
  phT : Nat
  phGuard : Nat
  deriving DecidableEq, Repr, Inhabited

/-- The timing of the reset values. -/
def PanelTiming.reset : PanelTiming := ⟨16667, 250, 200, 16400, 400, 2000, 100⟩

/-- The panel driver. Pixels by 320y + x, counters by 3(320y + x) + c. `line` is the next line of the panel frame;
`driven` the column codes of the last line, by subpixel column. -/
structure PavSt where
  buf0 : SMap Nat
  buf1 : SMap Nat
  front : Nat
  flip : Option Nat               -- the PAV_FLIP that waits
  draws : List Nat                -- PAV_DRAW commands that wait for the exchange
  timing : PanelTiming            -- timing taken up
  ages : List Nat                 -- AGE_c taken up
  start : Nat                     -- tick of the last panel frame start
  line : Nat
  frames : Nat                    -- panel frames started since reset
  driven : List Nat
  stress : SMap Nat
  residue : SMap Nat
  lastFlip : Nat
  lastStress : Nat                -- time base of the last hourly record
  stressTick : Nat                -- tick of it
  maxima : List (List Nat)        -- S_max of the last hourly records, newest first, at most 25
  presets : List (Nat × Nat × List Nat)  -- PAV_STRESS_PRESET commands whose record has not committed
  deriving DecidableEq, Repr

/-- After reset: both buffers zero (R466). -/
def PavSt.reset : PavSt :=
  { buf0 := [], buf1 := [], front := 0, flip := none, draws := [], timing := PanelTiming.reset, ages := [0, 0, 0], start := 0,
    line := 0, frames := 0, driven := [], stress := [], residue := [], lastFlip := 0, lastStress := 0, stressTick := 0,
    maxima := [], presets := [] }

/-- An alarm in force (R480). -/
structure RtcAlarm where
  en : Bool
  mask : Nat
  weekday : Nat
  month : Nat
  day : Nat
  hour : Nat
  minute : Nat
  second : Nat
  deriving DecidableEq, Repr, Inhabited

/-- A disabled alarm. -/
def RtcAlarm.off : RtcAlarm := ⟨false, 0, 0, 0, 0, 0, 0, 0⟩

/-- The real-time clock. The calendar is RTC seconds. RTC_STAT holds its flags. -/
structure RtcSt where
  secs : Nat
  frac : Nat                      -- tick of the last second increment or commit
  commit : Option Nat             -- tick of the last date-and-time commit (R478)
  alarms : SMap RtcAlarm
  trim : Nat                      -- s10 pattern taken up
  cycles : Int                    -- 32.768 kHz cycles inserted less those dropped (R479)
  onVbat : Bool
  key : Option Nat                -- tick at which 0x00A5 landed (R483)
  sets : List (Nat × Nat × Int)   -- RTC_SET from the time base: command, instant, UTC offset
  due : List (Nat × List Nat)     -- events found in BACKUP: CODE and data (R480)
  deriving DecidableEq, Repr, Inhabited

/-- After an always-on reset (R484). -/
def RtcSt.reset : RtcSt := ⟨0, 0, none, [], 0, 0, false, none, [], []⟩

/-- A health record (R487): w by monitor, RTC seconds, OSC_STOP, pace-domain seconds of service. -/
structure HealthRec where
  w : List Nat
  rtc : Nat
  osc : Bool
  service : Nat
  deriving DecidableEq, Repr, Inhabited

/-- Health monitors: records kept, oldest first; gains; the load test in progress with the command that waits for it. -/
structure HltSt where
  recs : List HealthRec
  count : Nat                     -- records taken
  gains : List Int
  vo : Nat
  vl : Nat
  testAt : Option Nat             -- tick at which the load test in progress started
  test : Option Nat
  lastTick : Nat
  service : Nat                   -- service seconds before this start
  deriving DecidableEq, Repr, Inhabited

/-- No record. -/
def HltSt.reset : HltSt := ⟨[], 0, [0, 0, 0, 0, 0, 0], 0, 0, none, none, 0, 0⟩

end Sys2Proof.Machine
end

