-- ==== Sys2Proof/Machine/StateSilo.lean ====
section
/-!
DEFINITION. The state of the Silo (spec/20_silo_security.md R446–R461).
-/

namespace Sys2Proof.Machine

/-- Slot states (R460). -/
inductive SlotState
  | empty | ready | failed | expired
  deriving DecidableEq, Repr, Inhabited

/-- The code of a slot state (R460). -/
def SlotState.code : SlotState → Nat
  | .empty => 0 | .ready => 1 | .failed => 2 | .expired => 3

/-- A slot. The key is the XOR of the two shares (R450): 32 bytes for types 1 and 2; for type 3 the 32-byte seed in
the low half and the 16-byte identifier above it. `pub` is the public key of type 4; `image` the ISV-7100 image of a
COMPAT slot. -/
structure Slot where
  attr : Nat
  expiry : Nat
  state : SlotState
  share0 : BitVec 512
  share1 : BitVec 512
  next : Nat
  height : Nat
  uses : Nat
  pub : List Byte
  image : List Byte
  deriving DecidableEq, Repr, Inhabited

/-- An empty slot. -/
def Slot.none : Slot := ⟨0, 0, .empty, 0, 0, 0, 0, 0, [], []⟩

/-- A signing command (R455): SEC_SIGN with its digest or SEC_ATTEST with its report, waiting, journaled with its
index, or with that record committed and the signature being computed. -/
structure SignReq where
  cmd : Nat
  slot : Nat
  buf : Nat
  attest : Bool
  data : List Byte
  index : Option Nat
  committed : Bool
  deriving DecidableEq, Repr, Inhabited

/-- The Silo (log 3, 55). -/
structure SiloSt where
  slots : SMap Slot
  rootShare0 : BitVec 512
  rootShare1 : BitVec 512
  rootOk : Bool
  sealedRoot : Option (BitVec 256)   -- the root as the Granary superblock holds it, sealed (R449)
  drbg : Nat                         -- DRBG requests since manufacture
  requests : Nat                     -- requests since the last reseed (R453)
  trngFail : Bool
  signq : List SignReq
  deletes : List (Nat × Nat)         -- SEC_DELETE commands waiting for a slot in use: (command, slot)
  noise : Nat                        -- masks drawn from the noise source
  noiseFlag : Bool                   -- always-on: the noise source failed in BACKUP (R450)
  expired : List Nat                 -- slots that were EXPIRED before the last reset (R448)
  lost : Nat                         -- committed leaf indices that a reset left unused, counted at the next start (R455)
  deriving DecidableEq, Repr, Inhabited

/-- A Silo before PROVISION (log 18). -/
def SiloSt.reset : SiloSt :=
  { slots := [], rootShare0 := 0, rootShare1 := 0, rootOk := false, sealedRoot := Option.none, drbg := 0,
    requests := 0, trngFail := false, signq := [], deletes := [], noise := 0, noiseFlag := false, expired := [], lost := 0 }

end Sys2Proof.Machine
end

