-- ==== Sys2Proof/Machine/StateTrl.lean ====
section
/-!
DEFINITION. The state of the Trellis chain and of a redundant pair
(spec/18_trellis_redundancy.md R403–R427; the inputs of R193 that other units give).
-/

namespace Sys2Proof.Machine

/-- Another unit of the chain: its latest health report (R410), its misses (R407), and what placement and splits take
from it: the latched H and G of its own placement (R193) and, by slot, whether it holds the same image (R201). `fresh`
says that its report of the present frame has arrived or has been counted as missed (log 95). -/
structure Peer where
  report : List Byte
  present : Bool
  fresh : Bool
  misses : Nat
  h : Nat
  g : Nat
  images : Nat
  deriving DecidableEq, Repr, Inhabited

/-- A unit never heard of. -/
def Peer.none : Peer := ⟨[], false, false, 0, 0, 0, 0⟩

/-- A launch entry removed in STANDBY and kept as a continuation (R421). -/
structure Continuation where
  key : Nat             -- CAN buffer or substation field it belongs to
  time : Nat
  kind : Nat
  target : Nat          -- fire instant
  index : Nat
  value : Nat
  deriving DecidableEq, Repr, Inhabited

/-- Trellis and redundancy, beyond TRL_STAT, RED_STAT and RED_EVENT, which the register tables hold (log 152). -/
structure TrlSt where
  peers : SMap Peer
  own : List Byte              -- the unit's own latest report
  reported : Bool              -- firmware has written the report of the present frame (R414)
  lease : Bool                 -- the ownership lease holds
  enumInLow : Bool             -- ENUM_IN reads low
  enumOutLow : Bool            -- ENUM_OUT has gone low (R405)
  marked : Bool                -- a time mark has arrived since reset (R408)
  markOut : Option (Nat × Bool)  -- the last time mark sent: departure time, STEP
  downVec : Bool               -- vector 70 was raised for the present loss of UP_LINK
  stepDue : Option Int         -- an unflagged jump to step at the next boundary
  fault : Bool                 -- FAULT is declared (R422)
  failover : Option Nat        -- RED_FAILOVER command that completes at the cut-off
  takeoverAt : Option Nat
  lastTakeover : Nat
  lastHandover : Nat
  handoverAt : Option Nat      -- T_h of a handover by this unit
  revertAt : Option Nat        -- T_h at which this unit takes the outputs back
  released : Bool              -- the outputs were released for a handover
  awaitRun : Option Nat        -- T_h after which the reverting partner has to report RUN
  revertReq : Bool
  healthyFrom : Option Nat     -- the condition of R423 has held since
  syncedLast : Bool            -- SYNCED at the boundary that ended the last report received
  imageReq : Bool              -- a sync image is requested (R418)
  imageDone : Bool
  runsUntil : Nat              -- end of the last run the primary started before T_s
  resync : List Nat            -- RED_RESYNC commands
  stepsWait : Option (Capture × SMap Nat)  -- steps 2 and 3 wait for the fast part: capture, frozen setpoints (R416)
  items : Option (List MirrorItem)         -- the unit's own items of the frame while its bulk part is awaited
  bulks : List BulkPart        -- bulk parts kept until the sync image arrives
  raHeld : List (Nat × Nat × Nat)  -- resolved periods waiting for the primary's outcome: n, failures, first (R275)
  conts : List Continuation
  pairCrc : Nat                -- PAIR_CRC as taken at the boundary of the frame (R417)
  mirrored : List (Nat × Nat)  -- mirrored commands not completed: id, class of the primary's ring
  shareOut : Option ShareDone  -- the last completion of a share reported over Trellis (R203)
  accepted : List MirrorCmd    -- mirrored commands that this unit accepted in the present frame, in order (R415, R416)
  mirrorOut : Option (FastPart × BulkPart)  -- the last mirror sent to the acting standby (R416)
  avail : Option Nat           -- the partner's availability mask as the mirror carries it (R193, R415)
  deriving DecidableEq, Repr

/-- Trellis after reset. -/
def TrlSt.reset : TrlSt :=
  { peers := [], own := [], reported := false, lease := true, enumInLow := false, enumOutLow := false, marked := false,
    markOut := none, downVec := false, stepDue := none, fault := false, failover := none, takeoverAt := none,
    lastTakeover := 0, lastHandover := 0, handoverAt := none, revertAt := none, released := false, awaitRun := none,
    revertReq := false, healthyFrom := none, syncedLast := false, imageReq := false, imageDone := false, runsUntil := 0,
    resync := [], stepsWait := none, items := none, bulks := [], raHeld := [], conts := [], pairCrc := 0, mirrored := [], shareOut := none,
    accepted := [], mirrorOut := none, avail := none }

end Sys2Proof.Machine
end

