-- ==== Sys2Proof/Machine/State.lean ====
section
/-!
DEFINITION. The state of the block: `Dev` is everything the spec gives the device, one field per chapter, plain data;
`State` adds the queue of waiting commands. Fault and Refusal are the two ways a step could stop.
-/

namespace Sys2Proof.Machine

/-- The device. `mem` holds DRAM, Loft, cluster stores and the Trellis windows by device address, and host memory by
2^48 + host bus address; `wr` is the write log of the command in progress, newest first (empty between commands). -/
structure Dev where
  sys : SysSt
  cmd : CmdSt
  rg : RegSt
  mem : List Host.Cell
  wr : List (Nat × Byte)
  tim : TimCore
  grn : GranSt
  mdl : ModelSt
  pln : PlanSt
  thr : ThrSt
  plc : PlcSt
  shf : List SheafRun
  lsq : LsqSt
  ra : RaSt
  lch : LaunchSt
  sec : SiloSt
  trl : TrlSt
  cap : Capture
  clp : ClpSt
  cle : CleSt
  adc : AdcSt
  iox : IoxSt
  mtr : MtrSt
  can : CanSt
  pav : PavSt
  rtc : RtcSt
  hlt : HltSt
  deriving DecidableEq, Repr

/-- The device right after reset (State.reset) (log 16). -/
def Dev.reset : Dev :=
  { sys := SysSt.reset, cmd := CmdSt.reset, rg := RegSt.reset, mem := [], wr := [], tim := TimCore.reset,
    grn := GranSt.reset, mdl := ModelSt.reset, pln := PlanSt.reset, thr := ThrSt.reset, plc := PlcSt.reset, shf := [],
    lsq := LsqSt.reset, ra := RaSt.reset, lch := LaunchSt.reset, sec := SiloSt.reset, trl := TrlSt.reset,
    cap := Capture.none, clp := ClpSt.reset, cle := CleSt.reset, adc := AdcSt.reset, iox := IoxSt.reset,
    mtr := MtrSt.reset, can := CanSt.reset, pav := PavSt.reset, rtc := RtcSt.reset, hlt := HltSt.reset }

/-- The block: the device and the queue of commands that wait, first in, first out (log 16). -/
structure State where
  dev : Dev
  pending : List Instr
  deriving DecidableEq, Repr

/-- The block right after a power-on reset, its queue empty (log 4, 17). -/
def State.reset : State := { dev := Dev.reset, pending := [] }

/-- Reasons a step can stop with a fault. There is none: every command of the table has an effect in every state. -/
inductive Fault
  deriving DecidableEq, Repr

/-- Reasons a step can be refused. -/
inductive Refusal
  /-- Raised by an arm of exec whose command has no meaning yet. Safe: the model stops where the hardware goes on. -/
  | notModelled (mnemonic : String)
  deriving DecidableEq, Repr

end Sys2Proof.Machine
end

