-- ==== Sys2Proof/Machine/Ops.lean ====
section
/-!
DEFINITION. The named operations over memory, registers, time, counters, interrupts, the recorder and the journal
(spec/01_architecture.md R33–R37, spec/02_command_interface.md R59, R70–R75, spec/03_registers.md R80–R88,
spec/19_granary_recorder.md R431–R439).
-/

namespace Sys2Proof.Machine

/-! ### Memory -/

/-- What an unlisted address reads as (log 14). -/
def memDefault : Byte := 0

/-- The canonical form of memory: addresses strictly rising, no listed zero. -/
abbrev Memory.wf (m : List Host.Cell) : Bool := smWf memDefault m

/-- The first entry of a key in the write log. -/
def logFind : List (Nat × Byte) → Nat → Option Byte
  | [], _ => none
  | (k, b) :: l, a => if k = a then some b else logFind l a

/-- One byte by memory key: the command's own stores first, then memory (log 14). -/
def rdB (d : Dev) (a : Nat) : Byte :=
  match logFind d.wr a with
  | some b => b
  | none => smGet memDefault d.mem a

/-- One byte stored by memory key. -/
def wrB (d : Dev) (a : Nat) (b : Byte) : Dev := { d with wr := (a, b) :: d.wr }

/-- The stores of a finished command, oldest first, applied to memory. -/
def memCommit (m : List Host.Cell) (log : List (Nat × Byte)) : List Host.Cell :=
  log.foldr (fun kb acc => smSet memDefault acc kb.1 kb.2) m

/-! ### Register values -/

/-- The reset word of the fields of a register. -/
def fieldsReset (fs : List Fld) : Nat := fs.foldl (fun acc f => acc + f.reset <<< f.lo) 0

/-- Reset values that depend on the instance: PAV_WEIGHT (2,048(k + 1) − 1), the fused MAC addresses (R510),
IF_MODE of ports 2 and 3 (R333). -/
def regResetSpecial (o : Nat) : Option Word :=
  if Reg.pavWeight 0 0 ≤ o ∧ o < Reg.pavWeight 3 0 ∧ o % 4 = 0 then
    some (u32 (2048 * ((o - Reg.pavWeight 0 0) % 0x80 / 4 + 1) - 1))
  else if o % 0x40 = 0x0C ∧ Reg.ethMacLo 0 ≤ o ∧ o ≤ Reg.ethMacLo 3 then
    some (u32 (Config.baseMac.toNat + (o - Reg.ethMacLo 0) / 0x40))
  else if o % 0x40 = 0x10 ∧ Reg.ethMacHi 0 ≤ o ∧ o ≤ Reg.ethMacHi 3 then
    some (u32 ((Config.baseMac.toNat + (o - Reg.ethMacHi 0) / 0x40) >>> 32))
  else if o = Reg.ethCfg 2 ∨ o = Reg.ethCfg 3 then some 8
  else none

/-- The value of the register at `o` after reset, RK bits 0 (log 16). -/
def regReset (o : Nat) : Word :=
  match regResetSpecial o with
  | some w => w
  | none =>
    match regFields o with
    | some fs => u32 (fieldsReset fs)
    | none => 0

/-- Read one of the three register tables, whose unlisted entries hold the reset value. -/
def regTab (m : SMap (Option Word)) (o : Nat) : Word :=
  match smGet none m o with
  | some w => w
  | none => regReset o

/-- Store into a register table, in its canonical form. -/
def regTabSet (m : SMap (Option Word)) (o : Nat) (w : Word) : SMap (Option Word) :=
  smSet none m o (if w = regReset o then none else some w)

/-- The present value of a register (its shadow, for RWS and RWP fields). -/
def regP (d : Dev) (o : Nat) : Nat := (regTab d.rg.present o).toNat
/-- The applied value of a register. -/
def regA (d : Dev) (o : Nat) : Nat := (regTab d.rg.applied o).toNat
/-- The landed value of a posted register. -/
def regL (d : Dev) (o : Nat) : Nat := (regTab d.rg.landed o).toNat
/-- Store the present value. -/
def setP (o v : Nat) (d : Dev) : Dev := { d with rg.present := regTabSet d.rg.present o (u32 v) }
/-- Store the applied value. -/
def setA (o v : Nat) (d : Dev) : Dev := { d with rg.applied := regTabSet d.rg.applied o (u32 v) }
/-- Store the landed value. -/
def setL (o v : Nat) (d : Dev) : Dev := { d with rg.landed := regTabSet d.rg.landed o (u32 v) }
/-- A field of a present value. -/
def fld (d : Dev) (o hi lo : Nat) : Nat := bits (regP d o) hi lo
/-- A field of an applied value. -/
def fldA (d : Dev) (o hi lo : Nat) : Nat := bits (regA d o) hi lo
/-- Store a field of a present value. -/
def setF (o hi lo v : Nat) (d : Dev) : Dev := setP o (putBits (regP d o) hi lo v) d
/-- Count in a field, modulo its width (R83). -/
def addF (o hi lo n : Nat) (d : Dev) : Dev := setF o hi lo (fld d o hi lo + n) d
/-- Set flag bits of a register. -/
def orP (o mask : Nat) (d : Dev) : Dev := setP o (regP d o ||| mask) d
/-- Store present and applied value: firmware writes a configuration register and its strobe in one. -/
def setPA (o v : Nat) (d : Dev) : Dev := setA o v (setP o v d)

/-! ### Time and counters -/

/-- The time base in ns (R6, R321). -/
def now (d : Dev) : Nat := (d.tim.acc >>> 32) % 2 ^ 64

/-- TIM_STAT.VALID. -/
def timeValid (d : Dev) : Bool := fld d Reg.timStat 0 0 = 1

/-- The key of a GET_COUNTERS value. -/
def ctrKey (g i : Nat) : Nat := 0x1000 * g + i

/-- A GET_COUNTERS value (R70). -/
def ctr (d : Dev) (g i : Nat) : DWord := smGet 0 d.cmd.counters (ctrKey g i)

/-- Counter i of group g rises by n, modulo 2⁶⁴ (log 57). -/
def bump (g i n : Nat) (d : Dev) : Dev :=
  { d with cmd.counters := smSet 0 d.cmd.counters (ctrKey g i) (ctr d g i + u64 n) }

/-! ### Interrupts (R59, R73, R74) -/

/-- The vector is masked in the MSI-X table (bit 0 of its fourth word). -/
def msixMasked (d : Dev) (v : Nat) : Bool := (smGet 0 d.cmd.msix (4 * v + 3)).toNat % 2 = 1

/-- An MSI-X message, or its pending bit while the vector is masked; nothing while MSI-X is off (log 31). -/
def msixSend (v : Nat) (d : Dev) : Dev :=
  if !d.cmd.pcie.msixOn then d
  else if msixMasked d v then { d with cmd.pba := smSet false d.cmd.pba v true }
  else bump 0 5 1 { d with cmd.sent := v :: d.cmd.sent }

/-- An event of vector 64–71: its SYS_EVENT bit and its message (R74). -/
def raiseVec (v : Nat) (d : Dev) : Dev := msixSend v (orP Reg.sysEvent (1 <<< (v - 64)) d)

/-! ### Device addresses (R33–R37) -/

/-- First address of the Loft. -/
def loftBase : Nat := 0x1000000000
/-- First address of the mailbox (R43). -/
def mailboxBase : Nat := 0x1001FFE000
/-- First key of host memory in `mem` (log 15). -/
def hostKey : Nat := 2 ^ 48

/-- The unit's Trellis address (TRL_STAT.ADDR). -/
def ownAddr (d : Dev) : Nat := fld d Reg.trlStat 4 0
/-- ADDR_CONFLICT (R406). -/
def addrConflict (d : Dev) : Bool := fld d Reg.trlStat 31 31 = 1
/-- A field of another unit's latest report. -/
def repF (p : Peer) (o n : Nat) : Nat := fieldLE p.report o n
/-- Another unit's record. -/
def peerOf (d : Dev) (a : Nat) : Peer := smGet Peer.none d.trl.peers a
/-- The address of this unit's partner (R411). -/
def partnerAddr (d : Dev) : Nat := fldA d Reg.redCtl 12 8
/-- RED_STAT.PAIRED. -/
def paired (d : Dev) : Bool := fld d Reg.redStat 31 31 = 1
/-- LEN_MISMATCH: this unit's frame length differs from the head's (R409) (log 94). -/
def lenMismatch (d : Dev) : Bool := fld d Reg.trlStat 29 29 = 1

/-- HOST_BASE (R34) (log 34). -/
def hostBase (d : Dev) : Nat := regA d Reg.sysHostBaseHi <<< 32 + regA d Reg.sysHostBaseLo

/-- The cluster record of a physical number. -/
def clusterOf (d : Dev) (n : Nat) : Cluster := d.thr.clusters.getD n default

/-- Where a device address leads: a memory key, a register of the mirror, or nowhere. -/
inductive Target
  | key (k : Nat) | reg (o : Nat) | none
  deriving DecidableEq, Repr

/-- The memory behind an operand-0 buffer of run-ahead (R267, R269): buffer 0 is that of the result region after
reset, buffers 1–4 those of tentative windows 0–3; four more, in the device data area, hold periods in COMMIT_WAIT and what the
current period keeps (log 75). -/
def opBuf (b : Nat) : Nat :=
  if b = 0 then 0x34000000 else if b < 5 then 0x38000000 + (b - 1) * 0x2000000 else 0x28000000 + (b - 5) % 4 * 0x2000000

/-- The number of the present run-ahead period (R258). -/
def curPeriod (d : Dev) : Nat :=
  let f := (d.sys.lastBoundary.getD 0) / d.sys.frameLen
  (f - d.ra.anchor) / d.ra.plen

/-- The period that tentative window k shows (R267). -/
def windowPeriod (d : Dev) (k : Nat) : Option Period :=
  d.ra.periods.find? (fun p => !p.commitWait && decide (p.n = curPeriod d + k + 1))

/-- Where an address of the result region or of a tentative window leads (R267): windows move with the periods, the
input history is one memory, and operand 0 moves with a commit. -/
def tentTarget (d : Dev) (a : Nat) : Nat :=
  if 0x34000000 ≤ a ∧ a < 0x35000000 then opBuf d.ra.resBuf + (a - 0x34000000)
  else if 0x38000000 ≤ a ∧ a < 0x40000000 then
    let k := (a - 0x38000000) / 0x2000000
    let o := (a - 0x38000000) % 0x2000000
    if 0x1C00000 ≤ o ∧ o < 0x1C80000 then 0x38000000 + o
    else match windowPeriod d k with
      | some p => if o < 0x1000000 then opBuf p.buf + o else opBuf (p.slot + 1) + o
      | none => a
  else a

/-- The unit's own memory by the offsets of a Trellis window, or its own map (R33, R35): DRAM, Loft, stores. -/
def ownTarget (d : Dev) (a : Nat) : Target :=
  if a < 0x200000000 then .key (tentTarget d a)
  else if 0x1000000000 ≤ a ∧ a < 0x1002000000 then .key a
  else if 0x1100000000 ≤ a ∧ a < 0x1100000000 + 34 * 0x100000 then
    (if (clusterOf d ((a - 0x1100000000) / 0x100000)).state = 2 then .none else .key a)
  else .none

/-- The address map of R33 with R34–R36 (log 15). -/
def target (d : Dev) (a : Nat) : Target :=
  if 0x2000000000 ≤ a ∧ a < 0x2002000000 then .reg (a - 0x2000000000)
  else if 0x4000000000 ≤ a ∧ a < 0x8000000000 then
    .key (hostKey + (hostBase d + (a - 0x4000000000)) % 2 ^ 64)
  else if 0x8400000000 ≤ a ∧ a < 0xC400000000 then
    let u := (a - 0x8000000000) / 0x400000000
    let o := (a - 0x8000000000) % 0x400000000
    if ownAddr d = 0 ∨ fld d Reg.trlStat 31 31 = 1 then .none   -- R35, R406
    else
      let own : Option Nat :=
        if o < 0x200000000 then some o
        else if o < 0x202000000 then some (loftBase + (o - 0x200000000))
        else if 0x300000000 ≤ o ∧ o < 0x300000000 + 34 * 0x100000 then some (0x1100000000 + (o - 0x300000000))
        else none
      match own with
      | none => .none
      | some b => if u = ownAddr d then ownTarget d b else .key a
  else ownTarget d a

/-- The first address above `a` at which the kind of region can change: the end of its 1 MiB unit. -/
def regionStep (a : Nat) : Nat := (a / 0x100000 + 1) * 0x100000

/-- Whether every address of [a, e) is mapped, region by region. -/
def mappedTo (d : Dev) : Nat → Nat → Nat → Bool
  | 0, _, _ => true
  | n + 1, a, e =>
    if e ≤ a then true
    else match target d a with
      | .none => false
      | _ => mappedTo d n (regionStep a) e

/-- Whether the bytes a to a + len − 1 are mapped (R37, R53). -/
def mapped (d : Dev) (a len : Nat) : Bool := mappedTo d (len / 0x100000 + 2) a (a + len)

/-- The words a command reads through the register mirror stand in the write log above this key while it runs, -/
def mirrorIn : Nat := 2 ^ 66
/-- and the bytes it writes there above this one, until they are performed as register writes. -/
def mirrorOut : Nat := 2 ^ 67

/-- Bytes by device address; unmapped ones read 0 here. -/
def rdBytes (d : Dev) : Nat → Nat → List Byte
  | _, 0 => []
  | a, n + 1 =>
    (match target d a with
     | .key k => rdB d k
     | .reg o => rdB d (mirrorIn + o)
     | .none => 0) :: rdBytes d (a + 1) n

/-- Bytes stored by device address; those that fall on nothing change nothing. -/
def wrBytes (a : Nat) : List Byte → Dev → Dev
  | [], d => d
  | b :: bs, d =>
    wrBytes (a + 1) bs
      (match target d a with
       | .key k => wrB d k b
       | .reg o => wrB d (mirrorOut + o) b
       | .none => d)

/-- A little-endian number of `n` bytes at a device address. -/
def rdLE (d : Dev) (a n : Nat) : Nat := leNat (rdBytes d a n)
/-- A little-endian number stored at a device address. -/
def wrLE (a n v : Nat) (d : Dev) : Dev := wrBytes a (leBytes n v) d

/-! ### Packets -/

/-- Parameter word k of a packet. -/
def param (p : Pkt) : Nat → Nat
  | 0 => p.p0.toNat | 1 => p.p1.toNat | 2 => p.p2.toNat | 3 => p.p3.toNat
  | 4 => p.p4.toNat | 5 => p.p5.toNat | 6 => p.p6.toNat | _ => p.p7.toNat

/-- A 64-bit parameter at words k and k + 1 (R51). -/
def param64 (p : Pkt) (k : Nat) : Nat := param p k + param p (k + 1) <<< 32

/-- The buffer address. -/
def bufA (p : Pkt) : Nat := p.bufAddr.toNat
/-- The buffer length. -/
def bufL (p : Pkt) : Nat := p.bufLen.toNat
/-- The ring number. -/
def ringN (p : Pkt) : Nat := p.ring.val

/-- A ring. -/
def ringOf (d : Dev) (n : Nat) : Ring := smGet Ring.reset d.cmd.rings n
/-- A ring is replaced. -/
def setRing (n : Nat) (r : Ring) (d : Dev) : Dev := { d with cmd.rings := smSet Ring.reset d.cmd.rings n r }
/-- A ring is changed. -/
def modRing (n : Nat) (f : Ring → Ring) (d : Dev) : Dev := setRing n (f (ringOf d n)) d

/-- The mode mask bit of the present mode. -/
def modeIn (d : Dev) (mask : Nat) : Bool := bitAt mask d.sys.mode.code

end Sys2Proof.Machine
end

