-- ==== Sys2Proof/Machine/Budget.lean ====
section
/-!
DEFINITION. Activity-class budgets within a frame: charging, ceilings and pauses
(spec/01_architecture.md R30–R32, spec/06_plans_static_schedule.md R155–R158).
-/

namespace Sys2Proof.Machine

/-- The currencies (R31). -/
inductive Currency
  | steps | beats | mgmt
  deriving DecidableEq, Repr

/-- The currencies R30 gives a class. -/
def hasCurrency (c : Nat) : Currency → Bool
  | .steps => decide (c = 3 ∨ c = 4 ∨ c = 5 ∨ c = 13)
  | .beats => true
  | .mgmt => decide (c = 0 ∨ (6 ≤ c ∧ c ≤ 11))

/-- The budget of a class in force; open while no frame plan is in force (R32). -/
def budgetOf (d : Dev) (c : Nat) : ClassBudget :=
  match d.pln.fp with
  | some fp => fp.classes.getD c ClassBudget.open
  | none => ClassBudget.open

/-- The applied step floor, after any cut (R158). -/
def stepFloor (d : Dev) (c : Nat) : Nat := (budgetOf d c).steps.floor - smGet 0 d.pln.cuts c

/-- The ceiling in a currency. -/
def ceilOf (d : Dev) (c : Nat) : Currency → Nat
  | .steps => (budgetOf d c).steps.ceil
  | .beats => (budgetOf d c).beats.ceil
  | .mgmt => (budgetOf d c).mgmt.ceil

/-- The register that counts a currency of a class in the frame. -/
def usedReg (c : Nat) : Currency → Nat
  | .steps => Reg.budStepsUsed c
  | .beats => Reg.budBeatsUsed c
  | .mgmt => Reg.budMgmtUsed c

/-- The code of a currency in PAUSED_BY. -/
def Currency.code : Currency → Nat
  | .steps => 1 | .beats => 2 | .mgmt => 3

/-- Whether the class is paused until the next boundary. -/
def classPaused (d : Dev) (c : Nat) : Bool := fld d (Reg.budClsStat c) 1 1 = 1

/-- Whether the class has reached its ceiling in a currency R30 gives it (R157); 0xFFFF_FFFF is no ceiling. -/
def atCeil (d : Dev) (c : Nat) (x : Currency) : Bool :=
  hasCurrency c x && decide (ceilOf d c x ≠ 0xFFFFFFFF) && decide (ceilOf d c x ≤ regP d (usedReg c x))

/-- The class does no more work in this frame: paused, or at a ceiling in some currency, a ceiling of 0 from its start (R157). -/
def classStops (d : Dev) (c : Nat) : Bool := classPaused d c || [Currency.steps, .beats, .mgmt].any (atCeil d c)

/-- Work of the class meets a ceiling: the class pauses until the next boundary; the first pause of a frame counts
(R32, R157). -/
def meetCeil (c : Nat) (d : Dev) : Dev :=
  if classPaused d c then d
  else
    match [Currency.steps, .beats, .mgmt].find? (atCeil d c) with
    | none => d
    | some x =>
      bump 3 (4 + c) 1 (addF (Reg.budPauses c) 31 0 1
        (setF (Reg.budClsStat c) 7 6 x.code (setF (Reg.budClsStat c) 1 1 1
          { d with pln.pauses := smSet 0 d.pln.pauses c (smGet 0 d.pln.pauses c + 1) })))

/-- Work of a class consumes budget, and the class pauses when it reaches a ceiling (R32, R157). -/
def charge (c : Nat) (x : Currency) (n : Nat) (d : Dev) : Dev :=
  if hasCurrency c x then meetCeil c (addF (usedReg c x) 31 0 n d) else d

/-- How much of what is left of a piece of work fits below a ceiling of its class, where a unit of it costs `per` (R157)
(log 8). -/
def roomFor (d : Dev) (c : Nat) (x : Currency) (per left : Nat) : Nat :=
  if ceilOf d c x = 0xFFFFFFFF then left else min left (ceilDiv (ceilOf d c x - regP d (usedReg c x)) per)

/-- Beats of a class left below its ceiling. -/
def beatsLeft (d : Dev) (c : Nat) : Nat := ceilOf d c .beats - regP d (Reg.budBeatsUsed c)

/-- 64-byte beats of a transfer (R31). -/
def beatsOf (bytes : Nat) : Nat := ceilDiv bytes 64

/-- 64-byte units that an access of n bytes at a touches (R31). -/
def beatsAt (a n : Nat) : Nat := beatsOf (a % 64 + n)

/-- Budgets renew at a boundary: consumption and pauses restart (R32). -/
def renewBudgets (d : Dev) : Dev :=
  (List.range 16).foldl (fun d c =>
    setP (Reg.budStepsUsed c) 0 (setP (Reg.budBeatsUsed c) 0 (setP (Reg.budMgmtUsed c) 0
      (setF (Reg.budClsStat c) 7 6 0 (setF (Reg.budClsStat c) 1 1 0 d))))) d

end Sys2Proof.Machine
end

