-- ==== Sys2Proof/Machine/Record.lean ====
section
/-!
DEFINITION. Events reach the recorder and items reach the journal (spec/19_granary_recorder.md R429–R433, R437–R439).
-/

namespace Sys2Proof.Machine

/-! ### Recorder and journal (R431, R432, R437–R439) -/

/-- A clear of the recorder is in progress (R441) (log 102). -/
def clearing (d : Dev) : Bool := d.grn.queue.any (fun r => r.type = 12)

/-- The class of the recorder is paused by its ceiling (R439). -/
def recorderPaused (d : Dev) : Bool := classStops d 11

/-- The FORM of records written in the present mode (R438). -/
def evForm (d : Dev) : Nat :=
  match d.sys.mode with
  | .config | .standby | .run | .hold => 1
  | _ => 2

/-- An event is lost: EVR_LOST counts it (R439). -/
def evLose (d : Dev) : Dev :=
  bump 0xF 10 1 (addF Reg.evrLost 31 0 1 { d with grn.recDirty := true })

/-- An event becomes a record, or is lost when the recorder is full (R439). -/
def evWrite (e : EvReq) (d : Dev) : Dev :=
  if d.grn.evFull then evLose d
  else
    let n := d.grn.evr.length
    let r : EvRec :=
      { number := n, source := e.source, code := e.code, form := evForm d, time := e.time, rtc := d.rtc.secs,
        mode := d.sys.mode.code, data := sliceB e.data 0 32 }
    bump 0xF 9 1 <| charge 11 .mgmt Config.recordUs.toNat
      { d with grn.evr := d.grn.evr ++ [r], grn.evFull := decide (n + 1 = 32768),
               grn.mramWrites := smSet 0 d.grn.mramWrites 1 (smGet 0 d.grn.mramWrites 1 + 64) }

/-- An event reaches the recorder: written at once, or queued while class 11 is paused or a clear is in progress;
one that finds 64 waiting is lost (R439, R441). -/
def recordEvent (source code : Nat) (data : List Byte) (cmd : Option Nat) (d : Dev) : Dev :=
  let e : EvReq := ⟨source, code, if timeValid d then now d else 0, data, cmd⟩
  if recorderPaused d || clearing d || !d.grn.evq.isEmpty then
    (let d1 := if recorderPaused d then meetCeil 11 d else d
     if d1.grn.evq.length < 64 then { d1 with grn.evq := d1.grn.evq ++ [e] } else evLose d1)
  else evWrite e d

/-- An event whose CODE and DATA layout the owning chapter leaves open: `kind` numbers the model's
events of a source (log 46). -/
def event (source kind : Nat) (items : List Nat) (d : Dev) : Dev :=
  recordEvent source (Config.eventCode (256 * source + kind)).toNat
    (leBytes 32 (Config.eventData (256 * source + kind) items).toNat) none d

/-- Ring bytes of a record with `len` payload bytes (R429) (log 96). -/
def jSize (len : Nat) : Nat := roundUp (0x20 + len) 64

/-- The payload lengths of the records of an item: one, or the chunks of a chunked one (R430). -/
def jChunks (type len : Nat) : List Nat :=
  if type = 5 ∨ type = 6 ∨ type = 7 ∨ type = 11 then
    let n := max 1 (ceilDiv len 65464)
    (List.range n).map (fun i => 8 + min 65464 (len - 65464 * i))
  else [len]

/-- Ring bytes of an item. -/
def jBytes (type len : Nat) : Nat := (jChunks type len).foldl (fun n l => n + jSize l) 0

/-- Size of the journal ring (R428). -/
def jRing : Nat := 14272 * 1024
/-- The reserve of R432 (log 99). -/
def jReserve : Nat := 256 * 1024

/-- S_c of the older valid checkpoint, from which the ring retains records (R432). -/
def olderSc (g : GranSt) : Nat :=
  let a := match g.ckA with | some c => if c.valid then some c.sc else none | none => none
  let b := match g.ckB with | some c => if c.valid then some c.sc else none | none => none
  match a, b with
  | some x, some y => min x y
  | some x, none => x
  | none, some y => y
  | none, none => 0

/-- Bytes of the ring retained. -/
def retainedBytes (g : GranSt) : Nat := g.recs.foldl (fun n r => n + r.size) 0

/-- Bytes of appends accepted and not committed. -/
def queuedBytes (g : GranSt) : Nat := g.queue.foldl (fun n r => n + jBytes r.type r.len) 0

/-- An item is handed to the journal (R431, R432). An append that would enter the reserve waits for space, RING_FULL
and vector 69 saying so; after step 4 of a power-fail commit appends are refused (R433): one that a command waits for
stays waiting, any other is dropped (log 97). -/
def journal (type key : Nat) (data : List Nat) (len : Nat) (done : Option JDone) (reserve : Bool) (d : Dev) : Dev :=
  let full := !reserve && decide (jRing - jReserve < retainedBytes d.grn + queuedBytes d.grn + jBytes type len)
  let r : JReq := ⟨type, key, data, len, done, reserve, if full || d.grn.refuse then some (now d) else none⟩
  let d1 := { d with grn.queue := d.grn.queue ++ [r] }
  if d.grn.refuse then (if done.isSome then d1 else d)
  else if full then bump 0xF 5 1 (addF Reg.grnWaitCnt 31 0 1 (raiseVec 69 d1))
  else d1

end Sys2Proof.Machine
end

