-- ==== Sys2Proof/Machine/Packet.lean ====
section
/-!
DEFINITION. Fetch, acceptance, order and completion of command packets
(spec/02_command_interface.md R45–R65, R69; spec/04_modes_boot_recovery.md R113, R114).
-/

namespace Sys2Proof.Machine

/-! ### Status codes (R65) -/

def stOk : Nat := 0x0000
def stPartial : Nat := 0x0001
def stRegularised : Nat := 0x0002
def stCold : Nat := 0x0003
def stBadOpcode : Nat := 0x0010
def stBadParam : Nat := 0x0011
def stConflict : Nat := 0x0012
def stNotPermitted : Nat := 0x0013
def stNotAuth : Nat := 0x0014
def stBudget : Nat := 0x0015
def stNoPlacement : Nat := 0x0016
def stStructure : Nat := 0x0017
def stSquashed : Nat := 0x0018
def stCancelled : Nat := 0x0019
def stDeadline : Nat := 0x001A
def stSuppressed : Nat := 0x001B
def stMedia : Nat := 0x0020
def stIntegrity : Nat := 0x0021
def stSignature : Nat := 0x0022
def stNumeric : Nat := 0x0023
def stBusy : Nat := 0x0030
def stInternal : Nat := 0x00FF

/-- The outcome of a command: STATUS, DETAIL and results (R63). -/
structure Res where
  status : Nat
  detail : Nat
  r0 : Nat
  r1 : Nat
  r2 : Nat
  r3 : Nat
  deriving DecidableEq, Repr, Inhabited

/-- OK with results. -/
def ok (r0 r1 r2 r3 : Nat) : Res := ⟨stOk, 0, r0, r1, r2, r3⟩
/-- A refusal without results. -/
def refuse (status detail : Nat) : Res := ⟨status, detail, 0, 0, 0, 0⟩
/-- BAD_PARAM at a packet offset, or with a chapter's code (R55). -/
def badParam (detail : Nat) : Res := refuse stBadParam detail
/-- STATE_CONFLICT by the mode: the mask of modes that accept the command (R54). -/
def conflictMode (d : Dev) (mask : Nat) : Res := ⟨stConflict, d.sys.mode.code, mask, 0, 0, 0⟩
/-- STATE_CONFLICT by the object's state: the mask of modes that accept the command, the present mode's bit among them,
and the object-state code (R54) (log 44). -/
def conflictObj (d : Dev) (mask code : Nat) : Res :=
  ⟨stConflict, d.sys.mode.code, mask ||| 1 <<< d.sys.mode.code, code, 0, 0⟩
/-- The low half of a 64-bit result. -/
def lo32 (v : Nat) : Nat := v % 2 ^ 32
/-- The high half of a 64-bit result. -/
def hi32 (v : Nat) : Nat := (v >>> 32) % 2 ^ 32

/-! ### Completions (R46, R47, R59, R63) -/

/-- The 32 bytes of a completion (R63). -/
def cplBytes (c : Cpl) (phase : Bool) : List Byte :=
  leBytes 4 c.tag.toNat ++ leBytes 2 c.status ++ leBytes 1 c.detail ++ leBytes 1 (b2n phase + 2 * b2n c.more) ++
  leBytes 8 c.doneTime ++ leBytes 4 c.r0 ++ leBytes 4 c.r1 ++ leBytes 4 c.r2 ++ leBytes 4 c.r3

/-- The completion ring is full (R119). -/
def cqFullNow (r : Ring) : Bool := decide ((r.cqTail + 1) % r.depth = r.cqHead)

/-- The message of ring n for a completion, as its interrupt mode and moderation time say (R59). -/
def ringMessage (n : Nat) (notify : Bool) (d : Dev) : Dev :=
  let r := ringOf d n
  if r.intMode = 2 ∨ (r.intMode = 1 ∧ notify) then
    match r.lastMsg with
    | some t =>
      if r.modUs ≠ 0 ∧ now d < t + 1000 * r.modUs then setRing n { r with msgDue := true } d
      else msixSend n (setRing n { r with lastMsg := some (now d), msgDue := false } d)
    | none => msixSend n (setRing n { r with lastMsg := some (now d), msgDue := false } d)
  else d

/-- A completion is written at CQ_TAIL (R46, R62), the phase inverted at the wrap. -/
def writeCpl (n : Nat) (c : Cpl) (d : Dev) : Dev :=
  let r := ringOf d n
  let nt := (r.cqTail + 1) % r.depth
  let d1 := wrBytes (r.cqBase + 32 * r.cqTail) (cplBytes c r.phase) d
  let d2 := setRing n { r with cqTail := nt, phase := if nt = 0 then !r.phase else r.phase } d1
  let d3 := bump 1 (4 * n + 1) 1 (bump 0 1 1 d2)
  let d4 := if 0x10 ≤ c.status then bump 1 (4 * n + 2) 1 (bump 0 2 1 d3) else d3
  let d5 := if c.status = stInternal then bump 0 3 1 d4 else d4
  ringMessage n c.notify (if n = 0 then orP Reg.sysEvent 0x100 d5 else d5)

/-- A fetch or a completion write of ring n fails (R49) (log 40). -/
def ringFails (n : Nat) (d : Dev) : Dev :=
  raiseVec 69 (setRing n { ringOf d n with st := .stopped, xferErr := true, failing := false } d)

/-- A completion falls due: written, kept while the ring is full (R47), lost when the transfer fails (R49), or discarded
with XFER_ERR after a Function Level Reset (R41) (log 40, 41). -/
def postCpl (n : Nat) (c : Cpl) (d : Dev) : Dev :=
  let r := ringOf d n
  if r.lost then setRing n { r with xferErr := true } d
  else if r.st = .disabled then d
  else if r.failing && r.kept.isEmpty && !cqFullNow r then ringFails n d
  else if !r.kept.isEmpty ∨ cqFullNow r then setRing n { r with cqFull := true, kept := r.kept ++ [c] } d
  else writeCpl n c d

/-! ### Commands in flight -/

/-- The command with an id. -/
def findCmd (d : Dev) (id : Nat) : Option Cmd := d.cmd.cmds.find? (fun c => c.id = id)

/-- Commands of a ring fetched and not completed (INFLIGHT). -/
def inflight (d : Dev) (n : Nat) : Nat := (d.cmd.cmds.filter (fun c => c.pkt.ring.val = n && !c.ringless)).length

/-- Whether a FENCE command can complete: every earlier command of its ring, or of all rings, has (R69). -/
def fenceDone (d : Dev) (c : Cmd) : Bool :=
  d.cmd.cmds.all (fun e => !(decide (e.id < c.id)) || e.ringless ||
    (!(bitAt (param c.pkt 0) 0) && decide (e.pkt.ring ≠ c.pkt.ring)))

/-- The command that a waiting budget change belongs to. -/
def BudgetWait.cmd : BudgetWait → Nat
  | .plan id _ _ _ => id
  | .cls id _ _ _ _ => id

/-- A command leaves the list of commands in flight, and with it what it had waiting: a budget change for its boundary, a
re-solve for its turn. What was linked to it by CHAIN learns its outcome (R58). -/
def retire (id : Nat) (failed : Bool) (d : Dev) : Dev :=
  let cs := d.cmd.cmds.filter (fun c => c.id ≠ id)
  let rs := smMap Ring.reset (fun _ r =>
    match r.link with
    | some l => if l.id = id then { r with link := some { l with failed := some failed } } else r
    | none => r) d.cmd.rings
  { d with cmd.cmds := cs, cmd.rings := rs, pln.wait := d.pln.wait.filter (fun w => w.cmd ≠ id),
           ra.resolves := d.ra.resolves.filter (fun x => x.cmd ≠ id) }

/-- The counter that a SHEAF_SUBMIT or an LSQ_SUBMIT completed CANCELLED moves, started or not (R234, R257). -/
def countCancelled (p : Pkt) (status : Nat) (d : Dev) : Dev :=
  if status ≠ stCancelled then d
  else if p.opcode.toNat = 0x0501 then bump 5 6 1 d
  else if p.opcode.toNat = 0x0601 then bump 6 7 1 d
  else d

/-- One completion of a command, without the FENCE commands that it may release; INTERNAL_ERROR records an event (R65). -/
def complete1 (c : Cmd) (x : Res) (d : Dev) : Dev :=
  let cpl : Cpl :=
    { tag := c.pkt.tag, status := x.status, detail := x.detail, more := false, doneTime := now d,
      r0 := x.r0, r1 := x.r1, r2 := x.r2, r3 := x.r3, notify := bitAt c.pkt.flags.toNat 3 }
  let d0 := countCancelled c.pkt x.status (retire c.id (decide (0x10 ≤ x.status)) d)
  let d1 := if x.status = stInternal then event 0x00 7 [c.pkt.opcode.toNat, x.r0] d0 else d0
  if c.ringless then d1 else postCpl c.pkt.ring.val cpl d1

/-- Started FENCE commands whose earlier commands have all completed complete in turn (R69). -/
def releaseFences : Nat → Dev → Dev
  | 0, d => d
  | n + 1, d =>
    match d.cmd.cmds.find? (fun c => c.phase = .active && c.pkt.opcode.toNat = 0x0005 && fenceDone d c) with
    | some c => releaseFences n (complete1 c (ok 0 0 0 0) d)
    | none => d

/-- A command completes (R63, R64). -/
def complete (id : Nat) (x : Res) (d : Dev) : Dev :=
  match findCmd d id with
  | none => d
  | some c => releaseFences d.cmd.cmds.length (complete1 c x d)

/-- A completion with MORE set: the command goes on (R64). -/
def completeMore (id : Nat) (x : Res) (d : Dev) : Dev :=
  match findCmd d id with
  | none => d
  | some c =>
    if c.ringless then d
    else postCpl c.pkt.ring.val
      { tag := c.pkt.tag, status := x.status, detail := x.detail, more := true, doneTime := now d,
        r0 := x.r0, r1 := x.r1, r2 := x.r2, r3 := x.r3, notify := bitAt c.pkt.flags.toNat 3 } d

/-- Every command the test picks completes CANCELLED (R61, R72). -/
def cancelCmds (d : Dev) (ids : List Nat) : Dev :=
  ids.foldl (fun d id => complete id (refuse stCancelled 0) d) d

/-! ### The Protection Table (R113, R114) -/

/-- A field of the Protection Table. -/
def protLE (d : Dev) (o n : Nat) : Nat := leNat (smRange 0 d.sys.prot o n)
/-- GROUPS of a ring; ring 0 holds groups 0x00 and 0x01 whatever its entry says. -/
def ringGroups (d : Dev) (n : Nat) : Nat := protLE d (0x10 + 16 * n) 4 ||| (if n = 0 then 3 else 0)
/-- CLASSES of a ring; ring 0 holds class 0. -/
def ringClasses (d : Dev) (n : Nat) : Nat := protLE d (0x14 + 16 * n) 2 ||| (if n = 0 then 1 else 0)
/-- RANGES of a ring. -/
def ringRanges (d : Dev) (n : Nat) : Nat := protLE d (0x18 + 16 * n) 4

/-- Whether a mask of descriptors grants one byte for reading or writing. -/
def grantByte (d : Dev) (mask a : Nat) (write : Bool) : Bool :=
  (List.range 32).any fun i =>
    bitAt mask i &&
    (let b := protLE d (0x410 + 16 * i) 8
     let l := protLE d (0x418 + 16 * i) 8
     decide (bits b 47 12 <<< 12 ≤ a ∧ a ≤ l) && bitAt b (if write then 1 else 0))

/-- Whether a mask of descriptors grants a range, page by page. -/
def grantPages (d : Dev) (mask : Nat) (write : Bool) : Nat → Nat → Nat → Bool
  | 0, _, _ => true
  | n + 1, a, e => decide (e ≤ a) || (grantByte d mask a write && grantPages d mask write n ((a / 4096 + 1) * 4096) e)

/-- Whether ring `n` may reach the range (R114): the mailbox needs no grant for ring 0. -/
def ringGrant (d : Dev) (n a len : Nat) (write : Bool) : Bool :=
  (n = 0 && decide (mailboxBase ≤ a ∧ a + len ≤ mailboxBase + 0x2000)) ||
  grantPages d (ringRanges d n) write (len / 4096 + 2) a (a + len)

/-! ### Acceptance (R53–R55, R60) -/

/-- How a command uses its buffer. -/
inductive BufUse
  | none | read | write
  deriving DecidableEq, Repr

/-- What the acceptance checks need to know of an opcode. `params` and `buf` answer the first fault of check 3,
`addrs` of check 4, `object` of check 5, `resources` of check 6. -/
structure OpSpec where
  opcode : Nat
  modes : Nat
  launch : Pkt → Bool
  spec : Bool
  bufUse : BufUse
  /-- offset of the first parameter out of range, or none -/
  params : Pkt → Dev → Option Nat
  /-- BUF_LEN acceptable -/
  bufOk : Pkt → Dev → Bool
  addrs : Pkt → Dev → Option Res
  object : Pkt → Dev → Option Res
  resources : Pkt → Dev → Option Res
  /-- a launch-timed command of the opcode does all but its last part at acceptance and waits for a boundary (R161) -/
  early : Bool

/-- The first nonzero parameter word from word k on, as a packet offset: undefined words must be 0 (R51). -/
def zeroFrom (p : Pkt) (k : Nat) : Option Nat :=
  ((List.range 8).filter (fun i => decide (k ≤ i) && decide (param p i ≠ 0))).head?.map (fun i => 0x20 + 4 * i)

/-- An opcode with no parameters, no buffer and no conditions, as a base for the others (log 119). -/
def opBase (opcode modes : Nat) : OpSpec :=
  { opcode := opcode, modes := modes, launch := fun _ => false, spec := false, bufUse := .none,
    params := fun p _ => zeroFrom p 0, bufOk := fun _ _ => true,
    addrs := fun _ _ => none, object := fun _ _ => none, resources := fun _ _ => none, early := false }

/-- The first fault among "wrong at this offset" tests, in the order given. -/
def firstBad : List (Bool × Nat) → Option Nat
  | [] => none
  | (b, o) :: l => if b then some o else firstBad l

/-- Check 3 (R53, R55): offset of the first field found wrong, in ascending offset. -/
def check3 (s : OpSpec) (p : Pkt) (d : Dev) : Option Nat :=
  let fl := p.flags.toNat
  let t := p.launchTime.toNat
  let bad1 := firstBad
    [ (decide (fl / 32 ≠ 0) || (bitAt fl 1 && !s.launch p) || (bitAt fl 2 && !s.spec), 0x02),
      (decide (15 < p.classOvr.toNat ∧ p.classOvr.toNat ≠ 0xFF), 0x03),
      (if bitAt fl 1 then decide (t ≠ 0 ∧ (t ≤ now d ∨ now d + 3600 * 10 ^ 9 < t)) else decide (t ≠ 0), 0x08),
      (match s.bufUse with
       | .none => decide (bufA p ≠ 0)
       | _ => decide (bufL p ≠ 0) && !mapped d (bufA p) (bufL p), 0x10),
      (match s.bufUse with
       | .none => decide (bufL p ≠ 0)
       | _ => !s.bufOk p d, 0x18),
      (decide (p.word1C.toNat ≠ 0), 0x1C) ]
  match bad1 with
  | some o => some o
  | none => s.params p d

/-- The class a command charges (R52). -/
def pktClass (p : Pkt) (d : Dev) : Nat :=
  if p.classOvr.toNat = 0xFF then (ringOf d (ringN p)).cls else p.classOvr.toNat

/-- The modes that accept a command; one with SPEC set is accepted in RUN only (R54, R263, R277). -/
def modesOf (s : OpSpec) (p : Pkt) : Nat := if bitAt p.flags.toNat 2 && s.spec then 0x20 else s.modes

/-- Checks 2–6 of R53; the first that fails decides. Check 1 is the caller's (log 119). -/
def accept (s : OpSpec) (p : Pkt) (d : Dev) : Option Res :=
  if !bitAt (ringGroups d (ringN p)) (s.opcode / 256) then some (refuse stNotPermitted 0x01)
  else match check3 s p d with
  | some o => some (badParam o)
  | none =>
    if p.classOvr.toNat ≠ 0xFF ∧ !bitAt (ringClasses d (ringN p)) p.classOvr.toNat then
      some (refuse stNotPermitted 0x02)
    else if decide (bufL p ≠ 0) &&
        (match s.bufUse with
         | .none => false
         | .read => !ringGrant d (ringN p) (bufA p) (bufL p) false
         | .write => !ringGrant d (ringN p) (bufA p) (bufL p) true) then
      some (refuse stNotPermitted 0x03)
    else match s.addrs p d with
    | some x => some x
    | none =>
      if !modeIn d (modesOf s p) then some (conflictMode d (modesOf s p))
      else match s.object p d with
      | some x => some x
      | none => s.resources p d

/-! ### Fetch and start (R45, R47, R56–R58, R60) -/

/-- Whether the device fetches from ring n now (R45, R47, R49, R94): served mode, ACTIVE, entries ready, room (log 129). -/
def canFetch (d : Dev) (n : Nat) : Bool :=
  let r := ringOf d n
  decide (3 ≤ d.sys.mode.code) && decide (r.st = .active) && decide (r.sqHead ≠ r.sqTail) && !cqFullNow r &&
  r.kept.isEmpty && !d.sys.resetLow

/-- Groups 0x00 and 0x01 run one at a time in ring order (R56). -/
def serialGroup (p : Pkt) : Bool := decide (p.opcode.toNat / 256 ≤ 1)

/-- The 64 bytes of an entry, each field little-endian at its offset (R50). -/
def pktBytes (p : Pkt) : List Byte :=
  leBytes 2 p.opcode.toNat ++ leBytes 1 p.flags.toNat ++ leBytes 1 p.classOvr.toNat ++ leBytes 4 p.tag.toNat ++
  leBytes 8 p.launchTime.toNat ++ leBytes 8 p.bufAddr.toNat ++ leBytes 4 p.bufLen.toNat ++ leBytes 4 p.word1C.toNat ++
  leBytes 4 p.p0.toNat ++ leBytes 4 p.p1.toNat ++ leBytes 4 p.p2.toNat ++ leBytes 4 p.p3.toNat ++
  leBytes 4 p.p4.toNat ++ leBytes 4 p.p5.toNat ++ leBytes 4 p.p6.toNat ++ leBytes 4 p.p7.toNat

/-- The packet that 64 bytes of a ring hold (R50). -/
def pktOfBytes (n : Fin 64) (b : List Byte) : Pkt :=
  { ring := n, opcode := BitVec.ofNat 16 (fieldLE b 0 2), flags := u8 (fieldLE b 2 1), classOvr := u8 (fieldLE b 3 1),
    tag := u32 (fieldLE b 4 4), launchTime := u64 (fieldLE b 8 8), bufAddr := u64 (fieldLE b 0x10 8), bufLen := u32 (fieldLE b 0x18 4),
    word1C := u32 (fieldLE b 0x1C 4), p0 := u32 (fieldLE b 0x20 4), p1 := u32 (fieldLE b 0x24 4), p2 := u32 (fieldLE b 0x28 4),
    p3 := u32 (fieldLE b 0x2C 4), p4 := u32 (fieldLE b 0x30 4), p5 := u32 (fieldLE b 0x34 4), p6 := u32 (fieldLE b 0x38 4),
    p7 := u32 (fieldLE b 0x3C 4) }

/-- The device address of the entry k behind SQ_HEAD (R42, R45). -/
def entryAddr (r : Ring) (k : Nat) : Nat := r.sqBase + 64 * ((r.sqHead + k) % r.depth)

/-- The entry at SQ_HEAD as it stands in memory (log 1). -/
def headEntry (d : Dev) (n : Fin 64) : Pkt := pktOfBytes n (rdBytes d (entryAddr (ringOf d n) 0) 64)

/-- Entries between SQ_HEAD and SQ_TAIL (R42). -/
def entriesReady (r : Ring) : Nat := (r.sqTail + r.depth - r.sqHead) % r.depth

/-- Whether the host can have put one more entry in front of SQ_TAIL: the doorbell that covers it was written (R45) (log 1, 129). -/
def takesEntry (d : Dev) (n : Nat) : Bool :=
  let r := ringOf d n
  decide (r.st = .active) && decide (r.filled < entriesReady r) && decide (d.sys.mode ≠ .backup) && !d.sys.resetLow

/-- The host's entry of a packet row: its 64 bytes stand in the submission ring (R45, R50) (log 1, 129). -/
def placeEntry (p : Pkt) (d : Dev) : Dev :=
  let n := ringN p
  wrBytes (entryAddr (ringOf d n) (ringOf d n).filled) (pktBytes p) (modRing n (fun r => { r with filled := r.filled + 1 }) d)

/-- The command linked to the entry at SQ_HEAD failed: the entry completes CANCELLED (R58). -/
def linkFailed (r : Ring) : Bool := r.link.any (fun l => l.failed == some true)

/-- Whether the packet at SQ_HEAD may start: the command linked to it has completed, its fence and the order of groups 0x00
and 0x01 allow it (R56–R58). An entry that may not start is not fetched (log 129). -/
def mayStart (d : Dev) (p : Pkt) : Bool :=
  (ringOf d (ringN p)).link.all (fun l => l.failed.isSome) &&
  d.cmd.cmds.all (fun e => decide (e.pkt.ring ≠ p.ring) || e.ringless ||
    (!bitAt p.flags.toNat 0 && !(serialGroup p && serialGroup e.pkt && decide (e.phase = .active))))

/-- Whether the device fetches the packet at the head of its ring now. -/
def fetchable (d : Dev) (p : Pkt) : Bool :=
  canFetch d (ringN p) && (linkFailed (ringOf d (ringN p)) || mayStart d p)

/-- The entry at SQ_HEAD is fetched and becomes a command in flight (R45, R53) (log 1, 129). -/
def fetch (p : Pkt) (d : Dev) : Dev :=
  let n := ringN p
  let r := ringOf d n
  let id := d.cmd.nextId
  let c : Cmd := { id := id, pkt := p, phase := .active, cls := pktClass p d, ringless := false }
  let r' := { r with sqHead := (r.sqHead + 1) % r.depth, filled := r.filled - 1,
                     link := if bitAt p.flags.toNat 4 then some ⟨id, none⟩ else none }
  bump 1 (4 * n) 1 (bump 0 0 1
    { d with cmd.rings := smSet Ring.reset d.cmd.rings n r', cmd.cmds := d.cmd.cmds ++ [c], cmd.nextId := id + 1 })

/-- A command's phase changes. -/
def setPhase (id : Nat) (ph : CmdPhase) (d : Dev) : Dev :=
  { d with cmd.cmds := d.cmd.cmds.map fun c => if c.id = id then { c with phase := ph } else c }

/-- Launch-timed commands waiting over all rings (R60). -/
def waitingCount (d : Dev) : Nat := (d.cmd.cmds.filter (fun c => c.phase = .waiting)).length

/-- A command is refused at its start; a refused PLAN_LOAD is counted, and a refusal NO_PLACEMENT (R165, R214). -/
def refuseStart (opcode id : Nat) (x : Res) (d : Dev) : Dev :=
  let d1 := if opcode = 0x0301 then bump 3 2 1 d else d
  complete id x (if x.status = stNoPlacement then bump 4 1 1 d1 else d1)

/-- Commands that the mirror carries (R415). -/
def mirrorsOp (opcode : Nat) : Bool :=
  [2, 3, 5, 6, 7, 8, 9].contains (opcode / 256) || [0x0402, 0x0103, 0x0C01, 0x0D05, 0x0D06, 0x0D07].contains opcode

/-- An acting primary sends its mirror to a partner that reports STANDBY, except while the frame lengths differ or its address is
in conflict (R406, R409, R415) (log 152). -/
def sendsMirror (d : Dev) : Bool :=
  decide (5 ≤ d.sys.mode.code) && paired d && decide (repF (peerOf d (partnerAddr d)) 1 1 % 8 = 4) && !lenMismatch d &&
  !addrConflict d

/-- A command is accepted: the next mirror carries it, with the bytes of its buffer (R415, R416). -/
def noteAccepted (s : OpSpec) (p : Pkt) (d : Dev) : Dev :=
  let data := if s.bufUse = .read then rdBytes d (bufA p) (bufL p) else []
  let m : MirrorCmd := ⟨p, (ringOf d (ringN p)).cls, data⟩
  { d with trl.accepted := if mirrorsOp s.opcode && sendsMirror d then d.trl.accepted ++ [m] else d.trl.accepted }

/-- A fetched command starts: the acceptance checks, then its effect, or its wait for LAUNCH_TIME (R53, R60); a TRACE_ARM
with TRIG 6 does not wait (R296). `eff` is the opcode's own effect, which completes the command itself, now or later. -/
def startCmd (s : OpSpec) (eff : Nat → Pkt → Dev → Dev) (id : Nat) (p : Pkt) (d : Dev) : Dev :=
  match accept s p d with
  | some x => refuseStart s.opcode id x d
  | none =>
    if bitAt p.flags.toNat 1 ∧ p.launchTime.toNat ≠ 0 ∧ !(s.opcode = 0x0807 && bits (param p 1) 19 16 = 6) then
      (if 1024 ≤ waitingCount d then refuseStart s.opcode id (refuse stBusy 0x03) d
       else if s.early then eff id p (setPhase id .waiting (noteAccepted s p d))
       else setPhase id .waiting (noteAccepted s p d))
    else eff id p (noteAccepted s p d)

/-- A packet row: the host's entry stands in its ring behind the doorbell, and when it is the next one and may start, the
device fetches it and starts its command (R45, R53, R58). A packet whose opcode is not the row's has an undefined opcode:
check 1 (R53) (log 1, 129). -/
def runPacket (s : OpSpec) (eff : Nat → Pkt → Dev → Dev) (p : Pkt) (d : Dev) : Dev :=
  let n := ringN p
  if !takesEntry d n then d
  else
    let d1 := placeEntry p d
    if (ringOf d n).filled ≠ 0 ∨ !fetchable d1 p then d1
    else
      let id := d1.cmd.nextId
      let d2 := fetch p d1
      if linkFailed (ringOf d1 n) then complete id (refuse stCancelled 0) d2
      else if p.opcode.toNat ≠ s.opcode then complete id (refuse stBadOpcode 0) d2
      else startCmd s eff id p d2

/-- A command that applies at once and completes: its results and its effect (log 9). -/
def immediate (f : Pkt → Dev → Res × Dev) (id : Nat) (p : Pkt) (d : Dev) : Dev :=
  let r := f p d
  complete id r.1 r.2

end Sys2Proof.Machine
end

