-- ==== Sys2Proof/Machine/Firmware.lean ====
section
/-!
DEFINITION. Firmware images and the Protection Table they carry (spec/04_modes_boot_recovery.md R109, R110, R113).
-/

namespace Sys2Proof.Machine

/-- The Protection Table at the start of the body (R113): MAGIC, ranges with BASE not above LIMIT, no group above 0x12. -/
def protFault (t : List Byte) : Bool :=
  decide (sliceB t 0 4 ≠ [0x49, 0x53, 0x56, 0x54]) ||
  (List.range 32).any (fun i => decide (bits (fieldLE t (0x410 + 16 * i) 8) 47 12 * 4096 > fieldLE t (0x418 + 16 * i) 8)) ||
  (List.range 64).any (fun n => decide (2 ^ 19 ≤ fieldLE t (0x10 + 16 * n) 4))

/-- BODY_LEN of an image. -/
def fwBodyLen (b : List Byte) : Nat := fieldLE b 0x10 4
/-- The body. -/
def fwBodyOf (b : List Byte) : List Byte := sliceB b 0x1000 (fwBodyLen b)
/-- BODY_LEN is in range and the image has room for it (log 104). -/
def fwLenOk (b : List Byte) : Bool :=
  decide (fwBodyLen b % 4 = 0 ∧ 2048 ≤ fwBodyLen b ∧ fwBodyLen b ≤ 4194304 ∧ 0x1000 + fwBodyLen b ≤ b.length)

/-- The number of the first check of R109 that an image fails (log 104, 135). -/
def fwFault (rollback : Nat) (b : List Byte) : Option Nat :=
  if sliceB b 0 4 ≠ [0x49, 0x53, 0x56, 0x46] ∨ fieldLE b 4 4 ≠ 1 then some 1
  else if sha256 (sliceB b 0x40 60) ≠ leBytes 32 Config.keyHash.toNat then some 2
  else if fieldLE b 0xC 4 < rollback then some 3
  else if !hssVerify (sliceB b 0x40 60) (sliceB b 0 0x80) (sliceB b 0x80 2964) then some 4
  else if !fwLenOk b || decide (sha256 (fwBodyOf b) ≠ sliceB b 0x20 32) then some 5
  else if protFault (sliceB b 0x1000 2048) then some 6
  else none

end Sys2Proof.Machine
end

