-- ==== Sys2Proof/Machine/RegCore.lean ====
section
/-!
DEFINITION. Plain register writes by access code, and the words the configuration guard takes
(spec/03_registers.md R80–R84, R89).
-/

namespace Sys2Proof.Machine

/-- The bits that fields of one code cover. -/
def accMask (fs : List Fld) (a : Acc) : Nat :=
  (fs.filter (fun f => f.acc = a)).foldl (fun m f => m ||| ((2 ^ (f.hi + 1 - f.lo) - 1) <<< f.lo)) 0

/-- The fields at an offset; none of a reserved one. -/
def fieldsAt (o : Nat) : List Fld := (regFields o).getD []

/-- The reserved (RK) bits of an offset: all that no field names, and fields of code RK. -/
def rkMask (o : Nat) : Nat :=
  let fs := (fieldsAt o).filter (fun f => f.acc ≠ .rk)
  0xFFFFFFFF - fs.foldl (fun m f => m ||| ((2 ^ (f.hi + 1 - f.lo) - 1) <<< f.lo)) 0

/-- Whether an offset is a configuration register (R89). -/
def isConfigReg (o : Nat) : Bool :=
  decide (o / 0x10000 ≠ 20) &&
  ((fieldsAt o).any (fun f => f.acc = .rws || f.acc = .rwp) || ((findReg (blockRows o) o).map (·.guarded)).getD false)

/-- The word of a configuration register that the guard takes (R89). -/
def guardWord (d : Dev) (o : Nat) : Nat :=
  let fs := fieldsAt o
  regA d o &&& (accMask fs .rws ||| accMask fs .rwp ||| accMask fs .rw ||| rkMask o)

/-- A guarded word changes without a strobe: the values it had earlier in the running pass are kept, oldest first (R89)
(log 36). -/
def notePass (o : Nat) (old : Nat) (d : Dev) : Dev :=
  if isConfigReg o then { d with rg.passOld := smSet [] d.rg.passOld o (smGet [] d.rg.passOld o ++ [u32 old]) } else d

/-- A write by access code (R82, R84): RW takes effect at once, RWS goes to the shadow, RO, RC and WO store nothing, RK
keeps its value or holds what the spec leaves open. Posted fields are left to the posting buffer (log 32). -/
def writePlain (o w : Nat) (d : Dev) : Dev :=
  let fs := fieldsAt o
  let rw := accMask fs .rw
  let rws := accMask fs .rws
  let rk := rkMask o
  let old := regP d o
  let oldA := regA d o
  let rkNew := if w &&& rk = old &&& rk then old &&& rk else (Config.rkAfter o (u32 old) (u32 w)).toNat &&& rk
  let keep := 0xFFFFFFFF - (rw ||| rws ||| rk)
  let d1 := setP o ((w &&& (rw ||| rws)) ||| (old &&& keep) ||| rkNew) d
  let newA := (w &&& rw) ||| (oldA &&& (0xFFFFFFFF - (rw ||| rk))) ||| rkNew
  if newA = oldA then d1 else notePass o (guardWord d o) (setA o newA d1)

/-- A word that firmware puts into a guarded RW register. -/
def firmWrite (o w : Nat) (d : Dev) : Dev := notePass o (guardWord d o) (setPA o w d)

/-- The running pass is abandoned and restarts (R89) (log 35). -/
def restartPass (d : Dev) : Dev := { d with rg.passOld := [], rg.passRestart := true }

/-- A reference comes into force: CFG_CRC_ACTIVE, ARMED, and the running pass restarts (R90, R294). -/
def setReference (v : Nat) (d : Dev) : Dev := orP Reg.cfgStat 2 (setP Reg.cfgCrcActive v (restartPass d))

end Sys2Proof.Machine
end

