-- ==== Sys2Proof/Machine/Alu.lean ====
section
/-!
DEFINITION. What one lane of the fabric computes: IEEE arithmetic without subnormals, its sticky flags, and sums of
products (spec/07_thresher_fabric.md R168–R172).
-/

namespace Sys2Proof.Machine

/-- What the operations of a kernel leave behind: results and operands flushed, INVALID, DIVZERO, OVERFLOW, and a NaN
that came from finite operands (R170, R171, R224). -/
structure Alu where
  fr : Nat
  fo : Nat
  inv : Bool
  dz : Bool
  ov : Bool
  nanFin : Bool
  deriving DecidableEq, Repr, Inhabited

/-- No operation yet. -/
def Alu.zero : Alu := ⟨0, 0, false, false, false, false⟩

/-- A computation on a lane. -/
abbrev K := StateM Alu

/-- The same format with an exponent range no operation leaves. -/
def FFmt.wide (f : FFmt) : FFmt := ⟨f.eb + 4, f.mb⟩

/-- The format of a PREC field. -/
def fmtOf (prec : Nat) : FFmt := if prec = 1 then f32 else f64

/-- A subnormal pattern. -/
def fIsSub (f : FFmt) (x : Nat) : Bool := decide (bits x (f.eb + f.mb - 1) f.mb = 0) && decide (bits x (f.mb - 1) 0 ≠ 0)

/-- An operand as the fabric reads it: a subnormal is a zero of its sign (R170). -/
def kread (f : FFmt) (x : Nat) : K Nat := do
  if fIsSub f x then
    modify (fun a => { a with fo := a.fo + 1 })
    return fsign f (bitAt x (f.eb + f.mb)) 0
  else return x

/-- A result of the wide format delivered in the lane's format (R170, R171). -/
def kdeliver (f : FFmt) (w : Nat) : K Nat := do
  match fval f.wide w with
  | .nan => return f.nan
  | .inf s => return fsign f s f.infBits
  | .fin s m e =>
    if m = 0 then return fsign f s 0
    else
      let x := fround f s m e
      if fIsSub f x ∨ fIsZero f x ∨ ((Nat.log2 m : Int) + e < 1 - (f.bias : Int)) then
        modify (fun a => { a with fr := a.fr + 1 })
        return fsign f s 0
      else if bits x (f.eb + f.mb - 1) 0 = f.infBits then
        modify (fun a => { a with ov := true })
        return x
      else return x

/-- A signalling NaN: its most significant fraction bit is clear. -/
def fIsSnan (f : FFmt) (x : Nat) : Bool := fIsNan f x && !bitAt x (f.mb - 1)

/-- The flags of an invalid operation: a NaN that no operand brought, or a signalling NaN among the operands (R171). -/
def kinvalid (f : FFmt) (xs : List Nat) (w : Nat) : K Unit := do
  if fIsNan f.wide w && xs.all (fun x => !fIsNan f x) then
    modify (fun a => { a with inv := true, nanFin := a.nanFin || xs.all (fIsFin f) })
  else if xs.any (fIsSnan f) then
    modify (fun a => { a with inv := true })

/-- An operation of the wide format on operands of the lane's format. -/
def kop (f : FFmt) (xs : List Nat) (op : List Nat → Nat) : K Nat := do
  let ys ← xs.mapM (kread f)
  let w := op (ys.map (fconv f f.wide))
  kinvalid f ys w
  kdeliver f w

/-- Addition. -/
def kadd (f : FFmt) (x y : Nat) : K Nat := kop f [x, y] (fun l => fadd f.wide (l.getD 0 0) (l.getD 1 0))
/-- Subtraction. -/
def ksub (f : FFmt) (x y : Nat) : K Nat := kop f [x, y] (fun l => fsub f.wide (l.getD 0 0) (l.getD 1 0))
/-- Multiplication. -/
def kmul (f : FFmt) (x y : Nat) : K Nat := kop f [x, y] (fun l => fmul f.wide (l.getD 0 0) (l.getD 1 0))
/-- Fused multiply-add x·y + z. -/
def kfma (f : FFmt) (x y z : Nat) : K Nat :=
  kop f [x, y, z] (fun l => ffma f.wide (l.getD 0 0) (l.getD 1 0) (l.getD 2 0))
/-- Square root. -/
def ksqrt (f : FFmt) (x : Nat) : K Nat := kop f [x] (fun l => fsqrt f.wide (l.getD 0 0))
/-- Division, with DIVZERO. -/
def kdiv (f : FFmt) (x y : Nat) : K Nat := do
  let a ← kread f x
  let b ← kread f y
  if fIsZero f b && fIsFin f a && !fIsZero f a then
    modify (fun s => { s with dz := true })
    return fsign f (bitAt a (f.eb + f.mb) != bitAt b (f.eb + f.mb)) f.infBits
  else
    let w := fdiv f.wide (fconv f f.wide a) (fconv f f.wide b)
    kinvalid f [a, b] w
    kdeliver f w

/-- A conversion between formats (R169, R170). -/
def kconv (src dst : FFmt) (x : Nat) : K Nat := do
  if src = dst then return x
  else
    let y ← kread src x
    match fval src y with
    | .nan => do
      kinvalid src [y] (src.wide.nan)
      return dst.nan
    | .inf s => return fsign dst s dst.infBits
    | .fin s m e => kdeliver dst (fround dst.wide s m e)

/-- Negation is exact. -/
def kneg (f : FFmt) (x : Nat) : Nat := if fIsNan f x then f.nan else fneg f x

/-- Magnitude, and the power of two it is a multiple of, of a product of two finite values; none for a zero. -/
def prodMag (f : FFmt) (x y : Nat) : Option (Nat × Int) :=
  match fval f x, fval f y with
  | .fin _ m e, .fin _ m' e' => if m * m' = 0 then none else some (m * m', e + e')
  | _, _ => none

/-- Whether every partial sum of the products and the first summand, in any order and with or without fused steps, is
exact: all are multiples of one power of two and their magnitudes sum to less than 2^(mb + 1) of it, away from the ends
of the range. -/
def exactSum (f : FFmt) (init : Nat) (xs : List (Nat × Nat)) : Bool :=
  let one := fround f false 1 0
  let ms := ((init, one) :: xs).filterMap (fun p => prodMag f p.1 p.2)
  let q := ms.foldl (fun (q : Int) m => min q m.2) (match ms with | [] => 0 | m :: _ => m.2)
  let strip := ms.foldl (fun n m => n + m.1 <<< (m.2 - q).toNat) 0
  -- trailing zeros common to all terms do not cost precision
  let tz := ((List.range 1200).find? (fun k => ms.any (fun m => ((m.1 <<< (m.2 - q).toNat) >>> k) % 2 = 1))).getD 0
  decide (strip >>> tz < 2 ^ (f.mb + 1)) && decide (1 - (f.bias : Int) ≤ q + tz) &&
  decide (q + (Nat.log2 (max strip 1) : Int) < f.bias)

/-- A sum of products over a first summand in the fixed order of a kernel (R168). Where an operand or a product is
infinite or a NaN, or where every order gives the same exact sums, it is what any order gives; elsewhere it is a free
value (notes/assumptions/10.md). -/
def kred (kern w : Nat) (f : FFmt) (init : Nat) (xs : List (Nat × Nat)) : K Nat := do
  match xs with
  | [] => return init
  | _ =>
    let i ← kread f init
    let ys ← xs.mapM (fun p => do
      let a ← kread f p.1
      let b ← kread f p.2
      return (a, b))
    let flat := ys.flatMap (fun p => [p.1, p.2])
    let wideProd := ys.map (fun p => fmul f.wide (fconv f f.wide p.1) (fconv f f.wide p.2))
    let ovf := wideProd.any (fun v => !fIsFin f.wide v || bits (fconv f.wide f v) (f.eb + f.mb - 1) 0 = f.infBits)
    if ovf || !fIsFin f i || flat.any (fun x => !fIsFin f x) || exactSum f i ys then
      ys.foldlM (fun s p => do
        let t ← kmul f p.1 p.2
        kadd f s t) i
    else
      let v := (Config.reduce kern w (f.mb = 23) i ys).toNat % 2 ^ f.width
      let v := if fIsNan f v then f.nan else if fIsSub f v then fsign f (bitAt v (f.eb + f.mb)) 0 else v
      modify (fun a => { a with fr := a.fr + Config.reduceFlush kern w (f.mb = 23) i ys,
                                ov := a.ov || bits v (f.eb + f.mb - 1) 0 = f.infBits,
                                inv := a.inv || fIsNan f v, nanFin := a.nanFin || fIsNan f v })
      return v

/-- A Euclidean norm in binary64 (R185, R225). -/
def knorm (kern w : Nat) (xs : List Nat) : K Nat := do
  let s ← kred kern w f64 0 (xs.map (fun x => (x, x)))
  ksqrt f64 s

end Sys2Proof.Machine
end

