-- ==== Sys2Proof/Machine/Model.lean ====
section
/-!
DEFINITION. Network Object Table and measurement list: group 0x02 and the capture into the list
(spec/05_network_model.md R120–R137).
-/

namespace Sys2Proof.Machine

/-! ### Entries and their bytes (R120, R123) -/

/-- The entry that 64 bytes spell. -/
def objOfBytes (b : List Byte) : NetObj :=
  { type := fieldLE b 0 1, flags := fieldLE b 1 1, link0 := fieldLE b 2 2, link1 := fieldLE b 4 2,
    block := fieldLE b 6 2, partition := fieldLE b 8 1, rsvd := fieldLE b 9 3, userTag := fieldLE b 0xC 4,
    p := (List.range 6).map (fun k => fieldLE b (0x10 + 8 * k) 8) }

/-- The 64 bytes of an entry. -/
def objBytes (o : NetObj) : List Byte :=
  leBytes 1 o.type ++ leBytes 1 o.flags ++ leBytes 2 o.link0 ++ leBytes 2 o.link1 ++ leBytes 2 o.block ++
  leBytes 1 o.partition ++ leBytes 3 o.rsvd ++ leBytes 4 o.userTag ++ o.p.flatMap (leBytes 8)

/-- The descriptor that 32 bytes spell. -/
def measOfBytes (b : List Byte) : MeasDesc :=
  { object := fieldLE b 0 2, quantity := fieldLE b 2 1, source := fieldLE b 3 1, sourceIndex := fieldLE b 4 2,
    maxAge := fieldLE b 6 2, scale := fieldLE b 8 8, offset := fieldLE b 0x10 8, sigma := fieldLE b 0x18 4,
    rsvd := fieldLE b 0x1C 4 }

/-- The 32 bytes of a descriptor. -/
def measBytes (m : MeasDesc) : List Byte :=
  leBytes 2 m.object ++ leBytes 1 m.quantity ++ leBytes 1 m.source ++ leBytes 2 m.sourceIndex ++
  leBytes 2 m.maxAge ++ leBytes 8 m.scale ++ leBytes 8 m.offset ++ leBytes 4 m.sigma ++ leBytes 4 m.rsvd

/-- The 32 bytes of the device-maintained half. -/
def valBytes (v : MeasVal) : List Byte :=
  leBytes 8 v.value ++ leBytes 8 v.ts ++ leBytes 4 v.mstat ++ leBytes 4 v.updates ++ leBytes 8 v.residual

/-- An entry of a table of objects. -/
def objAt (t : SMap NetObj) (i : Nat) : NetObj := smGet NetObj.empty t i
/-- An entry of a table of descriptors. -/
def measAt (t : SMap MeasDesc) (i : Nat) : MeasDesc := smGet MeasDesc.unused t i
/-- The device-maintained half of entry i in value set s (R128). -/
def valAt (d : Dev) (s i : Nat) : MeasVal := smGet MeasVal.zero d.mdl.vals (0x10000 * s + i)
/-- It is replaced. -/
def setVal (s i : Nat) (v : MeasVal) (d : Dev) : Dev :=
  { d with mdl.vals := smSet MeasVal.zero d.mdl.vals (0x10000 * s + i) v }

/-! ### Structure (R121, R122, R130, R132) -/

/-- Variables an object type contributes (R121). -/
def typeVars : Nat → Nat
  | 1 => 2 | 2 => 2 | 3 => 1 | 4 => 1 | 5 => 2 | 6 => 2 | 7 => 2 | 8 => 1 | _ => 0

/-- Parameters an object type uses (R121). -/
def typeParams : Nat → Nat
  | 1 => 2 | 2 => 5 | 3 => 5 | 4 => 3 | 5 => 3 | 6 => 4 | 7 => 4 | 8 => 2 | _ => 0

/-- ISOLATED. -/
def isolated (o : NetObj) : Bool := bitAt o.flags 0

/-- Variables an object contributes: none while ISOLATED (R120). -/
def objVars (o : NetObj) : Nat := if isolated o then 0 else typeVars o.type

/-- The block an object belongs to: a SENSOR belongs to that of the object it observes (R122). -/
def objBlock (t : SMap NetObj) (o : NetObj) : Nat := if o.type = 8 then (objAt t o.link0).block else o.block

/-- The structural part of an object. -/
def objShape (o : NetObj) : List Nat := [o.type, o.flags, o.link0, o.link1, o.block, o.partition]
/-- The structural part of a measurement entry. -/
def measShape (m : MeasDesc) : List Nat := [m.object, m.quantity]

/-- The indices listed in either of two tables. -/
def keysOf {α β : Type} (a : SMap α) (b : SMap β) : List Nat := a.map (·.1) ++ b.map (·.1)

/-- A structural amendment is staged (R130). -/
def structuralStaged (d : Dev) : Bool :=
  (keysOf d.mdl.stagedObjs d.mdl.com.objs).any (fun i =>
    objShape (objAt d.mdl.stagedObjs i) != objShape (objAt d.mdl.com.objs i)) ||
  (keysOf d.mdl.stagedMeas d.mdl.com.meas).any (fun i =>
    measShape (measAt d.mdl.stagedMeas i) != measShape (measAt d.mdl.com.meas i))

/-- A parameter amendment is staged (R130). -/
def parameterStaged (d : Dev) : Bool :=
  (keysOf d.mdl.stagedObjs d.mdl.com.objs).any (fun i =>
    let a := objAt d.mdl.stagedObjs i
    let b := objAt d.mdl.com.objs i
    a.p != b.p || a.userTag != b.userTag) ||
  (keysOf d.mdl.stagedMeas d.mdl.com.meas).any (fun i =>
    let a := measAt d.mdl.stagedMeas i
    let b := measAt d.mdl.com.meas i
    { a with object := 0, quantity := 0 } != { b with object := 0, quantity := 0 })

/-- The structure signature (R132). -/
def structSig (objs : SMap NetObj) (meas : SMap MeasDesc) : Nat :=
  let s1 := (objs.filter (fun kv => kv.2.type ≠ 0)).flatMap fun kv =>
    leBytes 2 kv.1 ++ leBytes 1 kv.2.type ++ leBytes 1 kv.2.flags ++ leBytes 2 kv.2.link0 ++ leBytes 2 kv.2.link1 ++
    leBytes 2 kv.2.block ++ leBytes 1 kv.2.partition
  let s2 := (meas.filter (fun kv => kv.2.quantity ≠ 0)).flatMap fun kv =>
    leBytes 2 kv.1 ++ leBytes 2 kv.2.object ++ leBytes 1 kv.2.quantity
  let v := leNat ((sha256 ([0x49, 0x53, 0x56, 0x53] ++ s1 ++ [0xFF] ++ s2)).take 8)
  if v = 0 then 1 else v

/-- The signature of the staged copy. -/
def sigStaged (d : Dev) : Nat := structSig d.mdl.stagedObjs d.mdl.stagedMeas

/-! ### Validation (R135) -/

/-- The pattern of 1.0. -/
def f64one : Nat := 0x3FF0000000000000

/-- A strictly positive binary64. -/
def f64pos (x : Nat) : Bool := flt f64 0 x

/-- Links as the type requires (R121); a SENSOR observes no other SENSOR (log 137). -/
def linksOk (t : SMap NetObj) (o : NetObj) : Bool :=
  let node (i : Nat) : Bool := decide (i < 16384) && decide ((objAt t i).type = 1)
  if o.type = 0 ∨ o.type = 1 then decide (o.link0 = 0xFFFF ∧ o.link1 = 0xFFFF)
  else if o.type = 8 then
    decide (o.link0 < 16384) && decide (1 ≤ (objAt t o.link0).type ∧ (objAt t o.link0).type ≤ 7) &&
    decide (o.link1 = 0xFFFF)
  else node o.link0 && node o.link1

/-- Parameters finite and in the ranges of R121, unused ones +0.0; any of these faults gives DETAIL 0x42 (log 137). -/
def paramsOk (o : NetObj) : Bool :=
  let q (k : Nat) : Nat := o.p.getD k 0
  (List.range 6).all (fun k => if k < typeParams o.type then fIsFin f64 (q k) else decide (q k = 0)) &&
  (match o.type with
   | 1 => f64pos (q 1)
   | 2 => f64pos (q 0) && f64pos (q 1)
   | 3 => f64pos (q 3) && f64pos (q 4)
   | 4 => f64pos (q 0) && flt f64 f64one (q 1) && (fIsZero f64 (q 2) || feq f64 (q 2) f64one)
   | 5 => f64pos (q 0) && f64pos (q 1)
   | 6 => fle f64 (q 0) (q 1) && f64pos (q 2)
   | 7 => f64pos (q 0) && flt f64 (q 2) (q 1) && f64pos (q 3)
   | 8 => f64pos (q 1)
   | _ => true)

/-- Variables of the listed objects of a block, up to and including index i. -/
def blockVarsTo (t : SMap NetObj) (blk i : Nat) : Nat :=
  t.foldl (fun n kv => if kv.1 ≤ i ∧ objBlock t kv.2 = blk then n + objVars kv.2 else n) 0

/-- A link between two branch blocks (R122). -/
def crossLink (t : SMap NetObj) (o : NetObj) : Bool :=
  let b := objBlock t o
  !isolated o && decide (b ≠ 0xFFFF) &&
  [o.link0, o.link1].any (fun l => decide (l ≠ 0xFFFF) &&
    (let c := objBlock t (objAt t l); decide (c ≠ 0xFFFF ∧ c ≠ b)))

/-- The first fault of an object, by DETAIL (R135). PARTITION above 15 and BLOCK 4,096–0xFFFE give 0x40 (log 137). -/
def objFault (t : SMap NetObj) (i : Nat) (o : NetObj) : Option Nat :=
  firstBad
    [ (decide (8 < o.type) || decide (o.flags / 2 ≠ 0) || decide (o.rsvd ≠ 0) || decide (15 < o.partition) ||
        decide (4095 < o.block ∧ o.block ≠ 0xFFFF), 0x40),
      (!linksOk t o, 0x41),
      (!paramsOk o, 0x42),
      (decide (objBlock t o ≠ 0xFFFF) && decide (16 < blockVarsTo t (objBlock t o) i), 0x43),
      (decide (objBlock t o = 0xFFFF) && decide (4096 < blockVarsTo t 0xFFFF i), 0x44),
      (crossLink t o, 0x45) ]

/-- Quantities an object type permits (R124). -/
def quantityOk (q type : Nat) : Bool :=
  match q with
  | 1 => decide (type = 1)
  | 2 => decide (type = 3 ∨ type = 4 ∨ type = 7)
  | 3 => decide (type = 1 ∨ type = 2 ∨ type = 5 ∨ type = 6 ∨ type = 7)
  | 4 => decide (2 ≤ type ∧ type ≤ 7)
  | 5 => decide (5 ≤ type ∧ type ≤ 7)
  | 6 => decide (type = 4)
  | 7 => decide (type = 3)
  | _ => false

/-- The object a measurement observes: a SENSOR's LINK_0 object (R124). -/
def observed (t : SMap NetObj) (i : Nat) : NetObj :=
  let o := objAt t i
  if o.type = 8 then objAt t o.link0 else o

/-- SOURCE_INDEX in the range of its source (R125, R372, R397). -/
def sourceOk (src i : Nat) : Bool :=
  match src with
  | 0 => true
  | 1 => decide (i < 32)
  | 2 => (decide (i < 64) && decide (i % 16 < 6)) || (decide (i < 48) && decide (i % 16 < 8)) || [54, 55, 64].contains i
  | 3 => decide (i < 64)
  | 4 => decide (i < 16)
  | 5 => decide (i < 512)
  | 6 => true
  | 7 => decide (i < 1024)
  | _ => false

/-- The first fault of a measurement entry, by DETAIL (R135); of an unused one only its field that must be 0. -/
def measFault (t : SMap NetObj) (ms : SMap MeasDesc) (i : Nat) (m : MeasDesc) : Option Nat :=
  if m.quantity = 0 then firstBad [(decide (m.rsvd ≠ 0), 0x40)]
  else firstBad
    [ (decide (m.rsvd ≠ 0), 0x40),
      (decide (16384 ≤ m.object) || decide ((objAt t m.object).type = 0) ||
        !quantityOk m.quantity (observed t m.object).type, 0x46),
      (!fIsFin f32 m.sigma || !flt f32 0 m.sigma || !fIsFin f64 m.scale || !fIsFin f64 m.offset, 0x47),
      (!sourceOk m.source m.sourceIndex ||
        (decide (m.source ≠ 0) && ms.any (fun kv => decide (kv.1 < i) && decide (kv.2.quantity ≠ 0) &&
          decide (kv.2.source = m.source ∧ kv.2.sourceIndex = m.sourceIndex))), 0x48) ]

/-- The first fault of the staged copy: DETAIL, index, and 0 for an object or 1 for a measurement. -/
def modelFault (d : Dev) : Option (Nat × Nat × Nat) :=
  let t := d.mdl.stagedObjs
  let ms := d.mdl.stagedMeas
  match t.findSome? (fun kv => (objFault t kv.1 kv.2).map (fun x => (x, kv.1, 0))) with
  | some r => some r
  | none => ms.findSome? (fun kv => (measFault t ms kv.1 kv.2).map (fun x => (x, kv.1, 1)))

/-! ### Commands (R133–R135) -/

/-- A MODEL_COMMIT waits, for its boundary or for its launch time (R133). -/
def commitWaiting (d : Dev) : Bool :=
  d.mdl.wait.isSome || d.cmd.cmds.any (fun c => c.phase = .waiting && c.pkt.opcode.toNat = 0x0203)

/-- The previous committed copy is still bound to a run: one that has started (R129). -/
def prevBound (d : Dev) : Bool :=
  match d.mdl.prev with
  | some c => d.pln.runs.any (fun r => decide (r.gen = c.gen) && decide (r.phase ≠ .queued))
  | none => false

/-- BUSY_RETRY while a commit waits (R133). -/
def busyCommit (_ : Pkt) (d : Dev) : Option Res := if commitWaiting d then some (refuse stBusy 0) else none

/-- A first index and a count within a table of n entries: 0x20 or 0x24 names the word at fault (R133). -/
def indexCount (n first count : Nat) : Option Nat :=
  firstBad [ (decide (n ≤ first), 0x20), (decide (count = 0 ∨ n < first + count), 0x24) ]

def specModelWriteObjects : OpSpec :=
  { opBase 0x0201 0xE8 with
    bufUse := .read
    bufOk := fun p _ => decide (bufL p = 64 * param p 1)
    params := fun p _ => (indexCount 16384 (param p 0) (param p 1)).or (zeroFrom p 2)
    resources := busyCommit }

/-- MODEL_WRITE_OBJECTS (R133). -/
def effModelWriteObjects : Nat → Pkt → Dev → Dev :=
  immediate fun p d =>
    let os := (List.range (param p 1)).map (fun i => objOfBytes (rdBytes d (bufA p + 64 * i) 64))
    (ok 0 0 0 0, { d with mdl.stagedObjs := smPutList NetObj.empty d.mdl.stagedObjs (param p 0) os })

def specModelWriteMeas : OpSpec :=
  { opBase 0x0202 0xE8 with
    bufUse := .read
    bufOk := fun p _ => decide (bufL p = 32 * param p 1)
    params := fun p _ => (indexCount 65536 (param p 0) (param p 1)).or (zeroFrom p 2)
    resources := busyCommit }

/-- MODEL_WRITE_MEAS (R133). -/
def effModelWriteMeas : Nat → Pkt → Dev → Dev :=
  immediate fun p d =>
    let ms := (List.range (param p 1)).map (fun i => measOfBytes (rdBytes d (bufA p + 32 * i) 32))
    (ok 0 0 0 0, { d with mdl.stagedMeas := smPutList MeasDesc.unused d.mdl.stagedMeas (param p 0) ms })

def specModelCommit : OpSpec :=
  { opBase 0x0203 0xE8 with
    launch := fun _ => true
    object := fun _ d =>
      if d.sys.mode = .run ∧ structuralStaged d then some ⟨stConflict, 5, 0xE8, 1, 0, 0⟩ else none
    resources := fun _ d => if commitWaiting d ∨ prevBound d then some (refuse stBusy 0) else none }

/-- MODEL_COMMIT: validated, then waiting for the boundary at which it takes effect (R131, R135). -/
def effModelCommit (id : Nat) (p : Pkt) (d : Dev) : Dev :=
  match modelFault d with
  | some (x, i, k) => complete id ⟨stBadParam, x, i, k, 0, 0⟩ d
  | none => { d with mdl.wait := some ⟨id, p.launchTime.toNat, structuralStaged d⟩ }

def specModelRead : OpSpec :=
  { opBase 0x0204 0xF8 with
    bufUse := .write
    bufOk := fun p _ => decide (bufL p = 64 * param p 2)
    params := fun p _ =>
      let n := if bitAt (param p 0) 0 then 65536 else 16384
      (firstBad [ (decide (3 < param p 0), 0x20), (decide (n ≤ param p 1), 0x24),
                  (decide (param p 2 = 0 ∨ n < param p 1 + param p 2), 0x28) ]).or (zeroFrom p 3) }

/-- MODEL_READ (R133): the committed measurement list reads the newest complete value set; the device-maintained half of a
staged entry reads 0, a count of 0 is refused and an overrun names PARAM_2 (log 138). -/
def effModelRead : Nat → Pkt → Dev → Dev :=
  immediate fun p d =>
    let staged := bitAt (param p 0) 1
    let entry (i : Nat) : List Byte :=
      if bitAt (param p 0) 0 then
        measBytes (measAt (if staged then d.mdl.stagedMeas else d.mdl.com.meas) i) ++
          (if staged then List.replicate 32 0 else valBytes (valAt d d.mdl.newest i))
      else objBytes (objAt (if staged then d.mdl.stagedObjs else d.mdl.com.objs) i)
    let bs := (List.range (param p 2)).flatMap (fun i => entry (param p 1 + i))
    (ok bs.length 0 0 0, wrBytes (bufA p) bs d)

def specModelDiscard : OpSpec := { opBase 0x0205 0xE8 with resources := busyCommit }

/-- MODEL_DISCARD: the staged copy becomes the committed one (R133). -/
def effModelDiscard : Nat → Pkt → Dev → Dev :=
  immediate fun _ d => (ok 0 0 0 0, { d with mdl.stagedObjs := d.mdl.com.objs, mdl.stagedMeas := d.mdl.com.meas })

def specMeasWriteValues : OpSpec :=
  { opBase 0x0206 0xE8 with
    bufUse := .read
    bufOk := fun p _ => decide (bufL p = 24 * param p 0)
    params := fun p _ => (firstBad [(decide (param p 0 = 0 ∨ 4096 < param p 0), 0x20)]).or (zeroFrom p 1) }

/-- MEAS_WRITE_VALUES: records entered into the next capture image; one whose entry is unused or whose SOURCE is not
0 is refused and counted (R134). -/
def effMeasWriteValues : Nat → Pkt → Dev → Dev :=
  immediate fun p d =>
    let recs := (List.range (param p 0)).map fun i =>
      let b := rdBytes d (bufA p + 24 * i) 24
      (⟨fieldLE b 0 4, fieldLE b 8 8, fieldLE b 16 8⟩ : HostVal)
    let good (h : HostVal) : Bool :=
      decide (h.index < 65536) && decide ((measAt d.mdl.com.meas h.index).quantity ≠ 0) &&
      decide ((measAt d.mdl.com.meas h.index).source = 0)
    let g := recs.filter good
    let bad := recs.length - g.length
    (ok bad 0 0 0, bump 2 6 bad { d with mdl.hostVals := d.mdl.hostVals ++ g })

def specModelSignature : OpSpec := opBase 0x0207 0xF8

/-- MODEL_SIGNATURE (R133). -/
def effModelSignature : Nat → Pkt → Dev → Dev :=
  immediate fun _ d => (ok (lo32 (sigStaged d)) (hi32 (sigStaged d)) 0 0, d)

/-! ### Capture into the list (R125–R128) -/

/-- A new sample of a source in the capture image of a frame. `raw` is binary64. -/
structure Sample where
  source : Nat
  index : Nat
  raw : Nat
  ts : Nat
  atLimit : Bool
  deriving DecidableEq, Repr

/-- VALUE = raw × SCALE + OFFSET (R125). -/
def scaled (m : MeasDesc) (raw : Nat) : Nat := fadd f64 (fmul f64 raw m.scale) m.offset

/-- One entry receives a sample (R126). -/
def measUpdate (v : MeasVal) (value ts : Nat) (atLimit : Bool) : MeasVal :=
  { v with value := value, ts := ts, updates := (v.updates + 1) % 2 ^ 32,
           mstat := b2n (fIsFin f64 value) + 4 * b2n atLimit + 8 * b2n (bitAt v.mstat 3) + 2 * b2n (bitAt v.mstat 1) }

/-- A value set that no solve pins and that is not the newest (R128). -/
def freeSet (d : Dev) : Nat :=
  ((List.range 4).find? (fun s => decide (s ≠ d.mdl.newest) && !d.mdl.pins.any (fun p => p.1 = s))).getD d.mdl.newest

/-- What the capture image holds for entry i: a host value, or a sample of its source. -/
def sampleFor (d : Dev) (ss : List Sample) (i : Nat) (m : MeasDesc) : Option (Nat × Nat × Bool) :=
  if m.source = 0 then ((d.mdl.hostVals.filter (fun h => h.index = i)).getLast?).map (fun h => (h.value, h.ts, false))
  else ((ss.filter (fun s => s.source = m.source ∧ s.index = m.sourceIndex)).getLast?).map
    (fun s => (scaled m s.raw, s.ts, s.atLimit))

/-- The transfer of one entry into the newest set, one beat of class 4 (R127). -/
def captureEntry (ss : List Sample) (set : Nat) (d : Dev) (kv : Nat × MeasDesc) : Dev :=
  match sampleFor d ss kv.1 kv.2 with
  | none => d
  | some (v, ts, lim) =>
    if classStops d 4 then d
    else charge 4 .beats 1 (bump 2 2 1 (setVal set kv.1 (measUpdate (valAt d set kv.1) v ts lim) d))

/-- STALE of one entry at boundary time T (R126); with MAX_AGE 0 it is never stale (R123). -/
def staleEntry (set t len : Nat) (d : Dev) (kv : Nat × MeasDesc) : Dev :=
    let v := valAt d set kv.1
    let st := decide (kv.2.maxAge ≠ 0) && decide (v.ts + kv.2.maxAge * len < t)
    let d1 := setVal set kv.1 { v with mstat := putBits v.mstat 1 1 (b2n st) } d
    if st && !bitAt v.mstat 1 then bump 2 3 1 d1 else d1

/-- The entries that hold something in value set s. -/
def setKeys (d : Dev) (s : Nat) : List Nat := (d.mdl.vals.filter (fun kv => kv.1 / 0x10000 = s)).map (fun kv => kv.1 % 0x10000)

/-- Value set `dst` becomes a copy of value set `src`. -/
def copySet (src dst : Nat) (d : Dev) : Dev :=
  (setKeys d src ++ setKeys d dst).dedup.foldl (fun e i => setVal dst i (valAt d src i) e)
    { d with mdl.setTimes := smSet 0 d.mdl.setTimes dst (smGet 0 d.mdl.setTimes src) }

/-- The capture of a frame into the measurement list (R126–R128). -/
def captureList (ss : List Sample) (t len : Nat) (d : Dev) : Dev :=
  let set := freeSet d
  let used := d.mdl.com.meas.filter (fun kv => kv.2.quantity ≠ 0)
  let d1 := if set = d.mdl.newest then d else copySet d.mdl.newest set d
  let need := (used.filter (fun kv => (sampleFor d ss kv.1 kv.2).isSome)).length
  let short := classStops d1 4 || decide (beatsLeft d1 4 < need)
  let d2 := used.foldl (captureEntry ss set) d1
  let d3 := used.foldl (staleEntry set t len) d2
  let d4 := { d3 with mdl.newest := set, mdl.hostVals := [], mdl.captureTime := t, mdl.setTimes := smSet 0 d3.mdl.setTimes set t }
  if short && decide (0 < need) then bump 2 4 1 d4 else d4

/-- A solve pins the newest complete set; one that starts while three are pinned shares the newest pinned one, and is counted
(R128). -/
def pinSet (run : Nat) (d : Dev) : Dev :=
  let sets := (d.mdl.pins.map (·.1)).dedup
  if sets.length < 3 then { d with mdl.pins := d.mdl.pins ++ [(d.mdl.newest, run)] }
  else
    let s := (d.mdl.pins.getLast?.map (·.1)).getD d.mdl.newest
    bump 2 5 1 { d with mdl.pins := d.mdl.pins ++ [(s, run)] }

/-- A run releases its set. -/
def unpinSet (run : Nat) (d : Dev) : Dev := { d with mdl.pins := d.mdl.pins.filter (fun p => p.2 ≠ run) }

/-- The set a run has pinned. -/
def pinnedSet (d : Dev) (run : Nat) : Nat := ((d.mdl.pins.find? (fun p => p.2 = run)).map (·.1)).getD d.mdl.newest

/-- Entries restart with nothing (R131: VALUE, MSTAT, UPDATES; log 139: TIMESTAMP and RESIDUAL too), in a set that no solve
pins: a pinned newest set stays as its solves read it (R128) and a free copy of it becomes the newest. -/
def restartEntries (is : List Nat) (d : Dev) : Dev :=
  let pinned := d.mdl.pins.any (fun p => p.1 = d.mdl.newest)
  let set := if pinned then freeSet d else d.mdl.newest
  let d1 := if is.isEmpty ∨ !pinned then d else { copySet d.mdl.newest set d with mdl.newest := set }
  is.foldl (fun d i => setVal set i MeasVal.zero d) d1

/-- A waiting commit takes effect at a boundary, in whatever mode (R129–R131): the staged copy becomes the committed one,
changed entries restart, the copy is journaled as type 0x07 and the command completes (log 139). -/
def modelCommitEffect (t : Nat) (d : Dev) : Dev :=
  match d.mdl.wait with
  | none => d
  | some w =>
    if t < w.notBefore then d
    else
      let old := d.mdl.com
      let sig := sigStaged d
      let new : ModelCopy := ⟨d.mdl.stagedObjs, d.mdl.stagedMeas, (old.gen + 1) % 2 ^ 32, sig⟩
      let changed := (keysOf new.meas old.meas).filter fun i =>
        let a := measAt new.meas i
        let b := measAt old.meas i
        decide (a.source ≠ b.source ∨ a.sourceIndex ≠ b.sourceIndex ∨ a.object ≠ b.object ∨ a.quantity ≠ b.quantity)
      let d1 := { d with mdl.com := new, mdl.prev := some old, mdl.wait := none, mdl.commitTime := t }
      let d2 := restartEntries changed d1
      let d3 := if prevBound d2 then d2 else { d2 with mdl.prev := none }
      let d4 := bump 2 0 1 (if w.structural then bump 2 1 1 d3 else d3)
      let d5 := journal 7 0 ([new.gen, sig, new.objs.length] ++
          new.objs.flatMap (fun kv => kv.1 :: ([kv.2.type, kv.2.flags, kv.2.link0, kv.2.link1, kv.2.block,
            kv.2.partition, kv.2.userTag] ++ kv.2.p)) ++
          new.meas.flatMap (fun kv => [kv.1, kv.2.object, kv.2.quantity, kv.2.source, kv.2.sourceIndex,
            kv.2.maxAge, kv.2.scale, kv.2.offset, kv.2.sigma]))
        (16 + 64 * new.objs.length + 32 * new.meas.length) none false d4
      complete w.cmd (ok (lo32 sig) (hi32 sig) new.gen (b2n w.structural)) d5

/-! ### State readback (R137) -/

/-- Branch blocks in use. -/
def blocksUsed (t : SMap NetObj) : List Nat :=
  ((t.filter (fun kv => kv.2.type ≠ 0)).map (fun kv => objBlock t kv.2)).dedup.filter (fun b => b ≠ 0xFFFF)

/-- The model header (R137). -/
def modelHeader (d : Dev) : List Byte :=
  let t := d.mdl.com.objs
  let ms := d.mdl.com.meas
  let blocks := blocksUsed t
  leBytes 8 d.mdl.com.sig ++ leBytes 8 (sigStaged d) ++ leBytes 4 d.mdl.com.gen ++
  leBytes 2 (t.filter (fun kv => kv.2.type ≠ 0)).length ++ leBytes 2 blocks.length ++
  leBytes 4 (ms.filter (fun kv => kv.2.quantity ≠ 0)).length ++ leBytes 2 (blockVarsTo t 0xFFFF 16383) ++
  leBytes 1 ((blocks.map (fun b => blockVarsTo t b 16383)).foldl max 0) ++
  leBytes 1 (b2n (structuralStaged d) + 2 * b2n (parameterStaged d) + 4 * b2n (commitWaiting d) + 8 * b2n (prevBound d)) ++
  leBytes 8 d.mdl.commitTime ++ leBytes 8 d.mdl.captureTime ++ leBytes 1 (d.mdl.pins.map (·.1)).dedup.length ++
  List.replicate 15 0

end Sys2Proof.Machine
end

