-- ==== Sys2Proof/Machine/Aes.lean ====
section
/-!
DEFINITION. AES-256 and its modes (spec/20_silo_security.md R451, R452), which the spec names by FIPS 197, NIST SP 800-38B, 38D and
38F without giving: PRESUMED those standards (log 109).
-/

namespace Sys2Proof.Machine

/-! ### AES-256 -/

/-- Multiplication by x in GF(2⁸). -/
def xtime (a : Nat) : Nat := if a < 128 then 2 * a else (2 * a) % 256 ^^^ 0x1B

/-- The product in GF(2⁸), n bits of the second factor. -/
def gfMul : Nat → Nat → Nat → Nat
  | 0, _, _ => 0
  | n + 1, a, b => (if b % 2 = 1 then a else 0) ^^^ gfMul n (xtime a) (b / 2)

/-- The S-box, sixteen rows of sixteen. -/
def sboxRows : List (List Nat) :=
  [[0x63, 0x7C, 0x77, 0x7B, 0xF2, 0x6B, 0x6F, 0xC5, 0x30, 0x01, 0x67, 0x2B, 0xFE, 0xD7, 0xAB, 0x76],
   [0xCA, 0x82, 0xC9, 0x7D, 0xFA, 0x59, 0x47, 0xF0, 0xAD, 0xD4, 0xA2, 0xAF, 0x9C, 0xA4, 0x72, 0xC0],
   [0xB7, 0xFD, 0x93, 0x26, 0x36, 0x3F, 0xF7, 0xCC, 0x34, 0xA5, 0xE5, 0xF1, 0x71, 0xD8, 0x31, 0x15],
   [0x04, 0xC7, 0x23, 0xC3, 0x18, 0x96, 0x05, 0x9A, 0x07, 0x12, 0x80, 0xE2, 0xEB, 0x27, 0xB2, 0x75],
   [0x09, 0x83, 0x2C, 0x1A, 0x1B, 0x6E, 0x5A, 0xA0, 0x52, 0x3B, 0xD6, 0xB3, 0x29, 0xE3, 0x2F, 0x84],
   [0x53, 0xD1, 0x00, 0xED, 0x20, 0xFC, 0xB1, 0x5B, 0x6A, 0xCB, 0xBE, 0x39, 0x4A, 0x4C, 0x58, 0xCF],
   [0xD0, 0xEF, 0xAA, 0xFB, 0x43, 0x4D, 0x33, 0x85, 0x45, 0xF9, 0x02, 0x7F, 0x50, 0x3C, 0x9F, 0xA8],
   [0x51, 0xA3, 0x40, 0x8F, 0x92, 0x9D, 0x38, 0xF5, 0xBC, 0xB6, 0xDA, 0x21, 0x10, 0xFF, 0xF3, 0xD2],
   [0xCD, 0x0C, 0x13, 0xEC, 0x5F, 0x97, 0x44, 0x17, 0xC4, 0xA7, 0x7E, 0x3D, 0x64, 0x5D, 0x19, 0x73],
   [0x60, 0x81, 0x4F, 0xDC, 0x22, 0x2A, 0x90, 0x88, 0x46, 0xEE, 0xB8, 0x14, 0xDE, 0x5E, 0x0B, 0xDB],
   [0xE0, 0x32, 0x3A, 0x0A, 0x49, 0x06, 0x24, 0x5C, 0xC2, 0xD3, 0xAC, 0x62, 0x91, 0x95, 0xE4, 0x79],
   [0xE7, 0xC8, 0x37, 0x6D, 0x8D, 0xD5, 0x4E, 0xA9, 0x6C, 0x56, 0xF4, 0xEA, 0x65, 0x7A, 0xAE, 0x08],
   [0xBA, 0x78, 0x25, 0x2E, 0x1C, 0xA6, 0xB4, 0xC6, 0xE8, 0xDD, 0x74, 0x1F, 0x4B, 0xBD, 0x8B, 0x8A],
   [0x70, 0x3E, 0xB5, 0x66, 0x48, 0x03, 0xF6, 0x0E, 0x61, 0x35, 0x57, 0xB9, 0x86, 0xC1, 0x1D, 0x9E],
   [0xE1, 0xF8, 0x98, 0x11, 0x69, 0xD9, 0x8E, 0x94, 0x9B, 0x1E, 0x87, 0xE9, 0xCE, 0x55, 0x28, 0xDF],
   [0x8C, 0xA1, 0x89, 0x0D, 0xBF, 0xE6, 0x42, 0x68, 0x41, 0x99, 0x2D, 0x0F, 0xB0, 0x54, 0xBB, 0x16]]

/-- The S-box. -/
def sbox (b : Nat) : Nat := (sboxRows.getD (b / 16) []).getD (b % 16) 0

/-- Its inverse. -/
def sboxInv (b : Nat) : Nat := ((List.range 256).find? (fun x => decide (sbox x = b))).getD 0

/-- Bytes combined with XOR. -/
def xorB (a b : List Byte) : List Byte := List.zipWith (fun x y => x ^^^ y) a b

/-- A byte through the S-box. -/
def subB (b : Byte) : Byte := u8 (sbox b.toNat)

/-- The expansion of a 256-bit key, words oldest first: n more words. -/
def aesExpand : Nat → Nat → List (List Byte) → List (List Byte)
  | 0, _, ws => ws
  | n + 1, i, ws =>
    let t := ws.getD (i - 1) []
    let t' :=
      if i % 8 = 0 then xorB ((t.drop 1 ++ t.take 1).map subB) [u8 (2 ^ (i / 8 - 1)), 0, 0, 0]
      else if i % 8 = 4 then t.map subB else t
    aesExpand n (i + 1) (ws ++ [xorB (ws.getD (i - 8) []) t'])

/-- The fifteen round keys of a key. -/
def aesKeys (key : List Byte) : List (List Byte) :=
  let ws := aesExpand 52 8 ((List.range 8).map (fun i => sliceB key (4 * i) 4))
  (List.range 15).map (fun r => ((ws.drop (4 * r)).take 4).flatten)

/-- The rows of the state shift left, row r by r places (or right). -/
def aesShift (inv : Bool) (s : List Byte) : List Byte :=
  (List.range 16).map (fun i =>
    let r := i % 4
    let c := i / 4
    s.getD (4 * ((if inv then c + 4 - r else c + r) % 4) + r) 0)

/-- The columns are multiplied by a fixed polynomial, given by its four coefficients. -/
def aesMix (k : List Nat) (s : List Byte) : List Byte :=
  (List.range 16).map (fun i =>
    let c := i / 4
    u8 ((List.range 4).foldl (fun x j => x ^^^ gfMul 8 ((s.getD (4 * c + j) 0).toNat) (k.getD ((j + 4 - i % 4) % 4) 0)) 0))

/-- One block encrypted under round keys (log 109). -/
def aesEnc (ks : List (List Byte)) (b : List Byte) : List Byte :=
  let s := (List.range 13).foldl (fun s r => xorB (aesMix [2, 3, 1, 1] (aesShift false (s.map subB))) (ks.getD (r + 1) []))
    (xorB b (ks.getD 0 []))
  xorB (aesShift false (s.map subB)) (ks.getD 14 [])

/-- One block decrypted (log 109). -/
def aesDec (ks : List (List Byte)) (b : List Byte) : List Byte :=
  let un (s : List Byte) : List Byte := (aesShift true s).map (fun x => u8 (sboxInv x.toNat))
  let s := (List.range 13).foldl (fun s r => aesMix [14, 11, 13, 9] (xorB (un s) (ks.getD (13 - r) [])))
    (xorB b (ks.getD 14 []))
  xorB (un s) (ks.getD 0 [])

/-! ### GCM (SP 800-38D) -/

/-- The product in GF(2¹²⁸) of GCM, bits counted from the most significant: n more bits of x. -/
def ghashMul (x : Nat) : Nat → Nat → Nat → Nat
  | 0, _, z => z
  | n + 1, v, z =>
    ghashMul x n (if v % 2 = 1 then v / 2 ^^^ (0xE1 <<< 120) else v / 2) (if bitAt x n then z ^^^ v else z)

/-- GHASH of n blocks. -/
def ghash (h : Nat) : Nat → Nat → List Byte → Nat
  | 0, y, _ => y
  | n + 1, y, bs => ghash h n (ghashMul (y ^^^ beNat (bs.take 16)) 128 h 0) (bs.drop 16)

/-- Bytes padded with zeros to whole blocks. -/
def padBlocks (bs : List Byte) : List Byte := sliceB bs 0 (16 * ceilDiv bs.length 16)

/-- The keystream of n blocks from a counter on. -/
def gcmStream (ks : List (List Byte)) (iv : List Byte) : Nat → Nat → List Byte
  | 0, _ => []
  | n + 1, c => aesEnc ks (iv ++ beBytes 4 c) ++ gcmStream ks iv n (c + 1)

/-- AES-256-GCM of data under a 96-bit IV: encryption and decryption are one (log 109). -/
def gcmCrypt (key iv data : List Byte) : List Byte :=
  xorB data (gcmStream (aesKeys key) iv (ceilDiv data.length 16) 2)

/-- The 128-bit tag over AAD and ciphertext (log 109). -/
def gcmTag (key iv aad ct : List Byte) : List Byte :=
  let ks := aesKeys key
  let h := beNat (aesEnc ks (List.replicate 16 0))
  let m := padBlocks aad ++ padBlocks ct ++ beBytes 8 (8 * aad.length) ++ beBytes 8 (8 * ct.length)
  xorB (beBytes 16 (ghash h (m.length / 16) 0 m)) (aesEnc ks (iv ++ [0, 0, 0, 1]))

/-! ### CMAC (SP 800-38B) -/

/-- A subkey of CMAC: doubling in GF(2¹²⁸). -/
def cmacDouble (x : Nat) : Nat := if bitAt x 127 then (2 * x) % 2 ^ 128 ^^^ 0x87 else 2 * x

/-- The CBC chain over n blocks. -/
def cbcRun (ks : List (List Byte)) : Nat → List Byte → List Byte → List Byte
  | 0, c, _ => c
  | n + 1, c, bs => cbcRun ks n (aesEnc ks (xorB c (bs.take 16))) (bs.drop 16)

/-- AES-CMAC of key and message (log 109). -/
def cmac (key msg : List Byte) : List Byte :=
  let ks := aesKeys key
  let k1 := cmacDouble (beNat (aesEnc ks (List.replicate 16 0)))
  let n := max 1 (ceilDiv msg.length 16)
  let last := msg.drop (16 * (n - 1))
  let m := if last.length = 16 then xorB last (beBytes 16 k1)
    else xorB (sliceB (last ++ [0x80]) 0 16) (beBytes 16 (cmacDouble k1))
  cbcRun ks n (List.replicate 16 0) (msg.take (16 * (n - 1)) ++ m)

/-! ### Key wrap (SP 800-38F KW) -/

/-- The six passes of KW over n semiblocks: step counter from t, integrity register a, registers r, forward. -/
def kwSteps (ks : List (List Byte)) (n : Nat) : Nat → Nat → List Byte × List (List Byte) → List Byte × List (List Byte)
  | 0, _, x => x
  | k + 1, t, x =>
    let i := (t - 1) % n
    let b := aesEnc ks (x.1 ++ x.2.getD i [])
    kwSteps ks n k (t + 1) (xorB (b.take 8) (beBytes 8 t), x.2.set i (b.drop 8))

/-- The passes backward, from step t down. -/
def kwBack (ks : List (List Byte)) (n : Nat) : Nat → List Byte × List (List Byte) → List Byte × List (List Byte)
  | 0, x => x
  | t + 1, x =>
    let i := t % n
    let b := aesDec ks (xorB x.1 (beBytes 8 (t + 1)) ++ x.2.getD i [])
    kwBack ks n t (b.take 8, x.2.set i (b.drop 8))

/-- Byte strings of eight. -/
def semiblocks (bs : List Byte) : List (List Byte) := (List.range (bs.length / 8)).map (fun i => sliceB bs (8 * i) 8)

/-- AES key wrap: key-encryption key and key, 8 bytes longer than the key (log 109). -/
def kwWrap (kek key : List Byte) : List Byte :=
  let r := semiblocks key
  let x := kwSteps (aesKeys kek) r.length (6 * r.length) 1 (List.replicate 8 0xA6, r)
  x.1 ++ x.2.flatten

/-- AES key unwrap: none when the integrity check fails (log 109). -/
def kwUnwrap (kek blob : List Byte) : Option (List Byte) :=
  let r := semiblocks (blob.drop 8)
  let x := kwBack (aesKeys kek) r.length (6 * r.length) (blob.take 8, r)
  if x.1 = List.replicate 8 0xA6 then some x.2.flatten else none

end Sys2Proof.Machine
end

