-- ==== Sys2Proof/Machine/SiloCore.lean ====
section
/-!
DEFINITION. Slots, usability, signatures and randomness of the Silo, as commands and internal users see them
(spec/20_silo_security.md R446–R455, R459).
-/

namespace Sys2Proof.Machine

/-- A slot of the Silo. -/
def slotOf (d : Dev) (s : Nat) : Slot := smGet Slot.none d.sec.slots s
/-- A slot is replaced. -/
def setSlot (s : Nat) (x : Slot) (d : Dev) : Dev := { d with sec.slots := smSet Slot.none d.sec.slots s x }

/-- TYPE of an attribute word (R446). -/
def attrType (a : Nat) : Nat := bits a 31 28
/-- LIFETIME. -/
def attrLife (a : Nat) : Nat := bits a 27 26
/-- A usage bit. -/
def attrUse (a b : Nat) : Bool := bitAt a b
/-- COMPAT. -/
def attrCompat (a : Nat) : Bool := bitAt a 11

/-- Usage bits a type permits (R447). -/
def typeUsage : Nat → Nat
  | 1 => 0x47 | 2 => 0x24 | 3 => 0x08 | 4 => 0x10 | 5 => 0x20 | _ => 0

/-- Attributes of a key that a command puts into a slot obey R446 and R447. -/
def attrOk (a : Nat) : Bool :=
  let t := attrType a
  decide (1 ≤ t ∧ t ≤ 4) && decide (attrLife a ≠ 3) && decide (bits a 20 12 = 0) && !bitAt a 8 && !attrCompat a &&
  decide (bits a 7 0 &&& typeUsage t = bits a 7 0) && (!bitAt a 10 || decide (t = 4))

/-- The key of a slot: the XOR of its shares (R450). -/
def slotKey (x : Slot) : BitVec 512 := x.share0 ^^^ x.share1

/-- The 32 key bytes of a slot of type 1 or 2. -/
def keyBytes (x : Slot) : List Byte := leBytes 32 (slotKey x).toNat

/-- The ISV-7100 check of a COMPAT slot's image still holds (R450): type, usage, 32 key bytes, 8 check bytes. -/
def compatOk (x : Slot) : Bool := (sha256 (sliceB x.image 0 36)).take 8 == sliceB x.image 36 8

/-- The oscillator-stopped flag of the RTC. -/
def oscStopped (d : Dev) : Bool := fld d Reg.rtcStat 0 0 = 1

/-- The usability tests of R446 and R448 in the order of R459, charged to class `cls`. `permits` is the test of type and
usage; `extra` lets SEC_EXPORT put its own test before the FAILED one. -/
def slotRefusalBy (d : Dev) (s : Nat) (permits : Slot → Bool) (cls : Nat) (extra : Option Res) : Option Res :=
  let x := slotOf d s
  if x.state = .empty then some (refuse stNotAuth 0x01)
  else if !permits x then some (refuse stNotAuth 0x02)
  else if bitAt x.attr 25 && decide (bits x.attr 24 21 ≠ cls) then some (refuse stNotAuth 0x03)
  else if x.state = .expired ∨ (attrLife x.attr = 2 ∧ x.expiry ≤ d.rtc.secs) then some (refuse stNotAuth 0x04)
  else if attrLife x.attr = 2 ∧ oscStopped d then some (refuse stNotAuth 0x05)
  else if extra.isSome then extra
  else if x.state = .failed ∨ (attrCompat x.attr ∧ !compatOk x) then some (refuse stIntegrity 0x01)
  else none

/-- Those tests for a key of one of the types with the usage bit (log 106). -/
def slotRefusal (d : Dev) (s : Nat) (types : List Nat) (use : Nat) (cls : Nat) (extra : Option Res) : Option Res :=
  slotRefusalBy d s (fun x => types.contains (attrType x.attr) && attrUse x.attr use) cls extra

/-- A COMPAT slot whose check fails enters FAILED: counter, event, vector 69 (R450). -/
def failCompat (s : Nat) (d : Dev) : Dev :=
  let x := slotOf d s
  if attrCompat x.attr ∧ x.state = .ready ∧ !compatOk x then
    raiseVec 69 (event 0x10 1 [s] (bump 0x10 9 1 (addF Reg.secIntegrityCnt 31 0 1 (setSlot s { x with state := .failed } d))))
  else d

/-- One use of a slot is counted (R460). -/
def countUse (s : Nat) (d : Dev) : Dev :=
  let x := slotOf d s
  setSlot s { x with uses := (x.uses + 1) % 2 ^ 32 } d

/-- SP 800-108 in counter mode with HMAC-SHA-256: n bytes from a key and a label (R452) (log 109). -/
def kdf (key label : List Byte) (n : Nat) : List Byte :=
  ((List.range ((n + 31) / 32)).flatMap (fun i => hmac256 key (Config.kdfInput (i + 1) label n))).take n

/-- The next DRBG output and the state after the request (R453) (log 108). -/
def drbgDraw (d : Dev) : Nat × Dev :=
  (Config.drbgOut d.sec.drbg, { d with sec.drbg := d.sec.drbg + 1, sec.requests := d.sec.requests + 1 })

/-- The 32-byte seed of a type 3 slot (log 135). -/
def lmsSeed (x : Slot) : List Byte := leBytes 32 ((slotKey x).toNat % 2 ^ 256)
/-- Its 16-byte identifier (log 135). -/
def lmsIdent (x : Slot) : List Byte := leBytes 16 (bits (slotKey x).toNat 383 256)

/-- Public key bytes of a type 3 or 4 slot (R454, R457). -/
def slotPublic (x : Slot) : List Byte :=
  if attrType x.attr = 4 then x.pub else lmsPublic (lmsIdent x) (lmsSeed x) x.height

/-- A signature block over `msg` checked against a slot for a plan, a frame plan or a firmware service (R146, R163,
R448): usage verify on type 4, the class charged, then the signature. -/
def verifyWith (d : Dev) (s : Nat) (cls : Nat) (msg sig : List Byte) : Option Res :=
  match slotRefusal d s [4] 4 cls none with
  | some x => some (if x.status = stIntegrity then x else refuse stNotAuth 0x02)
  | none => if hssVerify (slotOf d s).pub msg sig then none else some (refuse stSignature 0x00)

end Sys2Proof.Machine
end

