-- ==== Sys2Proof/Machine/PlanImage.lean ====
section
/-!
DEFINITION. Plan images and frame plans: their bytes, the kernel library, worst-case sums, and the checks of a load but
its placement (spec/06_plans_static_schedule.md R142–R154, R160, R163, R508, R509).
-/

namespace Sys2Proof.Machine

/-! ### Reading the image (R142–R145) -/

/-- Tile i of an image whose list begins at `base` (R143). -/
def tileOfBytes (b : List Byte) (o : Nat) : Tile :=
  { kind := fieldLE b o 1, prec := fieldLE b (o + 1) 1, binding := fieldLE b (o + 2) 1, tflags := fieldLE b (o + 3) 1,
    rows := fieldLE b (o + 4) 4, cols := fieldLE b (o + 8) 4, count := fieldLE b (o + 0xC) 4,
    bytes := fieldLE b (o + 0x10) 4, bindIndex := fieldLE b (o + 0x14) 2, firstUse := fieldLE b (o + 0x18) 4,
    lastUse := fieldLE b (o + 0x1C) 4 }

/-- The plan entry at an offset (R144). -/
def entryOfBytes (b : List Byte) (o : Nat) : PEntry :=
  { cls := fieldLE b o 1, opgroup := fieldLE b (o + 1) 1, first := fieldLE b (o + 4) 4, count := fieldLE b (o + 8) 4,
    maxWidth := fieldLE b (o + 0xC) 4, wcCluster := fieldLE b (o + 0x10) 8, wcPath := fieldLE b (o + 0x18) 8 }

/-- The kernel record at an offset (R145): m and n with their upper bits. -/
def recOfBytes (b : List Byte) (o : Nat) : KRec :=
  let rf := fieldLE b (o + 1) 1
  { kernel := fieldLE b o 1, width := fieldLE b (o + 2) 1, prec := fieldLE b (o + 3) 1,
    opnd := (List.range 4).map (fun i => fieldLE b (o + 4 + 2 * i) 2),
    m := fieldLE b (o + 0xC) 2 + 65536 * bits rf 7 4, n := fieldLE b (o + 0xE) 2 + 65536 * bits rf 3 0,
    k := fieldLE b (o + 0x10) 2, r := fieldLE b (o + 0x12) 2, batch := fieldLE b (o + 0x14) 4,
    steps := fieldLE b (o + 0x18) 4, arg := fieldLE b (o + 0x1C) 4 }

/-- The plan that an image spells. -/
def planOfBytes (b : List Byte) : Plan :=
  { planId := fieldLE b 0x14 4, structSig := fieldLE b 8 8, kilardVer := fieldLE b 0x18 4, imageLen := fieldLE b 0x10 4,
    peakStore := fieldLE b 0xD0 4,
    tiles := (List.range (fieldLE b 0x24 4)).map (fun i => tileOfBytes b (fieldLE b 0x20 4 + 32 * i)),
    entries := (List.range (fieldLE b 0x2C 4)).map (fun i => entryOfBytes b (fieldLE b 0x28 4 + 32 * i)),
    recs := (List.range (fieldLE b 0x34 4)).map (fun i => recOfBytes b (fieldLE b 0x30 4 + 32 * i)) }

/-- A record by index. -/
def recAt (pl : Plan) (i : Nat) : KRec := pl.recs.getD i default
/-- A tile by index. -/
def tileAt (pl : Plan) (i : Nat) : Tile := pl.tiles.getD i default
/-- An entry by number. -/
def entryAt (pl : Plan) (e : Nat) : PEntry := pl.entries.getD e default
/-- The records of an entry, with their indices. -/
def entryRecs (pl : Plan) (e : PEntry) : List (Nat × KRec) :=
  (List.range e.count).map (fun i => (e.first + i, recAt pl (e.first + i)))

/-- Bytes of a tile's elements: binary64 8, others 4. -/
def elemSize (prec : Nat) : Nat := if prec = 0 then 8 else 4

/-! ### The kernel library (R147, R508) -/

/-- ⌈log₂ x⌉. -/
def clog2 (x : Nat) : Nat := ((List.range 33).find? (fun k => decide (x ≤ 2 ^ k))).getD 33

/-- The kernel code is in the table. -/
def kernelDefined (k : Nat) : Bool := decide (k ≤ 0x0C ∨ (0x10 ≤ k ∧ k ≤ 0x22))

/-- STEPS of a record by the formula of its kernel (R147). -/
def kernelSteps (x : KRec) : Nat :=
  let w := x.width
  let p := if x.prec = 1 then 2 else 1
  let m := x.m
  let n := x.n
  let k := x.k
  let r := x.r
  let b := x.batch
  let q := ceilDiv b w
  let g := clog2 (16 * w)
  match x.kernel with
  | 0x00 => x.arg
  | 0x02 => ceilDiv n (16 * w) + 12
  | 0x04 => ceilDiv (m * n * b) (16 * w * p) + 8
  | 0x05 => ceilDiv (m * n * b) (16 * w * p) + 8
  | 0x06 => ceilDiv b (16 * w) + 16
  | 0x07 => ceilDiv (m * n * b) (16 * w * p) + 16
  | 0x08 => ceilDiv (n * b) (16 * w * p) + 4
  | 0x09 => ceilDiv (n * b) (16 * w * p) + 2 * g + 4
  | 0x0A => ceilDiv (m * n * b) (16 * w * p) + 8
  | 0x0B => ceilDiv (m * n * k * b) (16 * w * p) + k + 8
  | 0x0C => ceilDiv (m * (m + 1) * k * b) (32 * w * p) + k + 8
  | 0x10 => q * (ceilDiv (n * (n + 1) * (n + 2)) (96 * p) + 4 * n)
  | 0x11 => q * (ceilDiv (n * (n + 1) * (n + 2)) (96 * p) + 6 * n)
  | 0x12 => q * (ceilDiv (n * (n + 1) * (2 * n + 1)) (96 * p) + 8 * n)
  | 0x13 => q * (ceilDiv (n * (n + 1) * (3 * m - n + 1)) (48 * p) + 10 * n)
  | 0x14 => q * (ceilDiv (n * (n + 1) * r) (16 * p) + 4 * n)
  | 0x15 => q * (ceilDiv (n * n * r) (16 * p) + 8)
  | 0x16 => q * (ceilDiv (n * r) 16 + 4)
  | 0x17 => q * (ceilDiv (n * (2 * m - n + 1) * r) (16 * p) + 4 * n)
  | 0x18 => ceilDiv (n * (n + 1) * (n + 2)) (96 * w * p) + 600 * ceilDiv n 64
  | 0x19 => ceilDiv (n * (n + 1) * r) (16 * w * p) + 8 * n
  | 0x1A => 40 * ceilDiv b (16 * w) + 16
  | 0x1B => ceilDiv (b * k * (k + 1)) (32 * w * p) + 16
  | 0x1C => q * (ceilDiv (m * (m + 1) * (m + 2)) (96 * p) + ceilDiv (m * m * n) (16 * p) +
              ceilDiv (m * n * n) (32 * p) + 4 * m)
  | 0x1D => q * (ceilDiv (m * (m + 1 + n)) (16 * p) + 4 * m)
  | 0x1E => ceilDiv (n * b) (16 * w) + 8
  | 0x1F => ceilDiv (n * b) (16 * w * p) + 4
  | 0x20 => ceilDiv (b * k) (16 * w) + 8
  | 0x21 => ceilDiv b (16 * w) + 8
  | 0x22 => x.arg
  | _ => 0

/-- The shape fields a kernel uses: m, n, k, r, B, and the bits of ARG it gives a meaning (R508) (log 11). -/
def kernelUses (x : KRec) : Bool × Bool × Bool × Bool × Bool × Nat :=
  let t := true
  let f := false
  match x.kernel with
  | 0x00 => (f, f, f, f, f, 0xFFFFFFFF)
  | 0x01 => (f, f, f, f, f, 0xFFFFFFFF)
  | 0x02 => let mw := bitAt x.arg 1; (f, t, f, mw, mw, 3)
  | 0x04 => (t, t, f, f, t, 0)
  | 0x05 => (t, t, f, f, t, 0)
  | 0x06 => (f, f, f, f, t, 0)
  | 0x07 => (t, t, f, f, t, 0)
  | 0x08 => (f, t, f, f, t, 0)
  | 0x09 => (f, t, f, f, t, 0)
  | 0x0A => (t, t, f, f, t, 0)
  | 0x0B => (t, t, t, f, t, 0)
  | 0x0C => (t, f, t, f, t, 0)
  | 0x10 => (f, t, f, f, t, 0)
  | 0x11 => (f, t, f, f, t, 0)
  | 0x12 => (f, t, f, f, t, 0)
  | 0x13 => (t, t, f, f, t, 0)
  | 0x14 => (f, t, f, t, t, 3)
  | 0x15 => (f, t, f, t, t, 0)
  | 0x16 => (f, t, f, t, t, 1)
  | 0x17 => (t, t, f, t, t, 0)
  | 0x18 => (f, t, f, f, f, 0)
  | 0x19 => (f, t, f, t, f, 0)
  | 0x1A => (f, f, f, f, t, 0xF)
  | 0x1B => (f, f, t, f, t, 0xC)
  | 0x1C => (t, t, f, f, t, 0)
  | 0x1D => (t, t, f, f, t, 0)
  | 0x1E => (f, t, f, f, t, 1)
  | 0x1F => (f, t, f, f, t, 0)
  | 0x20 => (f, f, t, f, t, 0)
  | 0x21 => (f, f, f, f, t, 0)
  | 0x22 => (f, f, f, f, f, 0xFFFFFFFF)
  | _ => (f, f, f, f, f, 0)

/-- The limits of a kernel that a record breaks, as the lowest offset among the fields each names (R147, R508). -/
def limitFaults (x : KRec) : List (Bool × Nat) :=
  let m := x.m
  let n := x.n
  let b := x.batch
  let big := 2 ^ 32
  match x.kernel with
  | 0x00 => [(decide (2 ^ 24 < x.arg), 0x1C)]
  | 0x01 => [(decide (x.arg = 0 ∨ 65535 < x.arg), 0x1C)]
  | 0x04 => [(decide (big < m * n * b), 0x0C)]
  | 0x05 => [(decide (big < m * n * b), 0x0C)]
  | 0x06 => [(decide (65536 < b), 0x14)]
  | 0x07 => [(decide (big < m * n * b), 0x0C)]
  | 0x08 => [(decide (big < n * b), 0x0E)]
  | 0x09 => [(decide (big < n * b), 0x0E)]
  | 0x0A => [(decide (4096 < m ∨ 4096 < n), 0x0C)]
  | 0x0B => [(decide (4096 < m ∨ 4096 < n ∨ 4096 < x.k), 0x0C)]
  | 0x0C => [(decide (4096 < m ∨ 4096 < x.k), 0x0C)]
  | 0x10 => [(decide (64 < n), 0x0E), (decide (4096 < b), 0x14)]
  | 0x11 => [(decide (64 < n), 0x0E), (decide (4096 < b), 0x14)]
  | 0x12 => [(decide (64 < n), 0x0E), (decide (4096 < b), 0x14)]
  | 0x13 => [(decide (m < n ∨ 64 < m), 0x0C), (decide (4096 < b), 0x14)]
  | 0x14 => [(decide (64 < n), 0x0E), (decide (8 < x.r), 0x12)]
  | 0x15 => [(decide (64 < n), 0x0E), (decide (8 < x.r), 0x12)]
  | 0x16 => [(decide (64 < n), 0x0E), (decide (8 < x.r), 0x12)]
  | 0x17 => [(decide (m < n ∨ 64 < m), 0x0C), (decide (8 < x.r), 0x12)]
  | 0x18 => [(decide (4096 < n), 0x0E)]
  | 0x19 => [(decide (4096 < n), 0x0E), (decide (8 < x.r), 0x12)]
  | 0x1A => [(decide (65536 < b), 0x14)]
  | 0x1B => [(decide (16 < x.k), 0x10), (decide (65536 < b), 0x14)]
  | 0x1C => [(decide (16 < m), 0x0C), (decide (64 < n), 0x0E), (decide (4096 < b), 0x14)]
  | 0x1D => [(decide (16 < m), 0x0C), (decide (64 < n), 0x0E), (decide (4096 < b), 0x14)]
  | 0x1E => [(decide (4096 < n), 0x0E)]
  | 0x1F => [(decide (big < n * b), 0x0E)]
  | 0x20 => [(decide (16 < x.k), 0x10), (decide (65536 < b), 0x14)]
  | 0x21 => [(decide (65536 < b), 0x14)]
  | 0x22 => [(decide (2 ^ 24 < x.arg), 0x1C)]
  | _ => []

/-- Elements of a whole tile. -/
def tileLen (tl : Tile) : Nat := tl.rows * tl.cols * tl.count

/-- A LOOP_TEST with KEEP_BEST over whole tiles whose shape n is below the elements of OPND_0, OPND_1 or OPND_2 (R185): a fault of
its shape (log 140). -/
def keepBestShort (pl : Plan) (x : KRec) : Bool :=
  decide (x.kernel = 0x02) && bitAt x.arg 0 && !bitAt x.arg 1 &&
  ((x.opnd.take 3).any fun t => decide (t < pl.tiles.length ∧ x.n < tileLen (tileAt pl t)))

/-- The fault of a record at step 7, as the lowest offset within the record (R508) (log 140). -/
def recFault (pl : Plan) (x : KRec) : Option Nat :=
  let u := kernelUses x
  let bads : List (Bool × Nat) :=
    [ (!kernelDefined x.kernel, 0x00), (decide (x.width = 0 ∨ 32 < x.width), 0x02), (decide (1 < x.prec), 0x03) ] ++
    (List.range 4).map (fun i =>
      (let o := x.opnd.getD i 0xFFFF; decide (pl.tiles.length ≤ o ∧ o ≠ 0xFFFF), 0x04 + 2 * i)) ++
    [ (!u.1 && decide (x.m ≠ 0), 0x0C), (!u.2.1 && decide (x.n ≠ 0), 0x0E), (!u.2.2.1 && decide (x.k ≠ 0), 0x10),
      (!u.2.2.2.1 && decide (x.r ≠ 0), 0x12), (!u.2.2.2.2.1 && decide (x.batch ≠ 0), 0x14),
      (decide (x.arg &&& u.2.2.2.2.2 ≠ x.arg), 0x1C), (keepBestShort pl x, 0x0E) ] ++ limitFaults x
  ((bads.filter (·.1)).map (·.2)).foldl (fun (a : Option Nat) o => match a with
    | none => some o
    | some v => some (min v o)) none

/-! ### Loops and worst-case sums (R148, R149, R198) -/

/-- The matching LOOP_END of every LOOP_BEGIN, as pairs, and the LOOP_BEGINs left open. -/
def loopPairs : Nat → List Nat → List KRec → List (Nat × Nat) × List Nat
  | _, st, [] => ([], st)
  | i, st, x :: xs =>
    if x.kernel = 0x01 then loopPairs (i + 1) (i :: st) xs
    else if x.kernel = 0x03 then
      match st with
      | [] => loopPairs (i + 1) [] xs
      | b :: st' => let t := loopPairs (i + 1) st' xs; ((b, i) :: t.1, t.2)
    else loopPairs (i + 1) st xs

/-- The loops of a plan. -/
def loopsOf (pl : Plan) : List (Nat × Nat) := (loopPairs 0 [] pl.recs).1

/-- Indices that break the nesting rules of R148: depth above 4, LOOP_END without a loop, LOOP_TEST outside one. -/
def loopBreaks : Nat → Nat → List KRec → List Nat
  | _, _, [] => []
  | i, dep, x :: xs =>
    match x.kernel with
    | 0x01 => (if 4 ≤ dep then [i] else []) ++ loopBreaks (i + 1) (dep + 1) xs
    | 0x02 => (if dep = 0 then [i] else []) ++ loopBreaks (i + 1) dep xs
    | 0x03 => (if dep = 0 then [i] else []) ++ loopBreaks (i + 1) (dep - 1) xs
    | _ => loopBreaks (i + 1) dep xs

/-- The lowest record index that breaks R148 (step 9 of R154). -/
def loopFault (pl : Plan) : Option Nat :=
  let lp := loopPairs 0 [] pl.recs
  let inR (e : PEntry) (i : Nat) : Bool := decide (e.first ≤ i ∧ i < e.first + e.count)
  let split := pl.entries.flatMap fun e => lp.1.flatMap fun be =>
    (if inR e be.1 && !inR e be.2 then [be.1] else []) ++ (if inR e be.2 && !inR e be.1 then [be.2] else [])
  (loopBreaks 0 0 pl.recs ++ lp.2 ++ split).foldl (fun (a : Option Nat) o => match a with
    | none => some o
    | some v => some (min v o)) none

/-- The worst-case sum of R149 over a list of records whose loops are whole, with a stack of open loops, each the sum
before it, its cap and the weight of its LOOP_BEGIN. -/
def wcRun (weight : KRec → Nat) : Nat → List (Nat × Nat × Nat) → List KRec → Nat
  | t, _, [] => t
  | t, st, x :: xs =>
    if x.kernel = 0x01 then wcRun weight 0 ((t, x.arg, weight x) :: st) xs
    else if x.kernel = 0x03 then
      match st with
      | [] => wcRun weight (t + weight x) [] xs
      | (t0, cap, wb) :: st' => wcRun weight (t0 + wb + cap * (t + weight x)) st' xs
    else wcRun weight (t + weight x) st xs

/-- Path weight of a record. -/
def pathWeight (x : KRec) : Nat := x.steps + 24
/-- Cluster-step weight of a record (R139). -/
def clusterWeight (x : KRec) : Nat := x.width * (x.steps + 24)

/-- A worst-case sum of an entry, in u64 arithmetic. -/
def wcEntry (pl : Plan) (e : PEntry) (weight : KRec → Nat) : Nat :=
  wcRun weight 0 [] ((entryRecs pl e).map (·.2)) % 2 ^ 64

/-- The loops of the plan that no other loop within the range [lo, hi] encloses, and that lie in it. -/
def outerLoops (pl : Plan) (lo hi : Nat) : List (Nat × Nat) :=
  let l := (loopsOf pl).filter (fun be => decide (lo ≤ be.1 ∧ be.2 ≤ hi))
  l.filter (fun be => !l.any (fun o => decide (o.1 < be.1 ∧ be.2 < o.2)))

/-- The lifetime of tile t's home in entry e (R198). -/
def lifetime (pl : Plan) (e : PEntry) (t : Tile) : Nat × Nat :=
  let lo := e.first
  let hi := e.first + e.count - 1
  let a := max t.firstUse lo
  let b := min t.lastUse hi
  let ls := outerLoops pl lo hi
  let a' := match ls.find? (fun be => decide (be.1 ≤ a ∧ a ≤ be.2)) with | some be => be.1 | none => a
  let b' := match ls.find? (fun be => decide (be.1 ≤ b ∧ b ≤ be.2)) with | some be => be.2 | none => b
  (a', b')

/-- The operand fields that a kernel uses (R147, R185, R221, R246, R262); what another field holds is ignored (R145) (log 11). -/
def usedOpnds (x : KRec) : List Nat :=
  match x.kernel with
  | 0x02 => if bitAt x.arg 0 then [0, 1, 2, 3] else [0, 3]
  | 0x05 => [0] | 0x06 => [0] | 0x10 => [0] | 0x11 => [0] | 0x18 => [0] | 0x1C => [0] | 0x1F => [0]
  | 0x04 => [0, 1] | 0x07 => [0, 1] | 0x08 => [0, 1] | 0x0C => [0, 1] | 0x12 => [0, 1] | 0x13 => [0, 1] | 0x14 => [0, 1]
  | 0x16 => [0, 1] | 0x19 => [0, 1] | 0x1D => [0, 1] | 0x20 => [0, 1] | 0x21 => [0, 1]
  | 0x09 => [0, 1, 2] | 0x0A => [0, 1, 2] | 0x0B => [0, 1, 2] | 0x17 => [0, 1, 2]
  | 0x15 => [0, 1, 2, 3] | 0x1B => [0, 1, 2, 3]
  | 0x1A => if bitAt x.arg 0 then [1, 2] else [0, 1, 2]
  | 0x1E => if bitAt x.arg 0 then [0, 1] else [0]
  | _ => []

/-- A record names a tile in an operand field that its kernel uses. -/
def names (x : KRec) (t : Nat) : Bool := (usedOpnds x).any (fun k => decide (x.opnd.getD k 0xFFFF = t))

/-- The entry's records that name a tile. -/
def namers (pl : Plan) (e : PEntry) (t : Nat) : List KRec :=
  ((entryRecs pl e).map (·.2)).filter (fun x => names x t)

/-- All records of a list have one WIDTH: that width. -/
def oneWidth : List KRec → Option Nat
  | [] => none
  | x :: xs => if xs.all (fun y => decide (y.width = x.width)) then some x.width else none

/-- The slice length of R199 for a width, in bytes. -/
def sliceLen (t : Tile) (w : Nat) : Nat :=
  if t.kind = 2 then ceilDiv t.count w * roundUp (t.rows * t.cols * elemSize t.prec) 64
  else roundUp (ceilDiv t.bytes w) 64

/-- PERSISTENT. -/
def persistentT (t : Tile) : Bool := bitAt t.tflags 1

/-- PEAK_STORE by R509. -/
def peakStore (pl : Plan) : Nat :=
  let cand := (List.range pl.tiles.length).filter (fun i =>
    let t := tileAt pl i; decide (t.binding = 0 ∧ (t.kind = 2 ∨ t.kind = 4)))
  let pers := (cand.filter (fun i => persistentT (tileAt pl i))).foldl (fun s i =>
    match oneWidth (pl.entries.flatMap (fun e => namers pl e i)) with
    | some w => s + sliceLen (tileAt pl i) w
    | none => s) 0
  pl.entries.foldl (fun mx e =>
    let hs := (cand.filter (fun i => !persistentT (tileAt pl i))).filterMap fun i =>
      (oneWidth (namers pl e i)).map fun w => (sliceLen (tileAt pl i) w, lifetime pl e (tileAt pl i))
    (entryRecs pl e).foldl (fun mx ix =>
      max mx (pers + hs.foldl (fun s h => if h.2.1 ≤ ix.1 ∧ ix.1 ≤ h.2.2 then s + h.1 else s) 0)) mx) 0

/-! ### Checks 1–11 of a plan image (R154) -/

/-- CRC-32C of bytes 0 to n − 1 with the u32 at `o` taken as 0. -/
def crcWithout (b : List Byte) (o n : Nat) : Nat := crc32c (sliceB (overlay b o [0, 0, 0, 0]) 0 n)

/-- All `n` bytes at an offset are 0. -/
def zeroAt (b : List Byte) (o n : Nat) : Bool := decide (fieldLE b o n = 0)

/-- BAD_PARAM with one result. -/
def bad1 (detail r0 : Nat) : Res := ⟨stBadParam, detail, r0, 0, 0, 0⟩

/-- Step 1: MAGIC "ISVP", FORMAT, FLAGS, zero fields, PLAN_ID. -/
def imgStep1 (b : List Byte) : Option Res :=
  (firstBad [ (decide (fieldLE b 0 4 ≠ 0x50565349), 0x00), (decide (fieldLE b 4 2 ≠ 1), 0x04),
    (decide (1 < fieldLE b 6 2), 0x06), (zeroAt b 0x14 4, 0x14), (!zeroAt b 0x3C 4, 0x3C),
    (!zeroAt b 0xD8 40, 0xD8) ]).map (bad1 0x40)

/-- The image is signed. -/
def imgSigned (b : List Byte) : Bool := decide (fieldLE b 6 2 % 2 = 1)

/-- Sections of the image: first byte, byte after the last, and the header field that places it. -/
def imgSections (b : List Byte) : List (Nat × Nat × Nat) :=
  [ (0, 0x100, 0), (fieldLE b 0x20 4, fieldLE b 0x20 4 + 32 * fieldLE b 0x24 4, 0x20),
    (fieldLE b 0x28 4, fieldLE b 0x28 4 + 32 * fieldLE b 0x2C 4, 0x28),
    (fieldLE b 0x30 4, fieldLE b 0x30 4 + 32 * fieldLE b 0x34 4, 0x30) ] ++
  (if imgSigned b then [(fieldLE b 0x38 4, fieldLE b 0x10 4, 0x38)] else [])

/-- The first section, in header order, that overlaps an earlier one. -/
def sectionOverlap : List (Nat × Nat × Nat) → List (Nat × Nat × Nat) → Option Nat
  | _, [] => none
  | seen, s :: ss =>
    if seen.any (fun x => decide (s.1 < x.2.1 ∧ x.1 < s.2.1)) then some s.2.2 else sectionOverlap (s :: seen) ss

/-- Step 2: lengths, counts, alignments, sections inside and apart. -/
def imgStep2 (b : List Byte) (bufLen : Nat) : Option Res :=
  let len := fieldLE b 0x10 4
  let so := fieldLE b 0x38 4
  let sec (o c mx : Nat) : List (Bool × Nat) :=
    let off := fieldLE b o 4
    let n := fieldLE b c 4
    [(decide (off % 32 ≠ 0 ∨ off < 0x100 ∨ len < off + 32 * n), o), (decide (n = 0 ∨ mx < n), c)]
  ((firstBad ([(decide (bufLen < len ∨ len % 64 ≠ 0 ∨ 0x4000000 < len ∨ len < 0x100), 0x10)] ++
      sec 0x20 0x24 4096 ++ sec 0x28 0x2C 16 ++ sec 0x30 0x34 65536 ++
      [(if imgSigned b then decide (so % 64 ≠ 0 ∨ so < 0x100 ∨ len < so + 4 ∨ len < so + 4 + fieldLE b so 4)
        else decide (so ≠ 0), 0x38)])).or
    (sectionOverlap [] (imgSections b))).map (bad1 0x41)

/-- Step 3: IMAGE_CRC. -/
def imgStep3 (b : List Byte) : Option Res :=
  let n := if imgSigned b then fieldLE b 0x38 4 else fieldLE b 0x10 4
  if crcWithout b 0x1C n = fieldLE b 0x1C 4 then none else some (badParam 0x42)

/-- The signature rules of R163 for an object whose signed bytes are the first `n` and whose block stands at `n`. -/
def signCheck (d : Dev) (cls : Nat) (b : List Byte) (signed : Bool) (n : Nat) : Option Res :=
  if signed then verifyWith d d.pln.policySlot cls (sliceB b 0 n) (sliceB b (n + 4) (fieldLE b n 4))
  else if d.pln.requireSigned then some (refuse stNotAuth 0x01) else none

/-- STRUCTURE_MISMATCH with the committed signature. -/
def structMismatch (d : Dev) : Res := ⟨stStructure, 0, lo32 d.mdl.com.sig, hi32 d.mdl.com.sig, 0, 0⟩

/-- Step 5: STRUCT_SIG. -/
def imgStep5 (d : Dev) (b : List Byte) : Option Res :=
  if fieldLE b 8 8 = d.mdl.com.sig ∨ fieldLE b 8 8 = sigStaged d then none else some (structMismatch d)

/-- Records, over the whole list, that name a tile. -/
def usesOf (pl : Plan) (t : Nat) : List Nat := idxWhere pl.recs.length (fun i => names (recAt pl i) t)

/-- The fault of a tile descriptor, as an offset within it (R143, R219, R264). -/
def tileFault (pl : Plan) (b : List Byte) (o i : Nat) : Option Nat :=
  let t := tileAt pl i
  let us := usesOf pl i
  firstBad [ (decide (4 < t.kind), 0), (decide (2 < t.prec), 1), (decide (6 < t.binding), 2),
    (decide (3 < t.tflags), 3), (decide (t.kind ≤ 1 ∧ t.count ≠ 1), 0xC),
    (decide (t.bytes ≠ roundUp (t.rows * t.cols * t.count * elemSize t.prec) 64) ||
      (decide (t.binding = 5) && decide (0x1000000 < t.bytes)), 0x10),
    (decide (t.binding < 3 ∧ t.bindIndex ≠ 0) || decide (t.binding = 5 ∧ 3 < t.bindIndex) ||
      decide (t.binding = 6 ∧ 4 < t.bindIndex), 0x14),
    (!zeroAt b (o + 0x16) 2, 0x16),
    (!us.isEmpty && decide (us.head? ≠ some t.firstUse), 0x18),
    (!us.isEmpty && decide (us.getLast? ≠ some t.lastUse), 0x1C) ]

/-- Step 6: tile descriptors. -/
def imgStep6 (pl : Plan) (b : List Byte) : Option Res :=
  (List.range pl.tiles.length).findSome? fun i =>
    let o := fieldLE b 0x20 4 + 32 * i
    (tileFault pl b o i).map (fun f => bad1 0x43 (o + f))

/-- Step 7: records. -/
def imgStep7 (pl : Plan) (b : List Byte) : Option Res :=
  (List.range pl.recs.length).findSome? fun i =>
    (recFault pl (recAt pl i)).map (fun f => bad1 0x44 (fieldLE b 0x30 4 + 32 * i + f))

/-- Step 8: STEPS. -/
def imgStep8 (pl : Plan) : Option Res :=
  (List.range pl.recs.length).findSome? fun i =>
    let x := recAt pl i
    if x.steps = kernelSteps x then none else some ⟨stBadParam, 0x45, i, lo32 (kernelSteps x), 0, 0⟩

/-- Step 10: entries. -/
def imgStep10 (pl : Plan) (b : List Byte) : Option Res :=
  (List.range pl.entries.length).findSome? fun i =>
    let e := entryAt pl i
    let xs := (entryRecs pl e).map (·.2)
    let good :=
      ((decide (e.cls = 3 ∨ e.cls = 4 ∨ e.cls = 5) && decide (5 ≤ e.opgroup ∧ e.opgroup ≤ 7)) ||
        decide (e.cls = 13 ∧ e.opgroup = 0)) &&
      zeroAt b (fieldLE b 0x28 4 + 32 * i + 2) 2 &&
      decide (1 ≤ e.count ∧ e.first + e.count ≤ pl.recs.length) &&
      (decide (e.cls = 13) || !xs.any (fun x => decide (x.kernel = 0x22))) &&
      decide (e.maxWidth = (xs.map (·.width)).foldl max 0) &&
      decide (e.wcCluster = wcEntry pl e clusterWeight) && decide (e.wcPath = wcEntry pl e pathWeight)
    if good then none else some (bad1 0x47 i)

/-- Step 11: header sums. -/
def imgStep11 (pl : Plan) (b : List Byte) : Option Res :=
  let cs (c : Nat) : Nat :=
    ((pl.entries.filter (fun e => e.cls = c)).map (fun e => e.wcCluster)).foldl (· + ·) 0 % 2 ^ 64
  (firstBad ((List.range 16).map (fun c => (decide (fieldLE b (0x40 + 8 * c) 8 ≠ cs c), 0x40 + 8 * c)) ++
    [ (decide (fieldLE b 0xD0 4 ≠ peakStore pl) || decide (0x100000 < peakStore pl), 0xD0),
      (decide (fieldLE b 0xD4 4 ≠ (pl.recs.map (·.width)).foldl max 0), 0xD4) ])).map (bad1 0x48)

/-- Steps 1–11 of R154 in order; PLACE_PREDICT leaves out step 4 (R212). -/
def imageFault (d : Dev) (cls : Nat) (b : List Byte) (bufLen : Nat) (withSig : Bool) : Option Res :=
  match imgStep1 b with
  | some x => some x
  | none => match imgStep2 b bufLen with
  | some x => some x
  | none => match imgStep3 b with
  | some x => some x
  | none => match (if withSig then signCheck d cls b (imgSigned b) (fieldLE b 0x38 4) else none) with
  | some x => some x
  | none => match imgStep5 d b with
  | some x => some x
  | none =>
    let pl := planOfBytes b
    ((((imgStep6 pl b).or (imgStep7 pl b)).or (imgStep8 pl)).or ((loopFault pl).map (bad1 0x46))).or
      ((imgStep10 pl b).or (imgStep11 pl b))

/-! ### Frame plans (R151–R153) -/

/-- A currency row at an offset. -/
def floorCeilOf (b : List Byte) (o : Nat) : FloorCeil := ⟨fieldLE b o 4, fieldLE b (o + 4) 4⟩

/-- The sixteen nibbles of a u64. -/
def nibbles (v : Nat) : List Nat := (List.range 16).map (fun i => bits v (4 * i + 3) (4 * i))

/-- The frame plan that bytes spell. -/
def framePlanOf (b : List Byte) : FramePlan :=
  { fpId := fieldLE b 8 4, frameLen := fieldLE b 0xC 4, cutOrder := nibbles (fieldLE b 0x10 8),
    slotOrder := nibbles (fieldLE b 0x18 8), bandAssumed := fieldLE b 0x28 1,
    classes := (List.range 16).map fun c =>
      ⟨floorCeilOf b (0x40 + 32 * c), floorCeilOf b (0x48 + 32 * c), floorCeilOf b (0x50 + 32 * c)⟩ }

/-- A permutation of 0–15. -/
def isPerm16 (l : List Nat) : Bool := (List.range 16).all (fun i => l.contains i)

/-- A currency row is acceptable for a class (R152). -/
def rowOk (c : Nat) (x : Currency) (fc : FloorCeil) : Bool :=
  if hasCurrency c x then decide (fc.floor ≤ fc.ceil) else decide (fc.floor = 0 ∧ fc.ceil = 0)

/-- The rows of a class budget are acceptable. -/
def budgetOk (c : Nat) (x : ClassBudget) : Bool :=
  rowOk c .steps x.steps && rowOk c .beats x.beats && rowOk c .mgmt x.mgmt

/-- R_b in M steps/s (R174). -/
def bandRate (b : Nat) : Nat :=
  [1650, 1550, 1450, 1350, 1250, 1150, 1050, 1000, 950, 900, 850, 800, 750, 700, 600, 550].getD b 550

/-- N: clusters in service; a retirement lowers it from the next boundary (R190). -/
def inService (d : Dev) : Nat := (d.thr.clusters.filter (fun c => c.state = 0)).length + d.thr.shed.length

/-- N × R_b × L in cluster-steps: M steps/s × ns / 1000. -/
def capSteps (d : Dev) (band : Nat) : Nat := inService d * bandRate band * d.sys.frameLen / 1000

/-- The sum of a kind of floor over a frame plan. -/
def floorSum (fp : FramePlan) (f : ClassBudget → Nat) : Nat := (fp.classes.map f).foldl (· + ·) 0

/-- Admission of a frame plan (R153): the refusal, or whether the governor must raise. -/
def admission (d : Dev) (fp : FramePlan) : Res ⊕ Bool :=
  let s := floorSum fp (·.steps.floor)
  let bt := floorSum fp (·.beats.floor)
  let mg := floorSum fp (·.mgmt.floor)
  let cp := capSteps d d.thr.band
  let cx := max cp (capSteps d d.thr.bandMax)
  let us := d.sys.frameLen
  if cx < s then .inl ⟨stBudget, 1, lo32 s, lo32 cx, 0, 0⟩
  else if 900 * us / 1000 < bt then .inl ⟨stBudget, 2, lo32 bt, lo32 (900 * us / 1000), 0, 0⟩
  else if 8 * us / 10000 < mg then .inl ⟨stBudget, 3, lo32 mg, lo32 (8 * us / 10000), 0, 0⟩
  else .inr (decide (cp < s))

/-- The content of a frame plan is acceptable (R151, R152, R154, R163), before admission. -/
def framePlanFault (d : Dev) (cls : Nat) (b : List Byte) (bufLen : Nat) : Option Res :=
  let signed := decide (fieldLE b 6 2 % 2 = 1)
  let len := fieldLE b 0x20 4
  let fp := framePlanOf b
  let lenOk := if signed then decide (580 ≤ len ∧ len ≤ bufLen ∧ 580 + fieldLE b 576 4 ≤ len) else
    decide (len = 576 ∧ 576 ≤ bufLen)
  if fieldLE b 0 4 ≠ 0x42565349 ∨ fieldLE b 4 2 ≠ 1 ∨ 1 < fieldLE b 6 2 ∨ fp.fpId = 0 ∨ !lenOk ∨ !zeroAt b 0x29 23 ∨
      !(List.range 16).all (fun c => zeroAt b (0x58 + 32 * c) 8) ∨ crcWithout b 0x24 576 ≠ fieldLE b 0x24 4 then
    some (badParam 0x50)
  else if !(List.range 16).all (fun c => budgetOk c (fp.classes.getD c ClassBudget.open)) then some (badParam 0x51)
  else if !isPerm16 fp.cutOrder || !isPerm16 fp.slotOrder then some (badParam 0x52)
  else signCheck d cls b signed 576

end Sys2Proof.Machine
end

