-- ==== Sys2Proof/Machine/Launch.lean ====
section
/-!
DEFINITION. Accounting of the launch queue: entries that fire, are removed or are suppressed, and the final completion
of the LAUNCH_QUEUE that queued them (spec/14_time_ethernet_launch.md R339–R345, spec/11_run_ahead.md R270, R272).
-/

namespace Sys2Proof.Machine

/-- What became of an entry. -/
inductive LFate
  | fired | removed | cancelled | suppressed | squashed (cause : Nat)
  deriving DecidableEq, Repr

/-- The final completion of a LAUNCH_QUEUE (R344): the first status that applies. -/
def groupResult (g : LGroup) : Res :=
  match g.squash with
  | some c => ⟨stSquashed, c, lo32 g.period, hi32 g.period, g.fired, g.unfired⟩
  | none =>
    if g.cancelled then ⟨stCancelled, 0, g.fired, g.unfired, 0, 0⟩
    else if g.suppressed then ⟨stSuppressed, 0, lo32 g.period, hi32 g.period, g.fired, g.unfired⟩
    else ok g.fired g.unfired 0 0

/-- The account of a command after one of its entries met a fate. -/
def groupFate (f : LFate) (g : LGroup) : LGroup :=
  let g1 := { g with left := g.left - 1 }
  match f with
  | .fired => { g1 with fired := g.fired + 1 }
  | .removed => { g1 with unfired := g.unfired + 1 }
  | .cancelled => { g1 with unfired := g.unfired + 1, cancelled := true }
  | .suppressed => { g1 with unfired := g.unfired + 1, suppressed := true }
  | .squashed c => { g1 with unfired := g.unfired + 1, squash := some c }

/-- A command whose last entry is gone completes. -/
def closeGroup (cmd : Nat) (d : Dev) : Dev :=
  match d.lch.groups.find? (fun g => g.cmd = cmd) with
  | some g =>
    if g.left = 0 then complete cmd (groupResult g) { d with lch.groups := d.lch.groups.filter (fun x => x.cmd ≠ cmd) }
    else d
  | none => d

/-- Entry i becomes unused with a fate. -/
def dropEntry (i : Nat) (f : LFate) (d : Dev) : Dev :=
  match smGet none d.lch.q i with
  | none => d
  | some e =>
    let d1 := { d with lch.q := smSet none d.lch.q i none }
    if i ≤ 256 then d1
    else closeGroup e.owner
      { d1 with lch.groups := d1.lch.groups.map (fun g => if g.cmd = e.owner then groupFate f g else g) }

/-- The indices of the entries that a test picks. -/
def entriesWhere (d : Dev) (p : Nat → LEntry → Bool) : List Nat :=
  d.lch.q.filterMap (fun kv => match kv.2 with
    | some e => if p kv.1 e then some kv.1 else none
    | none => none)

/-- Every entry that a test picks meets a fate. -/
def dropWhere (p : Nat → LEntry → Bool) (f : LFate) (d : Dev) : Dev :=
  (entriesWhere d p).foldl (fun d i => dropEntry i f d) d

/-- The launches of a squashed period are removed (R270). -/
def squashLaunches (n cause : Nat) (d : Dev) : Dev :=
  let k := (entriesWhere d (fun _ e => e.spec == some n)).length
  bump 7 11 k (dropWhere (fun _ e => e.spec == some n) (.squashed cause) d)

/-- The launches of a committed period become firm (R269). -/
def firmLaunches (n : Nat) (d : Dev) : Dev :=
  { d with lch.q := smMap none (fun _ e => e.map (fun x => if x.spec = some n then { x with spec := none, flags := x.flags &&& 2 } else x)) d.lch.q }

end Sys2Proof.Machine
end

