-- ==== Sys2Proof/Machine/Runs.lean ====
section
/-!
DEFINITION. How runs of plan entries end, and how run-ahead periods commit and are squashed
(spec/06_plans_static_schedule.md R164, spec/09_sheaf_solvers.md R229, R234, spec/10_least_squares.md R257,
spec/11_run_ahead.md R269–R273).
-/

namespace Sys2Proof.Machine

/-- A run by its number. -/
def findRun (d : Dev) (id : Nat) : Option Run := d.pln.runs.find? (fun r => r.id = id)

/-- A run is replaced. -/
def setRun (r : Run) (d : Dev) : Dev := { d with pln.runs := d.pln.runs.map (fun x => if x.id = r.id then r else x) }

/-- The sheaf half of a run. -/
def sheafOf (d : Dev) (id : Nat) : Option SheafRun := d.shf.find? (fun s => s.run = id)
/-- It is replaced. -/
def setSheaf (s : SheafRun) (d : Dev) : Dev := { d with shf := d.shf.map (fun x => if x.run = s.run then s else x) }
/-- The estimate half of a run. -/
def lsqOf (d : Dev) (id : Nat) : Option LsqRun := d.lsq.runs.find? (fun s => s.run = id)
/-- It is replaced. -/
def setLsq (s : LsqRun) (d : Dev) : Dev :=
  { d with lsq.runs := d.lsq.runs.map (fun x => if x.run = s.run then s else x) }

/-- A run and all it holds are released: homes, pinned set, model binding. -/
def dropRun (id : Nat) (d : Dev) : Dev :=
  let d1 := unpinSet id { d with pln.runs := d.pln.runs.filter (fun r => r.id ≠ id),
                                 shf := d.shf.filter (fun s => s.run ≠ id),
                                 lsq.runs := d.lsq.runs.filter (fun s => s.run ≠ id),
                                 ra.setsFor := smSet [] d.ra.setsFor id [], ra.testSets := smSet [] d.ra.testSets id [] }
  if prevBound d1 then d1 else { d1 with mdl.prev := none }

/-- The counter of a run's completion; CANCELLED is counted with its command (R234, R257). -/
def countEnd (k : RunKind) (st : Nat) (d : Dev) : Dev :=
  match k with
  | .sheaf =>
    if st = stOk then bump 5 1 1 d else if st = stRegularised then bump 5 2 1 d
    else if st = stPartial then bump 5 3 1 d else if st = stNumeric then bump 5 4 1 d
    else if st = stDeadline then bump 5 5 1 d else d
  | .lsq =>
    if st = stOk then bump 6 1 1 d else if st = stCold then bump 6 2 1 d
    else if st = stPartial then bump 6 3 1 d else if st = stRegularised then bump 6 4 1 d
    else if st = stNumeric then bump 6 5 1 d else if st = stDeadline then bump 6 6 1 d else d
  | _ => d

/-! ### Periods (R269, R270) -/

/-- A period that is open or waits to commit. -/
def periodOf (d : Dev) (n : Nat) : Option Period := d.ra.periods.find? (fun p => p.n = n)
/-- It is replaced. -/
def setPeriod (p : Period) (d : Dev) : Dev :=
  { d with ra.periods := d.ra.periods.map (fun x => if x.n = p.n then p else x) }
/-- Speculative runs of a period in progress. -/
def specRuns (d : Dev) (n : Nat) : List Run := d.pln.runs.filter (fun r => r.spec == some n && r.kind ≠ .extrapolate)

/-- Re-solves of a period that wait for their turn, against its frozen values (R271). -/
def specResolves (d : Dev) (n : Nat) : List ReSolve := d.ra.resolves.filter (fun x => decide (x.period = n) && !x.firm)

/-- Speculative runs of a period, re-solves that wait for their turn among them, are still in progress (R269, R271). -/
def periodBusy (d : Dev) (n : Nat) : Bool := !(specRuns d n).isEmpty || !(specResolves d n).isEmpty

/-- An entry of the resolution log, newest first, sixteen of them (R278). -/
def logResolution (x : Resolution) (d : Dev) : Dev := { d with ra.log := (x :: d.ra.log).take 16 }

/-- A period commits (R269): the pointer swap, the staged estimate, the launches, the final completions. -/
def commitPeriod (p : Period) (d : Dev) : Dev :=
  let d1 := { d with ra.periods := d.ra.periods.filter (fun x => x.n ≠ p.n),
                     ra.resBuf := if p.wrote then p.buf else d.ra.resBuf,
                     lsq.pub := p.staged.or d.lsq.pub }
  let d2 := logResolution ⟨p.n, false, p.commitWait, 0xFFFFFFFF, 0, p.resTime⟩ (firmLaunches p.n (bump 7 2 1 d1))
  p.ended.foldl (fun d e => complete e.cmd ⟨e.status, e.detail, e.r0, e.r1, e.r2, e.r3⟩ d) d2

/-- A period in COMMIT_WAIT commits once nothing of it is in progress (R269). -/
def commitWhenDone (n : Nat) (d : Dev) : Dev :=
  match periodOf d n with
  | some p => if p.commitWait && !periodBusy d n then commitPeriod p d else d
  | none => d

/-- Every period in COMMIT_WAIT is looked at again. -/
def commitReady (d : Dev) : Dev := (d.ra.periods.map (·.n)).foldl (fun d n => commitWhenDone n d) d

/-- SQUASHED of a period (R273). -/
def squashedRes (n cause first fails : Nat) : Res := ⟨stSquashed, cause, lo32 n, hi32 n, first, fails⟩

/-- One command of a squashed period completes SQUASHED, going on as a re-solve where there is one (R271, R273). -/
def squashCmd (n cause first fails age : Nat) (cmd : Nat) (d : Dev) : Dev :=
  if cause ≤ 2 then
    let d1 := completeMore cmd (squashedRes n cause first fails) d
    { d1 with ra.resolves := d1.ra.resolves ++ [⟨cmd, n, cause = 1, age⟩] }
  else complete cmd (squashedRes n cause first fails) d

/-- What has not started of a period that failed its test runs firm (R271). -/
def firmRest (n : Nat) (d : Dev) : Dev :=
  { d with pln.runs := d.pln.runs.map (fun r => if r.spec = some n ∧ r.kind ≠ .extrapolate then { r with spec := none } else r),
           ra.resolves := d.ra.resolves.map (fun x => if x.period = n then { x with firm := true } else x) }

/-- A period is squashed (R270). Runs not yet started are not squashed: they run as the re-solve would (R271). Causes 0x03 and
0x04 have no re-solve: one that waits for its turn ends SQUASHED. Of several causes on one tick the lowest row of the table
decides which is counted (log 144). -/
def squashPeriod (n cause first fails : Nat) (d : Dev) : Dev :=
  match periodOf d n with
  | none => d
  | some p =>
    let rs := (specRuns d n).filter (fun r => r.phase ≠ .queued)
    let d1 := rs.foldl (fun d r => squashCmd n cause first fails r.id r.cmd (dropRun r.id d)) d
    let d2 := p.ended.foldl (fun d e => squashCmd n cause first fails e.age e.cmd d) d1
    let d3 := if cause = 1 then firmRest n d2
      else if cause = 2 then d2
      else (specResolves d2 n).foldl (fun d e => complete e.cmd (squashedRes n cause first fails) d) d2
    let decided := decide (p.lastSquash.1 = now d ∧ cause < p.lastSquash.2)
    let gone := decide (cause = 1) || p.commitWait
    let d4 := if gone then { d3 with ra.periods := d3.ra.periods.filter (fun x => x.n ≠ n) }
      else setPeriod { p with wrote := false, staged := none, ended := [], frozen := p.frozen && decide (cause ≠ 3),
                              lastSquash := if decided then p.lastSquash else (now d, cause) } d3
    let d5 := if gone then logResolution ⟨n, true, p.commitWait, first, fails, p.resTime⟩ d4 else d4
    squashLaunches n cause (if decided then d5 else bump 7 (3 + cause) 1 d5)

/-- A period holds a run without INDEPENDENT (R270). -/
def periodDependent (d : Dev) (p : Period) : Bool :=
  (specRuns d p.n).any (fun r => !r.indep) || p.ended.any (fun e => !e.indep)

/-- The periods after n that are open. -/
def laterOpen (d : Dev) (n : Nat) : List Period := d.ra.periods.filter (fun p => !p.commitWait && decide (n < p.n))

/-- A squash of period n for an input that failed, with its cascade (R270). -/
def squashResolved (n first fails : Nat) (d : Dev) : Dev :=
  let later := (laterOpen d n).filter (periodDependent d)
  later.foldl (fun d p => squashPeriod p.n 2 0xFFFFFFFF 0 d) (squashPeriod n 1 first fails d)

/-! ### Ends -/

/-- A run ends with an outcome; the self-test and another unit's share have no command here. A speculative run whose period has not resolved keeps its outcome for the commit
(R273). -/
def endRun (r : Run) (x : Res) (d : Dev) : Dev :=
  let d1 := dropRun r.id (countEnd r.kind x.status d)
  let d1 := if r.resolve then { d1 with ra.resolving := d1.pln.runs.any (fun y => y.resolve) } else d1
  if r.kind = .selfTest ∨ r.kind = .share then d1
  else match (if r.kind = .extrapolate then none else r.spec) with
  | none => complete r.cmd x d1
  | some n =>
    match periodOf d1 n with
    | none => complete r.cmd x d1
    | some p =>
      if x.status = stCancelled ∨ x.status = stInternal ∨ p.commitWait then commitWhenDone n (complete r.cmd x d1)
      else
        setPeriod { p with ended := p.ended ++ [⟨r.cmd, x.status, x.detail, x.r0, x.r1, x.r2, x.r3, r.indep, r.id⟩] }
          (completeMore r.cmd x d1)

/-- A run stops at its next step boundary with an outcome of its own: CANCELLED, or INTERNAL_ERROR (R189, R205). A
run in its status phase has its records behind it and completes as it would otherwise (R229). -/
def stopRun (r : Run) (x : Res) (d : Dev) : Dev := if r.phase = .status then d else endRun r x d

/-- INTERNAL_ERROR of a lost cluster (R189) (log 62). -/
def lostCluster (phys : Nat) : Res := ⟨stInternal, 0, 0x70000 + phys, 0, 0, 0⟩

end Sys2Proof.Machine
end

