-- ==== Sys2Proof/Machine/Place.lean ====
section
/-!
DEFINITION. Placement: areas, windows, homes, re-placement, and the commands of group 0x04
(spec/08_placement.md R191–R214).
-/

namespace Sys2Proof.Machine

/-! ### Inputs (R191–R193, R201) -/

/-- Clusters in service of a unit, by its report. -/
def peerClusters (p : Peer) : Nat := (idxWhere 34 (fun k => bitAt (repF p 0x10 8) k)).length

/-- Clusters in service of the partner: by the mask that the mirror carries to a standby, else by its report (R193, R415). -/
def partnerClusters (d : Dev) : Nat :=
  match d.trl.avail with
  | some m => (idxWhere 34 (fun k => bitAt m k)).length
  | none => peerClusters (peerOf d (partnerAddr d))

/-- N_eff as a frame boundary finds it: on a unit of a pair the smaller N of the two (R193). -/
def nBoundary (d : Dev) : Nat := if paired d then min (inService d) (partnerClusters d) else inService d

/-- The effective cluster count: on a unit of a pair the one of the last frame boundary (R193). -/
def nEff (d : Dev) : Nat := if paired d then d.plc.nLast else inService d

/-- The effective cluster count of another unit: its own N, or the smaller N of its pair, by the reports (R193, R202). -/
def peerEff (d : Dev) (a : Nat) : Nat :=
  let p := peerOf d a
  let q := bits (repF p 2 1) 6 2
  if q = 0 ∨ q = a then peerClusters p
  else if q = ownAddr d then (if partnerAddr d = a then min (peerClusters p) (inService d) else peerClusters p)
  else if (peerOf d q).present && decide (bits (repF (peerOf d q) 2 1) 6 2 = a) then min (peerClusters p) (peerClusters (peerOf d q))
  else peerClusters p

/-- PLC_GROUP.MEMBERS applied, bit a for unit a; a mask without the unit's own bit acts as 0. -/
def groupMask (d : Dev) : Nat :=
  let m := fldA d Reg.plcGroup 16 1 <<< 1
  if bitAt m (ownAddr d) && decide (ownAddr d ≠ 0) then m else 0

/-- Members that are absent or report another mask (R208). -/
def groupMissing (d : Dev) : List Nat :=
  (idxWhere 17 (fun a => bitAt (groupMask d) a && decide (a ≠ ownAddr d))).filter (fun a =>
    let p := peerOf d a
    !p.present || decide (repF p 0x20 2 <<< 1 ≠ groupMask d))

/-- GROUP_OK. -/
def groupOk (d : Dev) : Bool := decide (groupMask d ≠ 0) && (groupMissing d).isEmpty

/-- The applied values of the sizes that R192 latches; J above 0x1C0 acts as 0x1C0. -/
def appliedSizes (d : Dev) : PlcSizes :=
  { h := fldA d Reg.plcHostDram 12 0, g := fldA d Reg.plcGuestDram 8 0, j := min (fldA d Reg.plcHostLoft 8 0) 0x1C0,
    remote := fldA d Reg.plcCtl 1 1 = 1 }

/-- The sizes are latched, or the latch is refused (R192). -/
def latchSizes (d : Dev) : Dev :=
  let s := appliedSizes d
  if 7168 < s.h + 16 * s.g then { d with plc.sizesBad := true } else { d with plc.sizes := s, plc.sizesBad := false }

/-- First address of the guest area, of sizes H and G in MiB (R191). -/
def guestBase (h g : Nat) : Nat := 0x200000000 - (h + 16 * g) * 0x100000
/-- First address of the DRAM pool. -/
def dramPool : Nat := 0x40000000
/-- Bytes of the Loft pool for J. -/
def loftPoolLen (j : Nat) : Nat := 0x1C00000 - j * 0x10000

/-- The size of the subarea that unit u keeps for this one, in 64-byte units. -/
def guestLen (d : Dev) (u : Nat) : Nat := (peerOf d u).g * 0x100000 / 64

/-! ### Fits (R198–R200) -/

/-- Two homes may not share bytes (R198). -/
def homesClash (a b : Home) : Bool :=
  !(decide (a.slot = b.slot ∧ a.entry = b.entry ∧ a.entry ≠ 0xFF) && (decide (a.life1 < b.life0) || decide (b.life1 < a.life0)))

/-- The byte ranges, in units, that candidates for `h` must avoid in its own space. -/
def occupied (h : Home) (homes : List Home) : List (Nat × Nat) :=
  (homes.filter (fun x => decide (x.home = h.home) && homesClash h x &&
    (match h.home with
     | 0 => decide (x.c0 < h.c0 + h.width ∧ h.c0 < x.c0 + x.width)
     | 3 => decide (x.unit = h.unit)
     | _ => true))).map (fun x => (x.offset, x.offset + x.len))

/-- The lowest offset at which `len` units fit below `limit` clear of the occupied ranges (first fit, R200). -/
def firstFit (occ : List (Nat × Nat)) (len limit : Nat) : Option Nat :=
  ((0 :: occ.map (·.2)).filter (fun c =>
    decide (c + len ≤ limit) && occ.all (fun o => decide (c + len ≤ o.1 ∨ o.2 ≤ c)))).foldl
    (fun (a : Option Nat) c => match a with
      | none => some c
      | some v => some (min v c)) none

/-- A home in its space at the first fit. -/
def fitHome (h : Home) (homes : List Home) (limit : Nat) : Option Home :=
  (firstFit (occupied h homes) h.len limit).map (fun o => { h with offset := o })

/-- The first index of the map that no home holds (R209). -/
def freeIdx (homes : List Home) : Nat :=
  ((List.range 4097).find? (fun i => !homes.any (fun h => h.idx = i))).getD 4096

/-- The product of the caps of the loops that enclose a record (R200). -/
def capProduct (pl : Plan) (i : Nat) : Nat :=
  ((loopsOf pl).filter (fun be => decide (be.1 ≤ i ∧ i ≤ be.2))).foldl (fun n be => n * (recAt pl be.1).arg) 1

/-- The access count of a tile (R200). -/
def accessCount (pl : Plan) (t : Nat) : Nat := (usesOf pl t).foldl (fun n i => n + capProduct pl i) 0

/-- Insertion into a list sorted by `lt`. -/
def insertBy {α : Type} (lt : α → α → Bool) (x : α) : List α → List α
  | [] => [x]
  | y :: ys => if lt x y then x :: y :: ys else y :: insertBy lt x ys

/-- A list sorted by `lt`, earlier ones first among equals. -/
def sortBy {α : Type} (lt : α → α → Bool) (l : List α) : List α := l.foldl (fun acc x => insertBy lt x acc) []

/-- Tiles in the order of R200: descending access count, ascending BYTES, ascending index. -/
def tileOrder (pl : Plan) : List Nat :=
  ((sortBy (fun (a b : Nat × Nat × Nat) =>
      decide (b.1 < a.1) || (decide (a.1 = b.1) && (decide (a.2.1 < b.2.1) || (decide (a.2.1 = b.2.1) && decide (a.2.2 < b.2.2)))))
    ((List.range pl.tiles.length).map (fun t => (accessCount pl t, (tileAt pl t).bytes, t)))).map (·.2.2))

/-- Window bases of a slot's entries and the new width sum (R195). -/
def windowBases (n : Nat) : Nat → List PEntry → List Nat × Nat
  | ws, [] => ([], ws)
  | ws, e :: es =>
    let r := windowBases n (ws + e.maxWidth) es
    (ws % (n - e.maxWidth + 1) :: r.1, r.2)

/-- The homes that tile t needs: by entry, or one for the slot when PERSISTENT (R198), with the WIDTH of the records
that name it when they agree, the window base, and the lifetime. -/
def neededHomes (pl : Plan) (c0s : List Nat) (t : Nat) : List (Nat × Option Nat × Nat × Nat × Nat) :=
  let tl := tileAt pl t
  let es := (List.range pl.entries.length).filter (fun e => !(namers pl (entryAt pl e) t).isEmpty)
  if persistentT tl then
    [(0xFF, oneWidth (pl.entries.flatMap (fun e => namers pl e t)), c0s.getD (es.headD 0) 0, 0, 0xFFFFFFFF)]
  else es.map fun e =>
    let lf := lifetime pl (entryAt pl e) tl
    (e, oneWidth (namers pl (entryAt pl e) t), c0s.getD e 0, lf.1, lf.2)

/-- What a placement attempt knows: latched sizes, group, own address. -/
structure PlaceEnv where
  slot : Nat
  pl : Plan
  sizes : PlcSizes
  n : Nat

/-- NO_PLACEMENT with its DETAIL and results (R208). -/
def noPlacement (detail r0 r1 : Nat) : Res := ⟨stNoPlacement, detail, r0, r1, 0, 0⟩

/-- The home of one need, by the order of choices of R200. -/
def homeFor (d : Dev) (env : PlaceEnv) (t : Nat) (need : Nat × Option Nat × Nat × Nat × Nat) (homes : List Home) :
    Res ⊕ Home :=
  let tl := tileAt env.pl t
  let base : Home := { idx := freeIdx homes, slot := env.slot, entry := need.1, tile := t, home := 4, unit := tl.binding,
                       c0 := 0, width := 0, offset := 0, len := 0, life0 := need.2.2.2.1, life1 := need.2.2.2.2 }
  if tl.binding ≠ 0 then .inr base
  else if 0x3FFFFFC0 < tl.bytes then .inl (noPlacement 2 t tl.bytes)
  else
    let units := tl.bytes / 64
    let striped : Option Home :=
      match need.2.1 with
      | some w => if tl.kind = 2 ∨ tl.kind = 4 then
          fitHome { base with home := 0, unit := 0, c0 := need.2.2.1, width := w, len := sliceLen tl w / 64 } homes (0x100000 / 64)
        else none
      | none => none
    match striped with
    | some h => .inr h
    | none =>
      match fitHome { base with home := 1, unit := 0, len := units } homes (loftPoolLen env.sizes.j / 64) with
      | some h => .inr h
      | none =>
        match fitHome { base with home := 2, unit := 0, len := units } homes
            ((guestBase env.sizes.h env.sizes.g - dramPool) / 64) with
        | some h => .inr h
        | none =>
          if env.sizes.remote then
            (if groupOk d then
              match (idxWhere 17 (fun a => bitAt (groupMask d) a && decide (a ≠ ownAddr d))).findSome? (fun u =>
                  fitHome { base with home := 3, unit := u, len := units } homes (guestLen d u)) with
              | some h => .inr h
              | none => .inl (noPlacement 2 t tl.bytes)
            else .inl (noPlacement 4 ((groupMissing d).foldl (fun m a => m ||| 1 <<< a) 0) 0))
          else .inl (noPlacement 2 t tl.bytes)

/-- Every need in order. -/
def homesLoop (d : Dev) (env : PlaceEnv) : List (Nat × (Nat × Option Nat × Nat × Nat × Nat)) → List Home → Res ⊕ List Home
  | [], homes => .inr homes
  | (t, need) :: rest, homes =>
    match homeFor d env t need homes with
    | .inl x => .inl x
    | .inr h => homesLoop d env rest (homes ++ [h])

/-- The placement of one slot among the homes of others: the refusal, or all homes, the window bases and the new width
sum (R195, R200, R208). -/
def placeSlot (d : Dev) (env : PlaceEnv) (ws : Nat) (homes : List Home) : Res ⊕ (List Home × List Nat × Nat) :=
  match (List.range env.pl.entries.length).find? (fun e => decide (env.n < (entryAt env.pl e).maxWidth)) with
  | some e => .inl (noPlacement 1 e env.n)
  | none =>
    let wb := windowBases env.n ws env.pl.entries
    let needs := (tileOrder env.pl).flatMap (fun t => (neededHomes env.pl wb.1 t).map (fun x => (t, x)))
    if 4096 < homes.length + needs.length then .inl (noPlacement 3 (homes.length + needs.length) 0)
    else match homesLoop d env needs homes with
      | .inl x => .inl x
      | .inr hs => .inr (hs, wb.1, wb.2)

/-! ### Where a tile's bytes lie (R197, R199, R209) -/

/-- The physical cluster that carries a logical number. -/
def physOf (d : Dev) (l : Nat) : Nat :=
  (((List.range 34).find? (fun k => decide ((clusterOf d k).logical = l) &&
    (decide ((clusterOf d k).state = 0) || d.thr.shed.contains k))).getD 33)

/-- Base device address of a cluster store. -/
def storeBase (k : Nat) : Nat := 0x1100000000 + k * 0x100000

/-- The device address of byte x of the contents of a plan-private tile in a home. -/
def homeByte (d : Dev) (tl : Tile) (h : Home) (x : Nat) : Nat :=
  match h.home with
  | 0 =>
    if tl.kind = 2 then
      let mb := tl.rows * tl.cols * elemSize tl.prec
      let j := x / mb
      storeBase (physOf d (h.c0 + j % h.width)) + 64 * h.offset + (j / h.width) * roundUp mb 64 + x % mb
    else
      let sl := 64 * h.len
      storeBase (physOf d (h.c0 + x / sl)) + 64 * h.offset + x % sl
  | 1 => loftBase + 64 * h.offset + x
  | 2 => dramPool + 64 * h.offset + x
  | _ =>
    let p := peerOf d h.unit
    0x8000000000 + h.unit * 0x400000000 + guestBase p.h p.g + (ownAddr d - 1) * p.g * 0x100000 + 64 * h.offset + x

/-! ### The map and its digest (R194, R209) -/

/-- A map entry; PHYS as given. -/
def homeBytes (h : Home) (phys : Nat) : List Byte :=
  leBytes 1 h.slot ++ leBytes 1 h.entry ++ leBytes 2 h.tile ++ leBytes 1 h.home ++ leBytes 1 h.unit ++
  leBytes 1 h.c0 ++ leBytes 1 h.width ++ leBytes 4 h.offset ++ leBytes 1 phys ++ leBytes 3 h.len

/-- The whole map; PHYS shown, or taken as 0 for the digest. -/
def mapBytes (d : Dev) (phys : Bool) : List Byte :=
  (List.range 4096).flatMap fun i =>
    match d.plc.homes.find? (fun h => h.idx = i) with
    | some h => homeBytes h (if !phys then 0 else if h.home = 0 then physOf d h.c0 else 0xFF)
    | none => [u8 0xFF] ++ List.replicate 15 0

/-- PLC_DIGEST. -/
def plcDigest (d : Dev) : Nat := leNat ((sha256 (mapBytes d false)).take 8)

/-! ### Slots -/

/-- A plan slot. -/
def pslot (d : Dev) (s : Nat) : PSlot := smGet PSlot.empty d.pln.slots s
/-- The plan in a slot. -/
def planIn (d : Dev) (s : Nat) : Option Plan := (pslot d s).plan
/-- Every slot is EMPTY. -/
def allEmpty (d : Dev) : Bool := (List.range 8).all (fun s => (planIn d s).isNone)
/-- The homes of a slot. -/
def slotHomes (d : Dev) (s : Nat) : List Home := d.plc.homes.filter (fun h => h.slot = s)
/-- The slot is unplaced (R206). -/
def unplacedSlot (d : Dev) (s : Nat) : Bool := smGet false d.plc.unplaced s

/-- No home holds bytes of a pool or a store (log 146). -/
def poolsEmpty (hs : List Home) : Bool := hs.all (fun h => decide (h.home = 4))

/-- A plan is placed into a slot whose own homes are released first; width_sum starts again from 0 where that leaves the pools
empty (R150, R195, R207) (log 146). -/
def placeInto (s : Nat) (pl : Plan) (d : Dev) : Res ⊕ Dev :=
  let others := d.plc.homes.filter (fun h => h.slot ≠ s)
  match placeSlot d ⟨s, pl, d.plc.sizes, nEff d⟩ (if poolsEmpty others then 0 else d.plc.widthSum) others with
  | .inl x => .inl x
  | .inr (hs, c0s, ws) =>
    .inr (bump 4 0 1 { d with plc.homes := hs, plc.c0 := smSet [] d.plc.c0 s c0s, plc.widthSum := ws,
                              plc.unplaced := smSet false d.plc.unplaced s false })

/-- The placement of an image is charged to class 0 (R200) (log 50). -/
def chargePlacement (pl : Plan) (d : Dev) : Dev := charge 0 .mgmt (Config.placeUs pl.tiles.length pl.entries.length).toNat d

/-- A slot's homes are released. -/
def releaseSlot (s : Nat) (d : Dev) : Dev :=
  { d with plc.homes := d.plc.homes.filter (fun h => h.slot ≠ s), plc.c0 := smSet [] d.plc.c0 s [],
           plc.unplaced := smSet false d.plc.unplaced s false }

/-! ### Changes to the inputs (R205, R206) -/

/-- The record a run executes. -/
def curRec (r : Run) : KRec := recAt r.plan r.idx

/-- The window of a run's entry includes a logical number. -/
def runWindow (r : Run) (l : Nat) : Bool :=
  decide (r.cluster ≤ l ∧ l < r.cluster + (entryAt r.plan r.entry).maxWidth)

/-- The record of a run lies on a logical number. -/
def recWindow (r : Run) (l : Nat) : Bool := decide (r.cluster ≤ l ∧ l < r.cluster + (curRec r).width)

/-- Part of the run's record has been executed. -/
def recStarted (r : Run) : Bool := decide (r.part ≠ 0 ∨ r.beat ≠ 0)

/-- A run holds a striped home on a logical cluster: its own homes, and the persistent ones of its slot. -/
def runHolds (d : Dev) (r : Run) (l : Nat) : Bool :=
  d.plc.homes.any (fun h => decide (h.slot = r.slot ∧ (h.entry = r.entry ∨ h.entry = 0xFF) ∧ h.home = 0 ∧
    h.c0 ≤ l ∧ l < h.c0 + h.width))

/-- Bytes [a, a + n) by device address become zero. -/
def zeroBytes (a n : Nat) (d : Dev) : Dev := wrBytes a (List.replicate n 0) d

/-- The persistent homes on a logical cluster are zeroed in its store and counted (R205). -/
def zeroHomesOn (l : Nat) (d : Dev) : Dev :=
  let hs := d.plc.homes.filter (fun h => decide (h.home = 0 ∧ h.c0 ≤ l ∧ l < h.c0 + h.width))
  let k := physOf d l
  let d1 := hs.foldl (fun d h => zeroBytes (storeBase k + 64 * h.offset) (64 * h.len) d) d
  let n := (hs.filter (fun h => h.entry = 0xFF)).length
  bump 4 5 n (addF Reg.plcLostCnt 31 0 n d1)

/-- A re-placement falls due (R206). -/
def replaceDue (d : Dev) : Dev := { d with plc.replacePend := true }

/-- A run in progress: one that has started (R196). -/
def runInProgress (d : Dev) : Bool := d.pln.runs.any (fun r => decide (r.phase ≠ .queued))

/-- A boundary at which a due re-placement can take place: its tick (R206, R212). -/
def replaceBoundary (d : Dev) : Dev :=
  { d with plc.replaceAt := if d.plc.replacePend then some d.tim.ticks else none }

/-- In-service clusters renumbered 0 to N_eff − 1 in ascending physical order (step 1 of R206). -/
def renumber (d : Dev) : Dev :=
  let n := nEff d
  let ins := idxWhere 34 (fun k => (clusterOf d k).state = 0)
  { d with thr.clusters := (List.range 34).map fun k =>
      let c := clusterOf d k
      match ins.idxOf? k with
      | some i => { c with logical := if i < n then i else 0x3F }
      | none => c }

/-- Bytes of a tile's contents: the elements, without the bytes that round BYTES up to 64. -/
def contentBytes (tl : Tile) : Nat := min tl.bytes (tileLen tl * elemSize tl.prec)

/-- Contents of a persistent home, by tile byte. -/
def homeContents (d : Dev) (pl : Plan) (h : Home) : List Byte :=
  let tl := tileAt pl h.tile
  (List.range (contentBytes tl)).map (fun x => (rdBytes d (homeByte d tl h x) 1).headD 0)

/-- Contents stored into a persistent home. -/
def putContents (pl : Plan) (h : Home) (bs : List Byte) (d : Dev) : Dev :=
  let tl := tileAt pl h.tile
  (List.range (contentBytes tl)).foldl (fun d x => wrBytes (homeByte d tl h x) [bs.getD x 0] d) d

/-- The re-placement of R206: clusters renumbered, sizes latched, every loaded slot placed afresh in ascending slot
order, persistent contents carried over. Results: masks of slots placed and unplaced. -/
def replaceAll (d : Dev) : Nat × Nat × Dev :=
  let old := d.plc.homes
  let saved := (old.filter (fun h => h.entry = 0xFF ∧ h.home ≠ 4)).map fun h =>
    let lost := d.plc.lostHomes.contains h.idx
    let pl := (planIn d h.slot).getD default
    (h.slot, h.tile, lost, if lost then [] else homeContents d pl h)
  let d1 := latchSizes (renumber d)
  let d2 := { d1 with plc.homes := [], plc.widthSum := 0, plc.c0 := [], plc.unplaced := [], plc.replacePend := false,
                      plc.replaceAt := none, plc.lost := [], plc.lostHomes := [] }
  let step := fun (acc : Nat × Nat × Dev) (s : Nat) =>
    match planIn acc.2.2 s with
    | none => acc
    | some pl =>
      match placeInto s pl (chargePlacement pl acc.2.2) with
      | .inl _ => (acc.1, acc.2.1 ||| 1 <<< s,
          { acc.2.2 with plc.unplaced := smSet false acc.2.2.plc.unplaced s true })
      | .inr d' => (acc.1 ||| 1 <<< s, acc.2.1, d')
  let r := (List.range 8).foldl step (0, 0, d2)
  let d3 := saved.foldl (fun d c =>
    match d.plc.homes.find? (fun h => decide (h.slot = c.1 ∧ h.tile = c.2.1 ∧ h.entry = 0xFF)) with
    | none => d
    | some h =>
      let pl := (planIn d h.slot).getD default
      let n := (tileAt pl h.tile).bytes
      if c.2.2.1 then bump 4 5 1 (addF Reg.plcLostCnt 31 0 1 (putContents pl h [] d))
      else charge 0 .beats (2 * beatsOf n) (putContents pl h c.2.2.2 d)) r.2.2
  (r.1, r.2.1, bump 4 2 1 (addF Reg.plcReplaceCnt 31 0 1 d3))

/-! ### Commands (R212, R213) -/

/-- The share-takers of a split of an entry, with their effective cluster counts (R201, R202). -/
def shareTakers (d : Dev) (slot : Nat) : List (Nat × Nat) :=
  (idxWhere 17 (fun a => bitAt (groupMask d) a)).filterMap fun a =>
    if a = ownAddr d then (if d.sys.mode = .standby then none else some (a, nEff d))
    else
      let p := peerOf d a
      if repF p 1 1 % 8 = 4 ∨ !p.present ∨ !bitAt p.images slot then none else some (a, peerEff d a)

/-- The entry is split-capable by its records (R201). -/
def splitCapable (pl : Plan) (e : PEntry) : Bool :=
  let xs := (entryRecs pl e).map (·.2)
  decide (e.opgroup = 5) &&
  xs.all (fun x => [0x04, 0x05, 0x07].contains x.kernel || decide (0x10 ≤ x.kernel ∧ x.kernel ≤ 0x17)) &&
  xs.all (fun x => decide (x.batch = (xs.headD default).batch))

/-- First member and member count of each share-taker (R202). -/
def shares (b : Nat) (ts : List (Nat × Nat)) : List (Nat × Nat × Nat) :=
  let tot := (ts.map (·.2)).foldl (· + ·) 0
  let base := ts.map (fun t => b * t.2 / max tot 1)
  let rest := b - base.foldl (· + ·) 0
  let cnt := (List.range ts.length).map (fun k => base.getD k 0 + (if k < rest then 1 else 0))
  (List.range ts.length).map fun k => ((ts.getD k (0, 0)).1, (cnt.take k).foldl (· + ·) 0, cnt.getD k 0)

/-- The split that an entry of a slot would take now; none when it would not split. -/
def splitOf (d : Dev) (slot : Nat) (pl : Plan) (e : PEntry) : Option (List (Nat × Nat × Nat)) :=
  let ts := shareTakers d slot
  if fldA d Reg.plcCtl 0 0 = 1 ∧ groupOk d ∧ 2 ≤ ts.length ∧ d.sys.mode ≠ .standby ∧ splitCapable pl e then
    some (shares (recAt pl e.first).batch ts) else none

/-- How much space a list of ranges covers, bytes that several of them share counted once. -/
def covered (l : List (Nat × Nat)) : Nat :=
  ((sortBy (fun (a b : Nat × Nat) => decide (a.1 < b.1)) l).foldl
    (fun (acc : Nat × Nat) x => (acc.1 + (x.2 - max acc.2 x.1), max acc.2 x.2)) (0, 0)).1

/-- Bytes that homes of one space hold (R213). -/
def heldBytes (hs : List Home) : Nat := 64 * covered (hs.map (fun h => (h.offset, h.offset + h.len)))

/-- Bytes that a slot's homes hold in a pool, or in the subareas of the partners. -/
def poolBytes (hs : List Home) (k : Nat) : Nat :=
  let us := ((hs.filter (fun h => h.home = k)).map (·.unit)).dedup
  (us.map (fun u => heldBytes (hs.filter (fun h => h.home = k ∧ h.unit = u)))).foldl (· + ·) 0

/-- The most striped bytes that a slot's homes hold in one store. -/
def storeBytes (hs : List Home) : Nat :=
  (List.range 34).foldl (fun mx l => max mx (heldBytes (hs.filter (fun h => decide (h.home = 0 ∧ h.c0 ≤ l ∧ l < h.c0 + h.width))))) 0

/-- The slot placement record (R213). -/
def slotRecord (d : Dev) (s : Nat) : List Byte :=
  let hs := slotHomes d s
  let pl := planIn d s
  let c0s := smGet [] d.plc.c0 s
  leBytes 1 s ++ leBytes 1 (b2n (pl.isSome && !unplacedSlot d s) + 2 * b2n (unplacedSlot d s) + 4 * fldA d Reg.plcCtl 0 0) ++
  leBytes 2 hs.length ++ leBytes 4 (storeBytes hs) ++ leBytes 8 (poolBytes hs 1) ++ leBytes 8 (poolBytes hs 2) ++
  leBytes 8 (poolBytes hs 3) ++
  List.replicate 32 (0 : Byte) ++
  ((List.range 16).flatMap fun e => (show List Byte from
    match pl with
    | none => [u8 0xFF] ++ List.replicate 15 0
    | some p =>
      if p.entries.length ≤ e then [u8 0xFF] ++ List.replicate 15 0
      else
        let en := entryAt p e
        let sp := splitOf d s p en
        let mine := (sp.getD []).find? (fun x => x.1 = ownAddr d)
        leBytes 1 (c0s.getD e 0xFF) ++ leBytes 1 en.maxWidth ++ leBytes 1 (sp.getD []).length ++ leBytes 1 0 ++
        leBytes 4 ((mine.map (·.2.1)).getD 0) ++ leBytes 4 ((mine.map (·.2.2)).getD 0) ++ leBytes 4 0))

def specPlaceQuery : OpSpec :=
  { opBase 0x0401 0xF8 with
    bufUse := .write
    bufOk := fun p _ => decide (bufL p = 0 ∨ 320 ≤ bufL p)
    params := fun p _ => (firstBad [(decide (7 < param p 0), 0x20)]).or (zeroFrom p 1) }

/-- PLACE_QUERY (R212, R213). -/
def effPlaceQuery : Nat → Pkt → Dev → Dev :=
  immediate fun p d =>
    let s := param p 0
    let g := plcDigest d
    (ok (slotHomes d s).length (b2n ((planIn d s).isSome && !unplacedSlot d s) + 2 * b2n (unplacedSlot d s)) (lo32 g) (hi32 g),
      if bufL p = 0 then d else wrBytes (bufA p) (slotRecord d s) d)

def specPlaceRebuild : OpSpec :=
  { opBase 0x0402 0xC8 with
    object := fun _ d => if runInProgress d then some (conflictObj d 0xC8 1) else none
    resources := fun _ d => if d.plc.replacePend then some (refuse stBusy 0) else none }

/-- PLACE_REBUILD waits for the first boundary after its acceptance at which no run is in progress (R206, R212). -/
def effPlaceRebuild (id : Nat) (_ : Pkt) (d : Dev) : Dev := { d with plc.rebuild := some id, plc.replacePend := true }

def specPlacePredict : OpSpec :=
  { opBase 0x0403 0xF8 with
    bufUse := .read
    params := fun p _ => (firstBad [(decide (7 < param p 0), 0x20)]).or (zeroFrom p 1) }

/-- PLACE_PREDICT: the image's checks but its signature, then its placement with the slot's own homes released;
nothing changes (R212). -/
def effPlacePredict : Nat → Pkt → Dev → Dev :=
  immediate fun p d =>
    let b := rdBytes d (bufA p) (bufL p)
    match imageFault d 0 b (bufL p) false with
    | some x => (x, d)
    | none =>
      let s := param p 0
      let pl := planOfBytes b
      let d1 := releaseSlot s d
      match placeSlot d1 ⟨s, pl, (if allEmpty d then (latchSizes d).plc.sizes else d.plc.sizes), nEff d⟩
          (if poolsEmpty d1.plc.homes then 0 else d1.plc.widthSum) d1.plc.homes with
      | .inl x => (ok x.detail 0 0 0, d)
      | .inr (hs, _, _) =>
        let own := hs.filter (fun h => h.slot = s)
        (ok 0 (ceilDiv (poolBytes own 1) 1024) (ceilDiv (poolBytes own 2 + poolBytes own 3) 0x100000)
          (((own.filter (fun h => h.home = 0)).map (fun h => 64 * h.len)).foldl max 0), d)

end Sys2Proof.Machine
end

