-- ==== Sys2Proof/Machine/Plan.lean ====
section
/-!
DEFINITION. Plan slots, frame plans and class budgets: group 0x03, CLASS_BUDGET and CLASS_QUERY, and what a frame
boundary does with them (spec/06_plans_static_schedule.md R149–R165).
-/

namespace Sys2Proof.Machine

/-! ### Slots (R150) -/

/-- The state code of a slot (R150). -/
def slotState (d : Dev) (s : Nat) : Nat :=
  match planIn d s with
  | none => 0
  | some pl => if pl.structSig = d.mdl.com.sig then 2 else if pl.structSig = sigStaged d then 1 else 3

/-- Slot and entry of a submission. -/
def subSlot (p : Pkt) : Nat := bits (param p 0) 2 0
/-- The entry number. -/
def subEntry (p : Pkt) : Nat := bits (param p 0) 11 8
/-- FLAGS.SPEC. -/
def isSpec (p : Pkt) : Bool := bitAt p.flags.toNat 2

/-- The slot has runs in progress, a squashed run that waits for its re-solve among them (R150, R271). -/
def slotBusy (d : Dev) (s : Nat) : Bool :=
  d.pln.runs.any (fun r => r.slot = s) ||
  d.ra.resolves.any (fun e => (findCmd d e.cmd).any (fun c => subSlot c.pkt = s))

/-- A PLAN_LOAD of a frame plan or a CLASS_BUDGET waits, for a boundary or for its LAUNCH_TIME (R161). -/
def budgetWaiting (d : Dev) : Bool := d.pln.wait.isSome

/-- The next frame boundary (R19). -/
def nextBoundary (d : Dev) : Nat := (now d / d.sys.frameLen + 1) * d.sys.frameLen

/-- A refusal of PLAN_LOAD is counted (R165) (log 57). -/
def loadRefused (id : Nat) (x : Res) (d : Dev) : Dev :=
  complete id x (bump 3 2 1 (if x.status = stNoPlacement then bump 4 1 1 d else d))

/-- A plan image is checked, placed and copied into its area (R150, R154, R191). -/
def loadImage (id : Nat) (p : Pkt) (d : Dev) : Dev :=
  let b := rdBytes d (bufA p) (bufL p)
  let s := param p 1
  match imageFault d (pktClass p d) b (bufL p) true with
  | some x => loadRefused id x d
  | none =>
    let pl := planOfBytes b
    let d1 := chargePlacement pl (if allEmpty d then latchSizes d else d)
    match placeInto s pl d1 with
    | .inl x => loadRefused id x (chargePlacement pl d)
    | .inr d2 =>
      let d3 := { d2 with pln.slots := smSet PSlot.empty d2.pln.slots s ⟨some pl, now d, d2.pln.loads + 1⟩,
                          pln.loads := d2.pln.loads + 1 }
      let d4 := wrBytes (0x4000000 * s) (sliceB b 0 pl.imageLen) d3
      complete id (ok pl.planId (slotState d4 s) 0 0) (bump 3 0 1 d4)

/-- The checks of a frame plan that do not read its bytes: length and admission (R152, R153, R162). -/
def framePlanAdmit (d : Dev) (fp : FramePlan) : Res ⊕ Bool :=
  if fp.frameLen ≠ d.sys.frameLen ∨ d.sys.frameNew.isSome then .inl (conflictObj d 0xE8 2) else admission d fp

/-- A frame plan is checked at its fetch and then waits for its boundary (R154, R159, R161). -/
def loadFramePlan (id : Nat) (p : Pkt) (d : Dev) : Dev :=
  let b := rdBytes d (bufA p) (bufL p)
  match framePlanFault d (pktClass p d) b (bufL p) with
  | some x => loadRefused id x d
  | none =>
    let fp := framePlanOf b
    match framePlanAdmit d fp with
    | .inl x => loadRefused id x d
    | .inr up => { d with pln.wait := some (.plan id fp p.launchTime.toNat up) }

def specPlanLoad : OpSpec :=
  { opBase 0x0301 0xE8 with
    launch := fun p => param p 0 = 1
    early := true
    bufUse := .read
    params := fun p _ =>
      (firstBad [(decide (1 < param p 0), 0x20),
        (decide ((param p 0 = 0 ∧ 7 < param p 1) ∨ (param p 0 = 1 ∧ param p 1 ≠ 0)), 0x24)]).or (zeroFrom p 2)
    object := fun p d => if param p 0 = 0 && slotBusy d (param p 1) then some (conflictObj d 0xE8 1) else none
    resources := fun p d =>
      if param p 0 = 0 then (if d.plc.replacePend then some (refuse stBusy 0) else none)
      else if budgetWaiting d then some (refuse stBusy 4) else none }

/-- PLAN_LOAD (R154, R161). -/
def effPlanLoad (id : Nat) (p : Pkt) (d : Dev) : Dev :=
  if param p 0 = 0 then loadImage id p d else loadFramePlan id p d

def specPlanUnload : OpSpec :=
  { opBase 0x0302 0xE8 with
    params := fun p _ => (firstBad [(decide (7 < param p 0), 0x20)]).or (zeroFrom p 1)
    object := fun p d => if slotBusy d (param p 0) then some (conflictObj d 0xE8 1) else none }

/-- PLAN_UNLOAD (R161). -/
def effPlanUnload : Nat → Pkt → Dev → Dev :=
  immediate fun p d =>
    let s := param p 0
    (ok 0 0 0 0, releaseSlot s { d with pln.slots := smSet PSlot.empty d.pln.slots s PSlot.empty })

def specPlanQuery : OpSpec :=
  { opBase 0x0303 0xF8 with
    params := fun p _ => (firstBad [(decide (7 < param p 0), 0x20)]).or (zeroFrom p 1) }

/-- PLAN_QUERY (R161). -/
def effPlanQuery : Nat → Pkt → Dev → Dev :=
  immediate fun p d =>
    let pl := (planIn d (param p 0)).getD default
    (ok pl.planId (slotState d (param p 0) + pl.entries.length <<< 8) (lo32 pl.structSig) (hi32 pl.structSig), d)

def specPlanBound : OpSpec :=
  { opBase 0x0304 0xF8 with
    params := fun p _ => (firstBad [(decide (7 < param p 0), 0x20), (decide (15 < param p 1), 0x24),
      (decide (15 < param p 2 ∧ param p 2 ≠ 0xFF), 0x28)]).or (zeroFrom p 3) }

/-- PLAN_BOUND: the path sum and S / R_b in ns, rounded up (R149, R161). -/
def effPlanBound : Nat → Pkt → Dev → Dev :=
  immediate fun p d =>
    match planIn d (param p 0) with
    | none => (badParam 0x40, d)
    | some pl =>
      if pl.entries.length ≤ param p 1 then (badParam 0x41, d)
      else
        let s := (entryAt pl (param p 1)).wcPath
        let t := ceilDiv (1000 * s) (bandRate (if param p 2 = 0xFF then d.thr.band else param p 2))
        (ok (lo32 s) (hi32 s) (lo32 t) (hi32 t), d)

def specPlanPolicy : OpSpec :=
  { opBase 0x0305 0x08 with
    params := fun p _ => (firstBad [(decide (3 < param p 0), 0x20), (decide (0xFF < param p 1), 0x24)]).or (zeroFrom p 2)
    object := fun p d => if d.pln.lock && !bitAt (param p 0) 0 then some (conflictObj d 0x08 3) else none }

/-- PLAN_POLICY: completes when its record has committed, which puts it in force (R160, R431). -/
def effPlanPolicy (id : Nat) (p : Pkt) (d : Dev) : Dev :=
  journal 0x0A 0 [b2n (bitAt (param p 0) 0), b2n (bitAt (param p 0) 1 || d.pln.lock), param p 1] 4
    (some ⟨id, stOk, 0, 0, 0, 0⟩) false d

/-- A frame plan with one class currency replaced (log 120). -/
def amendPlan (fp : FramePlan) (c cur : Nat) (fc : FloorCeil) : FramePlan :=
  let b := fp.classes.getD c ClassBudget.open
  let b' := match cur with
    | 0 => { b with steps := fc }
    | 1 => { b with beats := fc }
    | _ => { b with mgmt := fc }
  { fp with classes := fp.classes.set c b' }

/-- A currency by its code in CLASS_BUDGET. -/
def currencyOf : Nat → Currency
  | 0 => .steps | 1 => .beats | _ => .mgmt

def specClassBudget : OpSpec :=
  { opBase 0x0103 0xE8 with
    launch := fun _ => true
    early := true
    params := fun p _ => (firstBad [(decide (15 < param p 0), 0x20), (decide (2 < param p 1), 0x24)]).or (zeroFrom p 4)
    object := fun _ d => if d.pln.fp.isNone then some (conflictObj d 0xE8 4) else none
    resources := fun _ d => if budgetWaiting d then some (refuse stBusy 4) else none }

/-- CLASS_BUDGET: admitted with the amended plan, then waiting for its boundary (R159, R161). -/
def effClassBudget (id : Nat) (p : Pkt) (d : Dev) : Dev :=
  let c := param p 0
  let fc : FloorCeil := ⟨param p 2, param p 3⟩
  match d.pln.fp with
  | none => complete id (conflictObj d 0xE8 4) d
  | some fp =>
    if !rowOk c (currencyOf (param p 1)) fc then complete id (badParam 0x51) d
    else match admission d (amendPlan fp c (param p 1) fc) with
    | .inl x => complete id x d
    | .inr _ => { d with pln.wait := some (.cls id c (param p 1) fc p.launchTime.toNat) }

/-- Runs of a class in progress. -/
def runsOfClass (d : Dev) (c : Nat) : Nat := (d.pln.runs.filter (fun r => r.cls = c)).length

/-- The loop's enable bit. -/
def loopOn (d : Dev) (k : Nat) : Bool := bitAt (regA d (Reg.clpEn (k / 32))) (k % 32)

/-- A phase not below its period acts modulo it; a period of 0 acts as 1 (R280, R309). -/
def dueIn (period phase frame : Nat) : Bool :=
  let n := max period 1
  decide (frame % n = phase % n)

/-- The loop is due in a frame. -/
def loopDue (d : Dev) (k frame : Nat) : Bool :=
  let c := regA d (Reg.clpLoopCfg k)
  dueIn (bits c 9 0) (bits c 29 20) frame

/-- The next loop of a frame that is enabled and due now (R280). -/
def nextLoop (d : Dev) (j : LoopJob) : Option Nat :=
  (List.range 256).find? (fun k => decide (j.next ≤ k) && loopOn d k && loopDue d k j.cap.frame)

/-- As things stand no loop of the frame is left to sample, or the mode samples none (R28, R280). -/
def jobEnded (d : Dev) (j : LoopJob) : Bool := decide (d.sys.mode.code < 4) || (!j.waitScan && (nextLoop d j).isNone)

/-- Work of a class other than its runs that State holds: loop samples, logic scans, heat circuits, appends, events, BAR2 transfers. -/
def classWork (d : Dev) : Nat → Bool
  | 1 => d.clp.jobs.any (fun j => !jobEnded d j)
  | 2 => !d.cle.scans.isEmpty
  | 6 => !d.mtr.jobs.isEmpty
  | 10 => !d.grn.queue.isEmpty
  | 11 => !d.grn.evq.isEmpty
  | 15 => !d.cmd.bar2.isEmpty
  | _ => false

/-- WAITING of a class: runs in progress, other work of it, or work that a pause holds. -/
def classWaiting (d : Dev) (c : Nat) : Bool := decide (runsOfClass d c ≠ 0) || classWork d c || classPaused d c

/-- BUD_c_STAT as it reads. -/
def budClsStat (d : Dev) (c : Nat) : Nat := putBits (regP d (Reg.budClsStat c)) 0 0 (b2n (classWaiting d c))

/-- The class budget record (R164). -/
def budgetRecord (d : Dev) (c : Nat) : List Byte :=
  let b := budgetOf d c
  leBytes 1 c ++
  leBytes 1 (b2n (classWaiting d c) + 2 * b2n (classPaused d c) + 4 * b2n (decide (smGet 0 d.pln.cuts c ≠ 0)) +
    8 * b2n d.pln.amended) ++
  leBytes 1 (fld d (Reg.budClsStat c) 7 6) ++ leBytes 1 0 ++
  leBytes 4 (stepFloor d c) ++ leBytes 4 b.steps.ceil ++ leBytes 4 b.beats.floor ++ leBytes 4 b.beats.ceil ++
  leBytes 4 b.mgmt.floor ++ leBytes 4 b.mgmt.ceil ++
  leBytes 4 (regP d (Reg.budStepsUsed c)) ++ leBytes 4 (regP d (Reg.budBeatsUsed c)) ++
  leBytes 4 (regP d (Reg.budMgmtUsed c)) ++ leBytes 8 (smGet 0 d.pln.pauses c) ++
  leBytes 8 ((d.sys.lastBoundary.getD 0) / d.sys.frameLen) ++ leBytes 4 (runsOfClass d c) ++ leBytes 4 0

def specClassQuery : OpSpec :=
  { opBase 0x0104 0xF8 with
    bufUse := .write
    bufOk := fun p _ => decide (bufL p = 0 ∨ 64 ≤ bufL p)
    params := fun p _ => (firstBad [(decide (15 < param p 0), 0x20)]).or (zeroFrom p 1) }

/-- CLASS_QUERY (R164). -/
def effClassQuery : Nat → Pkt → Dev → Dev :=
  immediate fun p d =>
    let c := param p 0
    (ok (lo32 (smGet 0 d.pln.pauses c)) (budClsStat d c) 0 0,
      if bufL p = 0 then d else wrBytes (bufA p) (budgetRecord d c) d)

/-! ### At a boundary (R131, R152, R158, R159) -/

/-- What check 5 says of a budget change at its boundary: its mode, which a launch-timed one is held to again, and the state it
depends on (R61, R161, R162) (log 120). A mirrored command is held to no mode of its own. -/
def budgetRecheck (d : Dev) (w : BudgetWait) (nb : Nat) : Option Res :=
  if decide (nb ≠ 0) && !modeIn d 0xE8 && !(findCmd d w.cmd).any (·.ringless) then some (conflictMode d 0xE8)
  else match w with
    | .plan _ fp _ _ => if fp.frameLen ≠ d.sys.frameLen ∨ d.sys.frameNew.isSome then some (conflictObj d 0xE8 2) else none
    | .cls .. => if d.pln.fp.isNone then some (conflictObj d 0xE8 4) else none

/-- A waiting frame plan or CLASS_BUDGET takes effect at a boundary, as its checks at the fetch admitted it, unless check 5 now
refuses it (R61, R159, R161) (log 120). -/
def budgetWaitEffect (t : Nat) (d : Dev) : Dev :=
  match d.pln.wait with
  | none => d
  | some w =>
    match w with
    | .plan id fp nb up =>
      if t < nb then d
      else match budgetRecheck d w nb with
      | some x => loadRefused id x { d with pln.wait := none }
      | none =>
        complete id (ok fp.fpId (b2n up) (lo32 t) (hi32 t))
          (bump 3 1 1 { d with pln.wait := none, pln.fp := some fp, pln.amended := false })
    | .cls id c cur fc nb =>
      if t < nb then d
      else match budgetRecheck d w nb, d.pln.fp with
      | some x, _ => complete id x { d with pln.wait := none }
      | none, none => d
      | none, some fp =>
        complete id (ok (lo32 t) (hi32 t) 0 0)
          { d with pln.wait := none, pln.fp := some (amendPlan fp c cur fc), pln.amended := true }

/-- Floors cut in CUT_ORDER until they fit the capacity (R158). -/
def cutFloors (fp : FramePlan) : Nat → List Nat → SMap Nat
  | 0, _ => []
  | _, [] => []
  | need, c :: cs =>
    let f := (fp.classes.getD c ClassBudget.open).steps.floor
    let k := min f need
    smSet 0 (cutFloors fp (need - k) cs) c k

/-- The capacity of the frame and its cuts (R158). -/
def applyCuts (d : Dev) : Dev :=
  let cap := capSteps d d.thr.bandMax
  let cuts := match d.pln.fp with
    | some fp => cutFloors fp (floorSum fp (·.steps.floor) - cap) fp.cutOrder
    | none => []
  let d1 := (List.range 16).foldl (fun d c => setF (Reg.budClsStat c) 2 2 (b2n (decide (smGet 0 cuts c ≠ 0))) d)
    { d with pln.cuts := cuts }
  let d2 := setF Reg.budStat 23 20 d.thr.bandMax (setP Reg.budCapSteps cap d1)
  if cuts.isEmpty then d2 else bump 3 3 1 (addF Reg.budCutFrames 31 0 1 d2)

/-- A change of the frame length withdraws the frame plan in force (R152). -/
def withdrawPlan (d : Dev) : Dev := { d with pln.fp := none, pln.amended := false, pln.cuts := [] }

/-! ### State readback (R164) -/

/-- TAG and ring of a run's command. -/
def runTag (d : Dev) (r : Run) : Nat × Nat :=
  match if r.kind = .selfTest ∨ r.kind = .share then none else findCmd d r.cmd with
  | some c => (c.pkt.tag.toNat, c.pkt.ring.val)
  | none => (0, 0)

/-- READ_STATE 0x0300_0000: slot records and run records (R164). -/
def planState (d : Dev) : List Byte :=
  ((List.range 8).flatMap fun s =>
    let pl := (planIn d s).getD default
    leBytes 4 pl.planId ++ leBytes 1 (slotState d s) ++ leBytes 1 pl.entries.length ++
    leBytes 2 (d.pln.runs.filter (fun r => r.slot = s)).length ++ leBytes 8 pl.structSig ++
    leBytes 8 (pslot d s).loadTime ++ leBytes 4 pl.kilardVer ++ leBytes 4 0) ++
  ((List.range 120).flatMap fun i =>
    match d.pln.runs[i]? with
    | none => [u8 0xFF] ++ List.replicate 31 (0 : Byte)
    | some r =>
      let ls := r.loops.map (·.2)
      leBytes 1 r.slot ++ leBytes 1 r.entry ++ leBytes 1 r.cls ++
      leBytes 1 (b2n (r.paused || classPaused d r.cls) + 2 * b2n r.spec.isSome) ++ leBytes 4 (runTag d r).1 ++
      leBytes 2 (runTag d r).2 ++ leBytes 2 0 ++ leBytes 4 r.idx ++
      (List.range 4).flatMap (fun k => leBytes 2 (ls.getD k 0)) ++ leBytes 8 r.path)

end Sys2Proof.Machine
end

