-- ==== Sys2Proof/Machine/Tile.lean ====
section
/-!
DEFINITION. The operands of a run: where each tile lies, reading and writing its elements, and what the clusters count
(spec/08_placement.md R197, spec/09_sheaf_solvers.md R218–R220, spec/10_least_squares.md R243,
spec/11_run_ahead.md R264–R267, spec/07_thresher_fabric.md R170, R171).
-/

namespace Sys2Proof.Machine

/-- The model copy a run is bound to (R129). -/
def modelOf (d : Dev) (gen : Nat) : ModelCopy :=
  if d.mdl.com.gen = gen then d.mdl.com else d.mdl.prev.getD d.mdl.com

/-- The home of a plan-private tile of a run. -/
def tileHome (d : Dev) (r : Run) (t : Nat) : Option Home :=
  d.plc.homes.find? (fun h => decide (h.slot = r.slot ∧ h.tile = t ∧ (h.entry = r.entry ∨ h.entry = 0xFF)))

/-- Offset of operand k of a sheaf run's buffer. -/
def sheafOpnd (d : Dev) (r : Run) (k : Nat) : Option Nat :=
  match sheafOf d r.id with
  | some s => (s.opnds[k]?).map (fun o => s.buf + o.1)
  | none => none

/-- The device address of offset o in the window of another unit (R33, R35). -/
def windowAddr (u o : Nat) : Nat := 0x8000000000 + u * 0x400000000 + o

/-- Where byte x of a tile's contents lies; nowhere for tiles that are not memory (the object table and the value sets). A share
of another unit's run reaches that unit's result region (R203). -/
def tileTarget (d : Dev) (r : Run) (t x : Nat) : Target :=
  let tl := tileAt r.plan t
  let k := tl.bindIndex
  let slotMem := opBuf (r.tslot + 1)
  match tl.binding with
  | 0 => ((tileHome d r t).map (fun h => target d (homeByte d tl h x))).getD .none
  | 3 => ((sheafOpnd d r k).map (fun a => target d (a + x))).getD .none
  | 4 =>
    if r.spec.isSome ∧ k = 0 then .key (slotMem + 0x1000000 + x)
    else if r.spec.isSome ∧ k = 1 then .key (slotMem + 0x1400000 + x)
    else .key (0x31000000 + 0x400000 * k + x)
  | 5 =>
    match (sheafOf d r.id).filter (fun s => s.unit ≠ 0) with
    | some s => target d (windowAddr s.unit ((if k = 0 then s.resBase else 0x34000000 + 0x1000000 * k) + x))
    | none => if k = 0 then .key (opBuf r.rbuf + x) else .key (0x34000000 + 0x1000000 * k + x)
  | 6 =>
    match k with
    | 0 => .key (opBuf r.rbuf + x)
    | 1 => if r.spec.isSome then .key (slotMem + 0x1000000 + x) else .key (0x31000000 + x)
    | 2 => if r.spec.isSome then .key (slotMem + 0x1400000 + x) else .key (0x31400000 + x)
    | 3 => .key (slotMem + 0x1800000 + x)
    | _ => .key (0x39C00000 + x)
  | _ => .none

/-- The write-log key of byte x of a tile's contents: its memory key, or its place among the words of the register mirror that
the record writes. -/
def tileKey (d : Dev) (r : Run) (t x : Nat) : Option Nat :=
  match tileTarget d r t x with
  | .key k => some k
  | .reg o => some (mirrorOut + o)
  | .none => none

/-- The start time of period n (R258). -/
def periodStart (d : Dev) (n : Nat) : Nat := (d.ra.anchor + n * d.ra.plen) * d.sys.frameLen

/-- The assumed value of input i held in a tentative slot. -/
def assumedValue (d : Dev) (slot i : Nat) : Nat :=
  leNat ((List.range 8).map (fun b => rdB d (opBuf (slot + 1) + 0x1800000 + 8 * i + b)))

/-- A copy of the newest complete value set, by entry (R266). -/
def newestCopy (d : Dev) : SMap MeasVal :=
  (d.mdl.com.meas.filter (fun kv => kv.2.quantity ≠ 0)).foldl
    (fun m kv => smSet MeasVal.zero m kv.1 (valAt d d.mdl.newest kv.1)) []

/-- The assumed set of period n: the newest complete value set with the assumed value of every used input in its place (R266). -/
def assumedSet (d : Dev) (slot n : Nat) : SMap MeasVal :=
  (d.ra.inputs.filter (fun kv => kv.2.mode ≠ 0)).foldl
    (fun m kv =>
      let v := smGet MeasVal.zero m kv.2.meas
      smSet MeasVal.zero m kv.2.meas
        { v with value := assumedValue d slot kv.1, ts := periodStart d n, mstat := (v.mstat ||| 1) &&& 0xFFFFFFFD }) (newestCopy d)

/-- Entry i of the value set a run reads: the pinned set, or the assumed set it fixed when it pinned (R128, R266). -/
def runVal (d : Dev) (r : Run) (i : Nat) : MeasVal :=
  if r.spec.isSome then smGet MeasVal.zero (smGet [] d.ra.setsFor r.id) i else valAt d (pinnedSet d r.id) i

/-- Bytes of the tables that BINDING 1 and 2 name. -/
def tableByte (d : Dev) (r : Run) (binding x : Nat) : Byte :=
  let m := modelOf d r.gen
  if binding = 1 then (objBytes (objAt m.objs (x / 64))).getD (x % 64) 0
  else (measBytes (measAt m.meas (x / 64)) ++ valBytes (runVal d r (x / 64))).getD (x % 64) 0

/-- n bytes of a tile's contents from byte x. -/
def rdTile (d : Dev) (r : Run) (t x n : Nat) : List Byte :=
  let tl := tileAt r.plan t
  (List.range n).map fun i =>
    if tl.binding = 1 ∨ tl.binding = 2 then tableByte d r tl.binding (x + i)
    else match tileTarget d r t (x + i) with
    | .key k => rdB d k
    | .reg o => rdB d (mirrorIn + o)
    | .none => 0

/-- Bytes stored into a tile's contents; a READ_ONLY tile and the tables are not written. -/
def wrTile (r : Run) (t : Nat) : Nat → List Byte → Dev → Dev
  | _, [], d => d
  | x, b :: bs, d =>
    wrTile r t (x + 1) bs (match tileKey d r t x with
      | some k => if bitAt (tileAt r.plan t).tflags 0 then d else wrB d k b
      | none => d)

/-- The byte of element (i, c) of member j: column-major, members packed (R218). -/
def elemOfs (tl : Tile) (j i c : Nat) : Nat := ((j * tl.rows * tl.cols) + i + c * tl.rows) * elemSize tl.prec

/-- The format of a tile's elements. -/
def tileFmt (tl : Tile) : FFmt := fmtOf tl.prec

/-- The element pattern at a byte offset. -/
def rdElem (d : Dev) (r : Run) (t x : Nat) : Nat := leNat (rdTile d r t x (elemSize (tileAt r.plan t).prec))
/-- The element pattern stored there. -/
def wrElem (r : Run) (t x v : Nat) (d : Dev) : Dev := wrTile r t x (leBytes (elemSize (tileAt r.plan t).prec) v) d

/-- A record's operand k. -/
def opnd (x : KRec) (k : Nat) : Nat := x.opnd.getD k 0xFFFF

/-! ### What clusters count (R170, R171) -/

/-- The flags and flush counts of operations on a physical cluster. -/
def aluOn (phys : Nat) (a : Alu) (d : Dev) : Dev :=
  { d with thr.clusters := (List.range 34).map fun k =>
      let c := clusterOf d k
      if k = phys then
        { c with flushResults := (c.flushResults + a.fr) % 65536, flushOperands := (c.flushOperands + a.fo) % 65536,
                 exc := c.exc ||| (b2n a.inv + 2 * b2n a.dz + 4 * b2n a.ov) }
      else c }

/-- A batched kernel runs member i on cluster c0 + (i mod W) (R199). -/
def aluMember (r : Run) (x : KRec) (i : Nat) (a : Alu) (d : Dev) : Dev := aluOn (physOf d (r.cluster + i % x.width)) a d

/-- Element e of a kernel that spreads its elements over its clusters. -/
def aluElem (r : Run) (x : KRec) (e : Nat) (a : Alu) (d : Dev) : Dev :=
  aluOn (physOf d (r.cluster + Config.elemCluster x.width e % x.width)) a d

/-! ### Members of a sheaf (R215, R220, R224) -/

/-- The member state of member j. -/
def memberAt (s : SheafRun) (j : Nat) : Member := smGet Member.fresh s.members j
/-- It is replaced. -/
def setMember (j : Nat) (m : Member) (s : SheafRun) : SheafRun :=
  { s with members := smSet Member.fresh s.members j m }

/-- The order of a used member. -/
def orderOf (s : SheafRun) (j : Nat) : Nat :=
  let o := s.orders.getD j 0
  if o = 0 then s.order else o

/-- A set of tiles with what COPY records of the entry copy into them. -/
def withCopied (xs : List KRec) (l : List Nat) : List Nat :=
  let grow := fun (l : List Nat) =>
    l ++ (xs.filter (fun x => decide (x.kernel = 0x04) && l.contains (opnd x 1))).map (fun x => opnd x 0)
  grow (grow (grow (grow l)))

/-- Tiles of an entry that hold matrices: what a factor, a solve or a residual reads as OPND_0, and what is copied into
one (R221). -/
def matrixTiles (pl : Plan) (e : PEntry) : List Nat :=
  let xs := (entryRecs pl e).map (·.2)
  withCopied xs ((xs.filter (fun x => decide (0x10 ≤ x.kernel ∧ x.kernel ≤ 0x15) || decide (x.kernel = 0x17))).map (fun x => opnd x 0))

/-- Tiles of an entry that hold right-hand sides or other vectors of its members (R221). -/
def vectorTiles (pl : Plan) (e : PEntry) : List Nat :=
  let xs := (entryRecs pl e).map (·.2)
  withCopied xs (xs.flatMap fun x =>
    match x.kernel with
    | 0x13 => [opnd x 1] | 0x14 => [opnd x 1] | 0x15 => [opnd x 1, opnd x 2, opnd x 3] | 0x16 => [opnd x 0, opnd x 1]
    | 0x17 => [opnd x 1, opnd x 2] | _ => [])

/-- The tile holds members' matrices: by its use, or by its shape where no batched kernel names it (R220) (log 56). -/
def squareTile (r : Run) (s : SheafRun) (t : Nat) : Bool :=
  let e := entryAt r.plan r.entry
  let tl := tileAt r.plan t
  (matrixTiles r.plan e).contains t ||
    (!(vectorTiles r.plan e).contains t && decide (tl.rows = s.order ∧ tl.cols = s.order))

/-- The member number of the share's member j, and where it stands in a tile: private tiles hold the share alone
(R202). -/
def memberNo (s : SheafRun) (j : Nat) : Nat := s.shareFirst + j
/-- Its place in a tile. -/
def memberIdx (s : SheafRun) (tl : Tile) (j : Nat) : Nat := if tl.binding = 0 then j else memberNo s j

/-- Element (i, c) lies in the block that a used member of its order occupies (R215, R220). -/
def insideBlock (s : SheafRun) (mat : Bool) (g i c : Nat) : Bool :=
  decide (g < s.c) && (decide (orderOf s g = s.order) || (decide (i < orderOf s g) && (!mat || decide (c < orderOf s g))))

/-- What the kernels put in place of an element outside it: the identity's, or 0. -/
def outsideElem (tl : Tile) (mat : Bool) (i c : Nat) : Nat := if mat ∧ i = c then fround (tileFmt tl) false 1 0 else 0

/-- Element (i, c) of the share's member j as a batched kernel reads it from a matrix or a right-hand side, and whether it was
read from memory (R215, R220). -/
def batchElem (d : Dev) (r : Run) (s : SheafRun) (mat : Bool) (t j i c : Nat) : Nat × Bool :=
  let tl := tileAt r.plan t
  if insideBlock s mat (memberNo s j) i c then (rdElem d r t (elemOfs tl (memberIdx s tl j) i c), true)
  else (outsideElem tl mat i c, false)

/-- The same as another kernel of a sheaf run reads it: what lies outside a used member's block of a BINDING 3 tile is not read
(R215, R220). -/
def sheafElem (d : Dev) (r : Run) (s : SheafRun) (t j i c : Nat) : Nat × Bool :=
  let tl := tileAt r.plan t
  let mat := squareTile r s t
  if tl.binding ≠ 3 ∨ insideBlock s mat (memberNo s j) i c then (rdElem d r t (elemOfs tl (memberIdx s tl j) i c), true)
  else (outsideElem tl mat i c, false)

/-- What reading an element of a BINDING 3 tile tells of its member (R224): INPUT for an infinity or a NaN. -/
def inputFails (r : Run) (t v : Nat) : Bool :=
  let tl := tileAt r.plan t
  decide (tl.binding = 3) && decide (tl.prec ≠ 2) && !fIsFin (tileFmt tl) v

/-- An element of a sheaf tile stored: members beyond the used ones of a BINDING 3 tile are not written (R218). -/
def wrSheaf (r : Run) (s : SheafRun) (t j i c v : Nat) (d : Dev) : Dev :=
  let tl := tileAt r.plan t
  if tl.binding = 3 ∧ s.c ≤ memberNo s j then d else wrElem r t (elemOfs tl (memberIdx s tl j) i c) v d

/-- The flags of operations on a member enter its state (R224). -/
def memberFlags (a : Alu) (input : Bool) (m : Member) : Member :=
  { m with fail := m.fail ||| (b2n input + 4 * b2n (a.ov || a.dz) + 8 * b2n a.nanFin) }

end Sys2Proof.Machine
end

