-- ==== Sys2Proof/Machine/Dense.lean ====
section
/-!
DEFINITION. The dense algebra of one sheaf member: pivot rule, factors, solves, residual, interchanges, reflections
(spec/09_sheaf_solvers.md R221, R223). Matrices are column-major arrays of patterns with `ld` rows.
-/

namespace Sys2Proof.Machine

/-- Element (i, c). -/
def mget (a : Array Nat) (ld i c : Nat) : Nat := a.getD (i + c * ld) 0
/-- Element (i, c) replaced. -/
def mset (a : Array Nat) (ld i c v : Nat) : Array Nat := a.setIfInBounds (i + c * ld) v

/-- A regularised pivot is counted (R223). -/
def regularise (k : Nat) (m : Member) : Member :=
  { m with regCount := m.regCount + 1, firstReg := if m.firstReg = 0xFF then k else m.firstReg }

/-- The pivot rule of R223 at position k, exempt from n_j on. -/
def pivotRule (f : FFmt) (chol : Bool) (nj k tau p : Nat) (m : Member) : Nat × Member :=
  if nj ≤ k then (p, m)
  else if chol then
    (if fle f p (kneg f tau) then (tau, { m with fail := m.fail ||| 2 })
     else if flt f p tau then (tau, regularise k m) else (p, m))
  else if flt f (fabs f p) tau then
    (if fIsZero f p then (tau, regularise k m) else (fsign f (bitAt p (f.eb + f.mb)) tau, regularise k m))
  else (p, m)

/-- τ of a member: ρ times the largest diagonal magnitude, at least the smallest normal number (R223). -/
def tauOf (f : FFmt) (rho : Nat) (diag : List Nat) : Nat :=
  let dmax := diag.foldl (fun a x => let y := if fIsSub f x then 0 else fabs f x; if flt f a y then y else a) 0
  let fmin := 1 <<< f.mb
  let t := match fval f64 rho, fval f dmax with
    | .fin _ m e, .fin _ m' e' => fround f false (m * m') (e + e')
    | _, _ => f.infBits
  if flt f t fmin then fmin else t

/-- Pairs (−a_is, b_s) of a left-looking sum over s < k. -/
def negPairs (f : FFmt) (k : Nat) (u v : Nat → Nat) : List (Nat × Nat) :=
  (List.range k).map (fun s => (kneg f (u s), v s))

/-- A = L·Lᵀ in the lower triangle. -/
def potrfK (w : Nat) (f : FFmt) (n ld nj tau : Nat) (a0 : Array Nat) (m0 : Member) : K (Array Nat × Member) := do
  let mut a := a0
  let mut m := m0
  for k in List.range n do
    let a1 := a
    let p ← kred 0x10 w f (mget a1 ld k k) (negPairs f k (fun s => mget a1 ld k s) (fun s => mget a1 ld k s))
    let q := pivotRule f true nj k tau p m
    m := q.2
    let l ← ksqrt f q.1
    a := mset a ld k k l
    for i in (List.range n).drop (k + 1) do
      let v ← kred 0x10 w f (mget a1 ld i k) (negPairs f k (fun s => mget a1 ld i s) (fun s => mget a1 ld k s))
      let y ← kdiv f v l
      a := mset a ld i k y
  return (a, m)

/-- A = L·D·Lᵀ in the lower triangle. -/
def ldltK (w : Nat) (f : FFmt) (n ld nj tau : Nat) (a0 : Array Nat) (m0 : Member) : K (Array Nat × Member) := do
  let mut a := a0
  let mut m := m0
  for k in List.range n do
    let a1 := a
    let ws ← (List.range k).mapM (fun s => kmul f (mget a1 ld k s) (mget a1 ld s s))
    let p ← kred 0x11 w f (mget a1 ld k k) (negPairs f k (fun s => ws.getD s 0) (fun s => mget a1 ld k s))
    let q := pivotRule f false nj k tau p m
    m := q.2
    a := mset a ld k k q.1
    for i in (List.range n).drop (k + 1) do
      let v ← kred 0x11 w f (mget a1 ld i k) (negPairs f k (fun s => mget a1 ld i s) (fun s => ws.getD s 0))
      let y ← kdiv f v q.1
      a := mset a ld i k y
  return (a, m)

/-- Rows p and q of the first `cols` columns exchanged. -/
def swapRows (ld cols p q : Nat) (a : Array Nat) : Array Nat :=
  (List.range cols).foldl (fun a c => mset (mset a ld p c (mget a ld q c)) ld q c (mget a ld p c)) a

/-- P·A = L·U with partial pivoting: the factor and the pivot rows. -/
def getrfK (w : Nat) (f : FFmt) (n ld nj tau : Nat) (a0 : Array Nat) (m0 : Member) :
    K (Array Nat × List Nat × Member) := do
  let mut a := a0
  let mut m := m0
  let mut piv : List Nat := []
  for k in List.range n do
    let a1 := a
    let col ← (List.range n).mapM (fun i =>
      if i < k then pure (mget a1 ld i k)
      else kred 0x12 w f (mget a1 ld i k) (negPairs f k (fun s => mget a1 ld i s) (fun s => mget a1 ld s k)))
    let r := if nj ≤ k then k else
      ((List.range nj).drop (k + 1)).foldl (fun b i => if flt f (fabs f (col.getD b 0)) (fabs f (col.getD i 0)) then i else b) k
    let a2 := swapRows ld n k r ((List.range n).foldl (fun x i => mset x ld i k (col.getD i 0)) a1)
    let q := pivotRule f false nj k tau (mget a2 ld k k) m
    m := q.2
    piv := piv ++ [r]
    a := mset a2 ld k k q.1
    for i in (List.range n).drop (k + 1) do
      let y ← kdiv f (mget a2 ld i k) q.1
      a := mset a ld i k y
    let a3 := a
    for c in (List.range n).drop (k + 1) do
      let u ← kred 0x12 w f (mget a3 ld k c) (negPairs f k (fun s => mget a3 ld k s) (fun s => mget a3 ld s c))
      a := mset a ld k c u
  return (a, piv, m)

/-- One reflection I − β·v·vᵀ applied to column y, v below position k standing in column k of the factor. -/
def reflect (w kern : Nat) (f : FFmt) (m ld k beta : Nat) (fac : Array Nat) (y : Nat → Nat) : K (List Nat) := do
  let t ← kred kern w f (y k) (((List.range m).drop (k + 1)).map (fun i => (mget fac ld i k, y i)))
  let g ← kmul f beta t
  (List.range m).mapM (fun i =>
    if i < k then pure (y i)
    else if i = k then ksub f (y i) g
    else do
      let z ← kmul f (mget fac ld i k) g
      ksub f (y i) z)

/-- A = Q·R by Householder reflections; R_kk takes the sign opposite to the element it replaces
(notes/assumptions/10.md). A position exempt from the pivot rule is a column of the identity, which H_k = I leaves as it is, so that
the solution rows of unused positions read +0.0 (R219, R220) (log 127). The factor and the scalars β. -/
def geqrfK (w : Nat) (f : FFmt) (m n ld nj tau : Nat) (a0 : Array Nat) (m0 : Member) :
    K (Array Nat × List Nat × Member) := do
  let mut a := a0
  let mut mm := m0
  let mut betas : List Nat := []
  for k in List.range n do
    let a1 := a
    let x := mget a1 ld k k
    let sq ← kred 0x13 w f 0 (((List.range m).drop k).map (fun i => (mget a1 ld i k, mget a1 ld i k)))
    let nrm ← ksqrt f sq
    let q := pivotRule f false nj k tau (fsign f (!bitAt x (f.eb + f.mb)) (fabs f nrm)) mm
    mm := q.2
    let den ← ksub f x q.1
    let num ← ksub f q.1 x
    let beta ← kdiv f num q.1
    let ex := decide (nj ≤ k)
    betas := betas ++ [if ex then 0 else beta]
    a := mset a ld k k (if ex then x else q.1)
    for i in (List.range m).drop (k + 1) do
      let v ← kdiv f (mget a1 ld i k) den
      a := mset a ld i k (if ex then mget a1 ld i k else v)
    let a2 := a
    for c in (List.range n).drop (k + 1) do
      let col ← reflect w 0x13 f m ld k beta a2 (fun i => mget a2 ld i c)
      a := if ex then a2 else ((List.range m).drop k).foldl (fun z i => mset z ld i c (col.getD i 0)) a
  return (a, betas, mm)

/-- Forward substitution with a lower triangle, its diagonal divided by unless `unit`. -/
def lowerSolve (kern w : Nat) (f : FFmt) (n ld : Nat) (unit : Bool) (a : Array Nat) (b : List Nat) : K (List Nat) := do
  let mut x : List Nat := []
  for i in List.range n do
    let xs := x
    let v ← kred kern w f (b.getD i 0) (negPairs f i (fun s => mget a ld i s) (fun s => xs.getD s 0))
    let y ← if unit then pure v else kdiv f v (mget a ld i i)
    x := x ++ [y]
  return x

/-- Back substitution with the upper triangle `u i s`. -/
def upperSolve (kern w : Nat) (f : FFmt) (n : Nat) (unit : Bool) (u : Nat → Nat → Nat) (b : List Nat) : K (List Nat) := do
  let mut x : List Nat := List.replicate n 0
  for i in (List.range n).reverse do
    let xs := x
    let v ← kred kern w f (b.getD i 0) (((List.range n).drop (i + 1)).map (fun s => (kneg f (u i s), xs.getD s 0)))
    let y ← if unit then pure v else kdiv f v (u i i)
    x := x.set i y
  return x

/-- The triangular solves of a factor kind on one right-hand side (BTRS, R221) (log 127). -/
def btrsK (kind w : Nat) (f : FFmt) (n ld : Nat) (a : Array Nat) (b : List Nat) : K (List Nat) := do
  match kind with
  | 0 =>
    let y ← lowerSolve 0x14 w f n ld false a b
    upperSolve 0x14 w f n false (fun i s => mget a ld s i) y
  | 1 =>
    let y ← lowerSolve 0x14 w f n ld true a b
    let z ← (List.range n).mapM (fun i => kdiv f (y.getD i 0) (mget a ld i i))
    upperSolve 0x14 w f n true (fun i s => mget a ld s i) z
  | 2 =>
    let y ← lowerSolve 0x14 w f n ld true a b
    upperSolve 0x14 w f n false (fun i s => mget a ld i s) y
  | _ => upperSolve 0x14 w f n false (fun i s => mget a ld i s) b

/-- Element i of b − A·x, by fused multiply-adds in ascending column order (BRESID, R221). -/
def residElem (f : FFmt) (n ld i : Nat) (a : Array Nat) (x : List Nat) (b : Nat) : K Nat :=
  (List.range n).foldlM (fun acc c => kfma f (kneg f (mget a ld i c)) (x.getD c 0) acc) b

/-- Interchanges of a pivot array on a right-hand side, ascending or descending (BPERM, R221). -/
def permRhs (piv : List Nat) (desc : Bool) (b : List Nat) : List Nat :=
  let ks := if desc then (List.range piv.length).reverse else List.range piv.length
  ks.foldl (fun b k =>
    let p := piv.getD k k
    (b.set k (b.getD p 0)).set p (b.getD k 0)) b

end Sys2Proof.Machine
end

