-- ==== Sys2Proof/Machine/Fabric.lean ====
section
/-!
DEFINITION. The execution of plan records: control and charging, the loop records, and the kernels of any entry and of a
sheaf entry (spec/06_plans_static_schedule.md R138–R148, spec/07_thresher_fabric.md R183–R186,
spec/09_sheaf_solvers.md R221–R226).
-/

namespace Sys2Proof.Machine

/-! ### Control (R139, R140, R148, R183) -/

/-- The entry of a run. -/
def runEntry (r : Run) : PEntry := entryAt r.plan r.entry
/-- The index after the entry's last record. -/
def entryEnd (r : Run) : Nat := (runEntry r).first + (runEntry r).count
/-- The outermost loops of the entry. -/
def entryLoops (r : Run) : List (Nat × Nat) := outerLoops r.plan (runEntry r).first (entryEnd r - 1)
/-- The first record of the tail, when the entry has a loop (R183). -/
def tailStart (r : Run) : Option Nat := ((entryLoops r).map (fun be => be.2 + 1)).foldl (fun a x => match a with
  | none => some x
  | some v => some (max v x)) none
/-- The matching LOOP_END of a LOOP_BEGIN. -/
def loopEnd (r : Run) (b : Nat) : Nat := (((loopsOf r.plan).find? (fun be => be.1 = b)).map (·.2)).getD b

/-- The deadline has arrived at a time. -/
def deadlineHit (d : Dev) (r : Run) : Bool := decide (r.deadline ≠ 0) && decide (r.deadline ≤ now d)

/-- A run at an iteration boundary (R183): with its deadline past and its next record not in the tail, it skips to the tail. The
boundaries of a sheaf run are those of its outermost loops (R226), those of any other run the ends of every pass (R148). -/
def iterBoundary (r : Run) (outer : Bool) (d : Dev) : Dev :=
  match tailStart r with
  | none => setRun r d
  | some ts =>
    if (outer || !(decide (r.kind = .sheaf) || decide (r.kind = .share))) && deadlineHit d r && decide (r.idx < ts) then
      addF Reg.thrDlStops 31 0 1 (setRun { r with idx := ts, loops := [], dlStopped := true } d)
    else setRun r d

/-- A run without a loop that completes after its deadline is counted (R186). -/
def countLate (r : Run) (d : Dev) : Dev :=
  if deadlineHit d r && (tailStart r).isNone then addF Reg.thrDlLate 31 0 1 d else d

/-- What a share of another unit's run reports (R203): by member its failure flags, its regularised pivots and the first of them. -/
def shareDone (s : SheafRun) : ShareDone :=
  ⟨s.unit, s.unitRun, (List.range s.shareCount).map (fun i =>
    let m := smGet Member.fresh s.members (s.shareFirst + i)
    (m.fail, m.regCount, m.firstReg))⟩

/-- A run whose last record has ended: an RA_EXTRAPOLATE completes (R276), a self-test is over, a share is reported to its unit
(R203). Any other run goes on with a partner's share that it runs again (R204), or enters its status phase (R226, R252). -/
def recordsDone (q : Run) (d : Dev) : Dev :=
  match q.kind with
  | .extrapolate => endRun q (ok q.tolFails 0 0 0) (countLate q d)
  | .selfTest => dropRun q.id d
  | .share => dropRun q.id { d with trl.shareOut := ((sheafOf d q.id).map shareDone).or d.trl.shareOut }
  | _ =>
    match sheafOf d q.id with
    | some s =>
      match s.rerun with
      | sh :: rest =>
        setRun { q with phase := .records, idx := (runEntry q).first }
          (setSheaf { s with rerun := rest, shareFirst := sh.1, shareCount := sh.2 } d)
      | [] => setRun { q with phase := .status } d
    | none => setRun { q with phase := .status } d

/-- Control has passed a record of a run: the next one begins, in the tail or before it, or the run's records are done. -/
def markEnd (r : Run) (d : Dev) : Dev :=
  match findRun d r.id with
  | none => d
  | some q =>
    let q1 := { q with tail := (match tailStart q with | some ts => decide (ts ≤ q.idx) | none => false), part := 0, beat := 0 }
    if entryEnd q ≤ q.idx then recordsDone q1 d else setRun q1 d

/-! ### What a record costs (R31, R139, R167, R202) -/

/-- The record's path steps, its batch being the share of a split run (R202). -/
def recSteps (d : Dev) (r : Run) : Nat :=
  let x := curRec r
  match sheafOf d r.id with
  | some s => if s.split && decide (x.batch ≠ 0) then kernelSteps { x with batch := s.shareCount } + 24 else x.steps + 24
  | none => x.steps + 24

/-- Members a record treats: the share of a split run, else its BATCH. -/
def members (d : Dev) (r : Run) (x : KRec) : Nat :=
  match sheafOf d r.id with
  | some s => if s.split then s.shareCount else x.batch
  | none => x.batch

/-- The tile lies outside the cluster stores: in the Loft, DRAM, a Trellis window or a bound region (R31). -/
def tileOutside (d : Dev) (r : Run) (t : Nat) : Bool :=
  decide ((tileAt r.plan t).binding ≠ 0) || !((tileHome d r t).any (fun h => h.home = 0))

/-- Tiles that a record reads or writes. -/
def recTiles (x : KRec) : List Nat := ((usedOpnds x).map (opnd x)).filter (fun t => t ≠ 0xFFFF)

/-- Memory beats of a record's tile traffic: what COPY, FILL and PUBLISH move to and from memory outside the stores; where another
kernel has operands there the spec gives no count, and it is a free value (R31, R167) (log 51). -/
def recBeats (d : Dev) (r : Run) : Nat :=
  let x := curRec r
  let out := (recTiles x).filter (tileOutside d r)
  if [0x04, 0x05, 0x07].contains x.kernel then
    (out.map (fun t => beatsOf (x.m * x.n * members d r x * elemSize (tileAt r.plan t).prec))).foldl (· + ·) 0
  else if out.isEmpty then 0
  else Config.streamBeats x.kernel x.width x.steps ((out.map (fun t => (tileAt r.plan t).bytes)).foldl (· + ·) 0)

/-! ### Who has the clusters (R28, R155, R156, R189, R195) -/

/-- Solver slices run in the mode (R28); self-tests are no solver slices. -/
def slicesRun (d : Dev) (c : Nat) : Bool :=
  decide (c = 13) || decide (d.sys.mode = .config ∨ d.sys.mode = .standby ∨ d.sys.mode = .run ∨ d.sys.mode = .service)

/-- A cluster of the run's record is lost or retired: it receives no new record (R189) (log 78). -/
def recBarred (d : Dev) (r : Run) : Bool :=
  (List.range (curRec r).width).any fun i =>
    !(List.range 34).any (fun k => decide ((clusterOf d k).logical = r.cluster + i ∧ (clusterOf d k).state = 0))

/-- A run whose record could go on now. -/
def wantsFabric (d : Dev) (r : Run) : Bool :=
  decide (r.phase = .records) && !classStops d r.cls && slicesRun d r.cls && !recBarred d r

/-- The class has not used up its applied step floor in this frame (R155). -/
def withinFloor (d : Dev) (c : Nat) : Bool := decide (regP d (Reg.budStepsUsed c) < stepFloor d c)

/-- The place of a class in SLOT_ORDER, or its number while no frame plan is in force (R155). -/
def slotPos (d : Dev) (c : Nat) : Nat :=
  match d.pln.fp with
  | some fp => (fp.slotOrder.idxOf? c).getD 16
  | none => c

/-- Run `q` goes before run `r` where both want a cluster: a class within its floor, then a record under way, then the class order,
then the age of the run (R155, R156, R195) (log 78). -/
def goesFirst (d : Dev) (q r : Run) : Bool :=
  let wq := withinFloor d q.cls
  let wr := withinFloor d r.cls
  if wq != wr then wq
  else if recStarted q != recStarted r then recStarted q
  else if slotPos d q.cls ≠ slotPos d r.cls then decide (slotPos d q.cls < slotPos d r.cls)
  else decide (q.id < r.id)

/-- The records of two runs have a cluster in common. -/
def sameClusters (q r : Run) : Bool :=
  decide (q.cluster < r.cluster + (curRec r).width ∧ r.cluster < q.cluster + (curRec q).width)

/-- No run that goes first wants a cluster of the run's record. -/
def hasFabric (d : Dev) (r : Run) : Bool :=
  !d.pln.runs.any (fun q => decide (q.id ≠ r.id) && wantsFabric d q && sameClusters q r && goesFirst d q r)

/-- A run of another class waits for a cluster of the run's record within its own floor (R155). -/
def floorWaits (d : Dev) (r : Run) : Bool :=
  d.pln.runs.any (fun q => decide (q.cls ≠ r.cls) && wantsFabric d q && sameClusters q r && withinFloor d q.cls)

/-- How many of the record's steps are paid now: up to the step ceiling of its class, and up to its floor while another class waits for
the clusters within its own (R139, R155, R157) (log 8, 78). -/
def payable (d : Dev) (r : Run) : Nat :=
  let left := roomFor d r.cls .steps (curRec r).width (recSteps d r - r.part)
  if withinFloor d r.cls && floorWaits d r then
    min left (ceilDiv (stepFloor d r.cls - regP d (Reg.budStepsUsed r.cls)) (curRec r).width)
  else left

/-- How many of its beats, up to the beat ceiling. -/
def payBeats (d : Dev) (r : Run) : Nat := roomFor d r.cls .beats 1 (recBeats d r - r.beat)

/-- A run with the steps and beats of its record that can be paid now counted (log 8). -/
def paidRun (d : Dev) (r : Run) : Run :=
  { r with part := r.part + payable d r, path := r.path + payable d r, beat := r.beat + payBeats d r }

/-- The device with them charged to the run's class (log 8). -/
def paidDev (d : Dev) (r : Run) : Dev :=
  charge r.cls .beats (payBeats d r) (charge r.cls .steps ((curRec r).width * payable d r) (setRun (paidRun d r) d))

/-- The whole record is paid. -/
def recPaid (d : Dev) (r : Run) : Bool :=
  decide (recSteps d r ≤ (paidRun d r).part) && decide (recBeats d r ≤ (paidRun d r).beat)

/-- The run's record is under way on its clusters. -/
def executing (d : Dev) (r : Run) : Bool :=
  decide (r.phase = .records) && (recStarted r || (wantsFabric d r && hasFabric d r))

/-! ### Accesses of engines (R37) -/

/-- Device addresses that a tile of a run takes outside what the unit itself placed: an operand in the sheaf buffer, a guest home. -/
def tileSpan (d : Dev) (r : Run) (t : Nat) : Option (Nat × Nat) :=
  let tl := tileAt r.plan t
  match tl.binding with
  | 3 => (sheafOf d r.id).bind (fun s => (sheafOpnd d r tl.bindIndex).map (fun a => (a, s.c * tl.rows * tl.cols * elemSize tl.prec)))
  | 0 => (tileHome d r t).bind (fun h => if h.home = 3 then some (homeByte d tl h 0, tl.bytes) else none)
  | _ => none

/-- The ring of a run's command may reach the addresses; a share or a mirrored command has none. -/
def runGrant (d : Dev) (r : Run) (a n : Nat) (write : Bool) : Bool :=
  match findCmd d r.cmd with
  | some c => c.ringless || decide (r.kind = .share) || ringGrant d (ringN c.pkt) a n write
  | none => true

/-- What an engine access of a run's record stops it with: an address that has no memory behind it, or a range that the Protection
Table forbids (R37) (log 46). -/
def engineFault (d : Dev) (r : Run) : Option Res :=
  (recTiles (curRec r)).findSome? fun t =>
    match tileSpan d r t with
    | none => none
    | some (a, n) =>
      if !mapped d a n then some ⟨stInternal, 0, (Config.diagCode 32).toNat, 0, 0, 0⟩
      else if decide ((tileAt r.plan t).binding = 3) &&
          !(runGrant d r a n false && (bitAt (tileAt r.plan t).tflags 0 || runGrant d r a n true)) then
        some (refuse stNotPermitted 3)
      else none

/-! ### A record (R139, R140, R148) -/

/-- Past a record that does not steer the loops, and into the loop of a LOOP_BEGIN. -/
def nextRec (q : Run) (d : Dev) : Dev := setRun { q with idx := q.idx + 1 } d

/-- LOOP_BEGIN opens a loop (R148). -/
def loopOpens (q : Run) (d : Dev) : Dev := setRun { q with loops := q.loops ++ [(q.idx, 0)], idx := q.idx + 1 } d

/-- A passed LOOP_TEST leaves its loop (R148). -/
def loopLeft (q : Run) (d : Dev) : Dev :=
  match q.loops.getLast? with
  | none => nextRec q d
  | some l =>
    let outer := decide (q.loops.length = 1)
    iterBoundary { q with loops := q.loops.dropLast, idx := loopEnd q l.1 + 1,
                          passes := if outer then q.passes + 1 else q.passes } outer d

/-- The records from b to e hold a LOOP_TEST with MEMBERWISE. -/
def memberwiseIn (pl : Plan) (b e : Nat) : Bool :=
  (List.range (e - b)).any (fun i => decide ((recAt pl (b + i)).kernel = 0x02) && bitAt (recAt pl (b + i)).arg 1)

/-- LOOP_END goes back, or on at the cap (R148) (log 59). `capped` keeps that the outermost loop, or one with a memberwise test, has
ended at its cap (R227, R228, R253). -/
def loopTurns (q : Run) (d : Dev) : Dev :=
  match q.loops.getLast? with
  | none => nextRec q d
  | some l =>
    let outer := decide (q.loops.length = 1)
    let k := l.2 + 1
    let p := if outer then q.passes + 1 else q.passes
    if k < (recAt q.plan l.1).arg then
      iterBoundary { q with loops := q.loops.dropLast ++ [(l.1, k)], idx := l.1 + 1, passes := p } outer d
    else
      iterBoundary { q with loops := q.loops.dropLast, idx := q.idx + 1, passes := p,
                            capped := q.capped || outer || memberwiseIn q.plan l.1 q.idx } outer d

/-- Control moves on after a record of the run; `pass` says whether a LOOP_TEST passed. -/
def moveOn (code id : Nat) (r : Run) (pass : Bool) (d : Dev) : Dev :=
  match findRun d id with
  | none => d
  | some q =>
    markEnd r
      (match code with
       | 0x01 => loopOpens q d
       | 0x02 => if pass then loopLeft q d else nextRec q d
       | 0x03 => loopTurns q d
       | _ => nextRec q d)

/-- The run stands at a record of the kernel that its class may run in the mode. -/
def recordDue (d : Dev) (r : Run) (code : Nat) (cond : KRec → Bool) : Bool :=
  decide (r.phase = .records) && decide ((curRec r).kernel = code) && cond (curRec r) && slicesRun d r.cls

/-- The record has its clusters and is paid in full: it ends now. -/
def recordEnds (d : Dev) (r : Run) (code : Nat) (cond : KRec → Bool) : Bool :=
  recordDue d r code cond && !classStops d r.cls && !recBarred d r && hasFabric d r && (engineFault d r).isNone && recPaid d r

/-- Operands that a kernel reads: those it uses, but for the ones it only writes (R221, R222, R246). -/
def readOpnds (x : KRec) : List Nat :=
  let out : List Nat := match x.kernel with
    | 0x04 => [1] | 0x05 => [0] | 0x06 => [0] | 0x07 => [1] | 0x09 => [2] | 0x0A => [2] | 0x0B => [2] | 0x0C => [1]
    | 0x12 => [1] | 0x13 => [1] | 0x15 => [3] | 0x21 => [1]
    | _ => []
  (usedOpnds x).filter (fun k => !out.contains k)

/-- Device addresses of the sheaf operands that a run's record reads. -/
def readSpans (d : Dev) (r : Run) : List (Nat × Nat) :=
  (((readOpnds (curRec r)).map (opnd (curRec r))).filter (fun t => decide (t ≠ 0xFFFF ∧ (tileAt r.plan t).binding = 3))).filterMap
    (tileSpan d r)

/-- A record of a run has the clusters and is paid and, once its steps and beats are complete, has its effect and control moves on.
`body` answers the state after the kernel's own effect, and whether a LOOP_TEST passed (log 78). -/
def runRecord (code : Nat) (cond : KRec → Bool) (body : Run → KRec → Dev → Dev × Bool) (id : Nat) (d : Dev) : Dev :=
  match findRun d id with
  | none => d
  | some r =>
    if !recordDue d r code cond then d
    else if classStops d r.cls then meetCeil r.cls d
    else if recBarred d r ∨ !hasFabric d r then d
    else match engineFault d r with
    | some x => endRun r x d
    | none =>
      if !recPaid d r then paidDev d r
      else
        let res := body (paidRun d r) (curRec r) (paidDev d r)
        moveOn code id r res.2 res.1

/-- Any record of the kernel (log 78). -/
def anyRec (_ : KRec) : Bool := true

/-- A kernel without a test (log 78). -/
def plain (f : Run → KRec → Dev → Dev) : Run → KRec → Dev → Dev × Bool := fun r x d => (f r x d, false)

/-! ### Element kernels -/

/-- Flags of an operation on the share's member j of a sheaf run. -/
def flagMember (r : Run) (j : Nat) (a : Alu) (input : Bool) (d : Dev) : Dev :=
  match sheafOf d r.id with
  | none =>
    match lsqOf d r.id with
    | some q => if a.ov || a.dz || a.nanFin then setLsq { q with failed := true } d else d
    | none => d
  | some s =>
    let g := memberNo s j
    if g < s.c then setSheaf (setMember g (memberFlags a input (memberAt s g)) s) d else d

/-- Element (i, c) of member j as a run reads it. -/
def readElem (d : Dev) (r : Run) (t j i c : Nat) : Nat × Bool :=
  match sheafOf d r.id with
  | some s => sheafElem d r s t j i c
  | none => (rdElem d r t (elemOfs (tileAt r.plan t) j i c), true)

/-- Element (i, c) of member j stored. -/
def writeElem (r : Run) (t j i c v : Nat) (d : Dev) : Dev :=
  match sheafOf d r.id with
  | some s => wrSheaf r s t j i c v d
  | none => wrElem r t (elemOfs (tileAt r.plan t) j i c) v d

/-- Element e of member j by its linear number within the member (log 56). -/
def readLin (d : Dev) (r : Run) (t j e : Nat) : Nat × Bool :=
  let rows := max (tileAt r.plan t).rows 1
  readElem d r t j (e % rows) (e / rows)
/-- It is stored (log 56). -/
def writeLin (r : Run) (t j e v : Nat) (d : Dev) : Dev :=
  let rows := max (tileAt r.plan t).rows 1
  writeElem r t j (e % rows) (e / rows) v d

/-- One element of an element kernel: its operations counted, its member's flags set, the result stored. -/
def elemStep (r : Run) (x : KRec) (dst j i c e : Nat) (input : Bool) (f : K Nat) (d : Dev) : Dev :=
  let o := f.run Alu.zero
  writeElem r dst j i c o.1 (flagMember r j o.2 input (aluElem r x e o.2 d))

/-- COPY and PUBLISH: OPND_0 into OPND_1, converted where their precisions differ (R222, R246) (log 11). -/
def copyBody (r : Run) (x : KRec) (d : Dev) : Dev :=
  let src := opnd x 0
  let dst := opnd x 1
  let ps := (tileAt r.plan src).prec
  let pd := (tileAt r.plan dst).prec
  (List.range (members d r x)).foldl (fun d j =>
    (List.range x.n).foldl (fun d c =>
      (List.range x.m).foldl (fun d i =>
        let v := readElem d r src j i c
        elemStep r x dst j i c (i + x.m * (c + x.n * j)) (v.2 && inputFails r src v.1)
          (if ps = 2 ∨ pd = 2 then pure v.1 else kconv (fmtOf ps) (fmtOf pd) v.1) d) d) d) d

/-- FILL: every element of OPND_0 takes the kernel's value, which the spec leaves open (R147) (log 58). -/
def fillBody (r : Run) (x : KRec) (d : Dev) : Dev :=
  let v := (Config.fillValue (tileAt r.plan (opnd x 0)).prec).toNat
  (List.range (members d r x)).foldl (fun d j =>
    (List.range x.n).foldl (fun d c =>
      (List.range x.m).foldl (fun d i => writeElem r (opnd x 0) j i c v d) d) d) d

/-- The member is frozen (R225). -/
def frozenMember (d : Dev) (r : Run) (j : Nat) : Bool :=
  match sheafOf d r.id with
  | some s => (memberAt s (memberNo s j)).converged
  | none => false

/-- AXPY: OPND_0 added to OPND_1; the sums of frozen members are formed and not taken (R172, R222, R246); integers wrap (R169)
(log 11). -/
def axpyBody (r : Run) (x : KRec) (d : Dev) : Dev :=
  let s := opnd x 0
  let t := opnd x 1
  let f := fmtOf x.prec
  let ps := (tileAt r.plan s).prec
  let pt := (tileAt r.plan t).prec
  let rows := max (tileAt r.plan t).rows 1
  (List.range (members d r x)).foldl (fun d j =>
    (List.range x.n).foldl (fun d e =>
      let a := readLin d r s j e
      let b := readLin d r t j e
      let sum : K Nat := if pt = 2 then pure ((a.1 + b.1) % 2 ^ 32) else do
        let u ← kconv (fmtOf ps) f a.1
        let v ← kconv (fmtOf pt) f b.1
        let w ← kadd f u v
        kconv f (fmtOf pt) w
      if frozenMember d r j then aluElem r x (e + x.n * j) (sum.run Alu.zero).2 d
      else elemStep r x t j (e % rows) (e / rows) (e + x.n * j) ((a.2 && inputFails r s a.1) || (b.2 && inputFails r t b.1)) sum d) d) d

/-- Patterns of a list of linear elements of a member in the record's format. -/
def rowOf (d : Dev) (r : Run) (x : KRec) (t j : Nat) (es : List (Nat × Nat)) : K (List Nat) :=
  es.mapM (fun ic => kconv (tileFmt (tileAt r.plan t)) (fmtOf x.prec) (readElem d r t j ic.1 ic.2).1)

/-- One of the elements of a member's tile, as a kernel reads it, is infinite or a NaN (R224). -/
def rowFails (d : Dev) (r : Run) (t j : Nat) (es : List (Nat × Nat)) : Bool :=
  es.any (fun ic => let v := readElem d r t j ic.1 ic.2; v.2 && inputFails r t v.1)

/-- One reduced element: a sum of products of a row and a column, stored in OPND_`dst` (log 10). -/
def redElem (r : Run) (x : KRec) (dst j i c e : Nat) (a b : List (Nat × Nat)) (ta tb : Nat) (d : Dev) : Dev :=
  elemStep r x dst j i c e (rowFails d r ta j a || rowFails d r tb j b) (do
    let u ← rowOf d r x ta j a
    let v ← rowOf d r x tb j b
    let s ← kred x.kernel x.width (fmtOf x.prec) 0 (u.zip v)
    kconv (fmtOf x.prec) (tileFmt (tileAt r.plan dst)) s) d

/-- DOT: OPND_2 of each member is the product of OPND_0 and OPND_1 (operand roles: notes/assumptions/11.md) (log 11). -/
def dotBody (r : Run) (x : KRec) (d : Dev) : Dev :=
  let rows := max (tileAt r.plan (opnd x 0)).rows 1
  let es := (List.range x.n).map (fun e => (e % rows, e / rows))
  (List.range (members d r x)).foldl (fun d j => redElem r x (opnd x 2) j 0 0 j es es (opnd x 0) (opnd x 1) d) d

/-- GEMV: OPND_2 = OPND_0 · OPND_1, m × n by n (log 11). -/
def gemvBody (r : Run) (x : KRec) (d : Dev) : Dev :=
  (List.range (members d r x)).foldl (fun d j =>
    (List.range x.m).foldl (fun d i =>
      redElem r x (opnd x 2) j i 0 (i + x.m * j) ((List.range x.n).map (fun c => (i, c)))
        ((List.range x.n).map (fun c => (c, 0))) (opnd x 0) (opnd x 1) d) d) d

/-- GEMM: OPND_2 = OPND_0 · OPND_1, m × k by k × n (log 11). -/
def gemmBody (r : Run) (x : KRec) (d : Dev) : Dev :=
  (List.range (members d r x)).foldl (fun d j =>
    (List.range x.n).foldl (fun d c =>
      (List.range x.m).foldl (fun d i =>
        redElem r x (opnd x 2) j i c (i + x.m * (c + x.n * j)) ((List.range x.k).map (fun s => (i, s)))
          ((List.range x.k).map (fun s => (s, c))) (opnd x 0) (opnd x 1) d) d) d) d

/-- SYRK: OPND_1 = OPND_0 · OPND_0ᵀ, OPND_0 m × k (log 11). -/
def syrkBody (r : Run) (x : KRec) (d : Dev) : Dev :=
  (List.range (members d r x)).foldl (fun d j =>
    (List.range x.m).foldl (fun d c =>
      (List.range x.m).foldl (fun d i =>
        redElem r x (opnd x 1) j i c (i + x.m * (c + x.m * j)) ((List.range x.k).map (fun s => (i, s)))
          ((List.range x.k).map (fun s => (c, s))) (opnd x 0) (opnd x 0) d) d) d) d

/-! ### Sheaf kernels (R221, R223) -/

/-- A member's matrix (`mat`) or right-hand side as an array of `rows` × `cols` in the record's format, the elements that the kernel
reads (`use`), and whether its input failed; the other elements enter as 0 and take no part. -/
def loadMember (d : Dev) (r : Run) (s : SheafRun) (x : KRec) (mat : Bool) (t j cols : Nat) (use : Nat → Nat → Bool) :
    K (Array Nat × Bool) := do
  let tl := tileAt r.plan t
  let rows := max tl.rows 1
  let vs := (List.range (tl.rows * cols)).map (fun e =>
    if use (e % rows) (e / rows) then batchElem d r s mat t j (e % rows) (e / rows) else (0, false))
  let ws ← vs.mapM (fun v => kconv (tileFmt tl) (fmtOf x.prec) v.1)
  return (ws.toArray, vs.any (fun v => v.2 && inputFails r t v.1))

/-- Elements of the matrix in OPND_0 that a kernel reads (R221): the lower triangle of a Cholesky or LDLᵀ input or
factor, the upper triangle of R, the vectors v_k below the diagonal. -/
def matrixUse (x : KRec) (i c : Nat) : Bool :=
  match x.kernel with
  | 0x10 | 0x11 => decide (c ≤ i ∧ i < x.n)
  | 0x12 | 0x15 => decide (i < x.n)
  | 0x14 =>
    if x.arg ≤ 1 then decide (c ≤ i ∧ i < x.n) else if x.arg = 3 then decide (i ≤ c) else decide (i < x.n)
  | 0x17 => decide (c < i ∧ i < x.m)
  | _ => decide (i < x.m)

/-- Rows of the right-hand sides that a kernel works on. -/
def rhsUse (x : KRec) (i _c : Nat) : Bool := decide (i < if x.kernel = 0x17 then x.m else x.n)

/-- The patterns of a member's array in the format of its tile, the elements that `keep` picks (R170, R222). -/
def toTile (r : Run) (x : KRec) (t cols : Nat) (keep : Nat → Nat → Bool) (a : Array Nat) : K (List Nat) :=
  let tl := tileAt r.plan t
  let rows := max tl.rows 1
  (List.range (tl.rows * cols)).mapM (fun e =>
    if keep (e % rows) (e / rows) then kconv (fmtOf x.prec) (tileFmt tl) (a.getD e 0) else pure 0)

/-- They are stored. -/
def storeMember (r : Run) (s : SheafRun) (t j : Nat) (keep : Nat → Nat → Bool) (vs : List Nat) (d : Dev) : Dev :=
  let rows := max (tileAt r.plan t).rows 1
  (List.range vs.length).foldl (fun d e =>
    if keep (e % rows) (e / rows) then wrSheaf r s t j (e % rows) (e / rows) (vs.getD e 0) d else d) d

/-- Every member of a record, with its state. -/
def overMembers (r : Run) (x : KRec) (f : SheafRun → Nat → Member → Dev → (Member × Alu × Bool) × Dev) (d : Dev) : Dev :=
  (List.range (members d r x)).foldl (fun d j =>
    match sheafOf d r.id with
    | none => d
    | some s =>
      let g := memberNo s j
      let o := f s j (memberAt s g) d
      let d1 := aluMember r x j o.1.2.1 o.2
      if g < s.c then
        match sheafOf d1 r.id with
        | some s' => setSheaf (setMember g (memberFlags o.1.2.1 o.1.2.2 o.1.1) s') d1
        | none => d1
      else d1) d

/-- Positions of a used member subject to the pivot rule. -/
def ruleOrder (s : SheafRun) (g : Nat) : Nat := if g < s.c then orderOf s g else 0

/-- τ of a member in the record's format: fixed by the run's first factor record (R223). -/
def memberTau (s : SheafRun) (g : Nat) (f : FFmt) (m : Member) (diag : List Nat) : Nat × Member :=
  match m.tau with
  | some t => (fconv f64 f t, m)
  | none =>
    let t := tauOf f s.rho (diag.take (ruleOrder s g))
    (t, { m with tau := some (fconv f f64 t) })

/-- The factor kernels on one member (log 56, 127). -/
def factorMember (r : Run) (x : KRec) (s : SheafRun) (j : Nat) (m : Member) (d : Dev) : (Member × Alu × Bool) × Dev :=
  let f := fmtOf x.prec
  let t := opnd x 0
  let ld := (tileAt r.plan t).rows
  let g := memberNo s j
  let nj := ruleOrder s g
  let t1 := opnd x 1
  let comp : K (List Nat × List Nat × Member × Bool) := do
    let l ← loadMember d r s x true t j x.n (matrixUse x)
    let tm := memberTau s g f m ((List.range x.n).map (fun i => mget l.1 ld i i))
    let o ← match x.kernel with
      | 0x10 => do
        let o ← potrfK x.width f x.n ld nj tm.1 l.1 tm.2
        pure (o.1, [], o.2)
      | 0x11 => do
        let o ← ldltK x.width f x.n ld nj tm.1 l.1 tm.2
        pure (o.1, [], o.2)
      | 0x12 => getrfK x.width f x.n ld nj tm.1 l.1 tm.2
      | _ => do
        let o ← geqrfK x.width f x.m x.n ld nj tm.1 l.1 tm.2
        let b ← o.2.1.mapM (kconv f (tileFmt (tileAt r.plan t1)))
        pure (o.1, b, o.2.2)
    let vs ← toTile r x t x.n (matrixUse x) o.1
    return (vs, o.2.1, o.2.2, l.2)
  let o := comp.run Alu.zero
  let d1 := storeMember r s t j (matrixUse x) o.1.1 d
  let d2 := if 0x12 ≤ x.kernel then
      (List.range x.n).foldl (fun d k => wrSheaf r s t1 j k 0 (o.1.2.1.getD k (if x.kernel = 0x12 then k else 0)) d) d1
    else d1
  ((o.1.2.2.1, o.2, o.1.2.2.2), d2)

/-- A column of an array. -/
def colOf (a : Array Nat) (ld n c : Nat) : List Nat := (List.range n).map (fun i => mget a ld i c)

/-- Pivot k of a member as BPERM takes it: k itself where the member is unused or k is not below its order (R215, R220). A pivot that
names no row of the member gives a row that the spec leaves open (log 56). -/
def pivotOf (d : Dev) (r : Run) (s : SheafRun) (t n j k : Nat) : Nat :=
  let tl := tileAt r.plan t
  let v := rdElem d r t (elemOfs tl (memberIdx s tl j) k 0)
  if ruleOrder s (memberNo s j) ≤ k then k else if v < n then v else (Config.permRow n v).toNat % n

/-- The kernels on right-hand sides of one member: BTRS, BPERM, BQR_APPLY. -/
def rhsMember (r : Run) (x : KRec) (s : SheafRun) (j : Nat) (m : Member) (d : Dev) : (Member × Alu × Bool) × Dev :=
  let f := fmtOf x.prec
  let tb := if x.kernel = 0x17 then opnd x 2 else opnd x 1
  let lb := (tileAt r.plan tb).rows
  let tp := tileAt r.plan (opnd x 0)
  let piv := (List.range x.n).map (pivotOf d r s (opnd x 0) x.n j)
  let comp : K (List Nat × Bool) := do
    let b ← loadMember d r s x false tb j x.r (rhsUse x)
    let a ← if x.kernel = 0x16 then pure (#[], false) else loadMember d r s x true (opnd x 0) j x.n (matrixUse x)
    let ld := tp.rows
    let beta ← if x.kernel = 0x17 then loadMember d r s x false (opnd x 1) j 1 (fun i _ => decide (i < x.n)) else pure (#[], false)
    let cols ← (List.range x.r).mapM (fun c => do
      let y := colOf b.1 lb (if x.kernel = 0x17 then x.m else x.n) c
      match x.kernel with
      | 0x14 => btrsK x.arg x.width f x.n ld a.1 y
      | 0x16 => pure (permRhs piv (bitAt x.arg 0) y)
      | _ => (List.range x.n).foldlM (fun y k =>
          reflect x.width 0x17 f x.m ld k (beta.1.getD k 0) a.1 (fun i => y.getD i 0)) y)
    let out := (List.range x.r).foldl (fun z c =>
      (List.range (cols.getD c []).length).foldl (fun z i => mset z lb i c ((cols.getD c []).getD i 0)) z) b.1
    let vs ← toTile r x tb x.r (rhsUse x) out
    return (vs, a.2 || b.2 || beta.2)
  let o := comp.run Alu.zero
  ((m, o.2, o.1.2), storeMember r s tb j (rhsUse x) o.1.1 d)

/-- BRESID on one member. -/
def residMember (r : Run) (x : KRec) (s : SheafRun) (j : Nat) (m : Member) (d : Dev) : (Member × Alu × Bool) × Dev :=
  let f := fmtOf x.prec
  let ld := (tileAt r.plan (opnd x 0)).rows
  let lx := (tileAt r.plan (opnd x 1)).rows
  let lb := (tileAt r.plan (opnd x 2)).rows
  let lo := (tileAt r.plan (opnd x 3)).rows
  let use := fun (i _ : Nat) => decide (i < x.n)
  let comp : K (List Nat × Bool) := do
    let a ← loadMember d r s x true (opnd x 0) j x.n (matrixUse x)
    let v ← loadMember d r s x false (opnd x 1) j x.r (rhsUse x)
    let b ← loadMember d r s x false (opnd x 2) j x.r (rhsUse x)
    let es ← (List.range (x.n * x.r)).mapM (fun e =>
      residElem f x.n ld (e % max x.n 1) a.1 (colOf v.1 lx x.n (e / max x.n 1)) (mget b.1 lb (e % max x.n 1) (e / max x.n 1)))
    let out := (List.range (x.n * x.r)).foldl (fun z e => mset z lo (e % max x.n 1) (e / max x.n 1) (es.getD e 0))
      (Array.replicate (lo * x.r) 0)
    let vs ← toTile r x (opnd x 3) x.r use out
    return (vs, a.2 || v.2 || b.2)
  let o := comp.run Alu.zero
  ((m, o.2, o.1.2), storeMember r s (opnd x 3) j use o.1.1 d)

/-- A batched kernel of a sheaf run. -/
def batchBody (r : Run) (x : KRec) (d : Dev) : Dev :=
  overMembers r x (if x.kernel ≤ 0x13 then factorMember r x else if x.kernel = 0x15 then residMember r x else rhsMember r x) d

/-! ### LOOP_TEST (R185, R225, R251) -/

/-- Members whose elements a test over whole tiles takes: the used ones of a sheaf run, all of any other run (R218) (log 59). -/
def testMembers (d : Dev) (r : Run) (tl : Tile) : List Nat :=
  match sheafOf d r.id with
  | some s => (List.range (min tl.count s.batch)).filter (fun j => decide (memberNo s j < s.c))
  | none => List.range tl.count

/-- The elements that it takes, with their members. -/
def testElems (d : Dev) (r : Run) (t : Nat) : List (Nat × Nat) :=
  let tl := tileAt r.plan t
  (testMembers d r tl).flatMap (fun j => (List.range (tl.rows * tl.cols)).map (fun e => (j, e)))

/-- The norm of a tile in binary64; 0 for no tile. -/
def tileNorm (d : Dev) (r : Run) (x : KRec) (t : Nat) : K Nat := do
  if t = 0xFFFF then return 0
  else
    let es ← (testElems d r t).mapM (fun je => kconv (tileFmt (tileAt r.plan t)) f64 (readLin d r t je.1 je.2).1)
    knorm 0x02 x.width es

/-- Tile `s` copied over tile `t`, element by element. -/
def copyTile (r : Run) (s t : Nat) (d : Dev) : Dev :=
  (testElems d r t).foldl (fun d je => writeLin r t je.1 je.2 (readLin d r s je.1 je.2).1 d) d

/-- What the elements of one member contribute to the flags of that member: the conversions and squares of its own elements (R224). -/
def testFlags (d : Dev) (r : Run) (t j : Nat) : Alu × Bool :=
  if t = 0xFFFF then (Alu.zero, false)
  else
    let vs := ((testElems d r t).filter (fun je => je.1 = j)).map (fun je => readLin d r t j je.2)
    let o := (vs.mapM (fun (v : Nat × Bool) => (do
      let a ← kconv (tileFmt (tileAt r.plan t)) f64 v.1
      kmul f64 a a : K Nat))).run Alu.zero
    (o.2, vs.any (fun v => v.2 && inputFails r t v.1))

/-- They enter the state of every member of a sheaf run. -/
def flagTest (r : Run) (t : Nat) (d : Dev) : Dev :=
  ((testElems d r t).map (·.1)).dedup.foldl (fun e j => let o := testFlags d r t j; flagMember r j o.1 o.2 e) d

/-- The tolerances of the run's command. -/
def runTols (d : Dev) (r : Run) : Nat × Nat :=
  match sheafOf d r.id with
  | some s => (s.tolAbs, s.tolRel)
  | none => match lsqOf d r.id with
    | some q => (q.tolAbs, q.tolRel)
    | none => (0, 0)

/-- norm ≤ TOL_ABS + TOL_REL × base, in binary64. -/
def tolTest (tol : Nat × Nat) (norm base : Nat) : K Bool := do
  let p ← kmul f64 tol.2 base
  let s ← kadd f64 tol.1 p
  return fle f64 norm s

/-- The norm of OPND_0 and whether it meets the tolerances (R185, R251). -/
def wholeNorm (d : Dev) (r : Run) (x : KRec) : K (Nat × Bool) := do
  let n ← tileNorm d r x (opnd x 0)
  let b ← tileNorm d r x (opnd x 3)
  let t ← tolTest (runTols d r) n b
  return (n, t)

/-- The norm is the smallest of the run's tests over whole tiles so far (R185). -/
def bestSoFar (r : Run) (norm : Nat) : Bool :=
  match r.best with
  | none => true
  | some b => flt f64 norm b

/-- The trial step of an estimate was rejected (R247). -/
def rejectedTrial (d : Dev) (r : Run) : Bool := (lsqOf d r.id).any (·.rejected)

/-- The flags of a test over whole tiles: those of a sheaf run's members by their own elements (R224). -/
def flagWhole (r : Run) (x : KRec) (a : Alu) (d : Dev) : Dev :=
  if (sheafOf d r.id).isSome then flagTest r (opnd x 3) (flagTest r (opnd x 0) d) else flagMember r 0 a false d

/-- LOOP_TEST over whole tiles (R185, R251). `best` is the smallest norm of all such tests of the run (log 59). -/
def wholeTest (r : Run) (x : KRec) (d : Dev) : Dev × Bool :=
  let o := (wholeNorm d r x).run Alu.zero
  let norm := o.1.1
  let keep := bitAt x.arg 0
  let better := bestSoFar r norm
  let d2 := flagWhole r x o.2 (aluElem r x 0 o.2 d)
  let d3 := if keep && better then copyTile r (opnd x 1) (opnd x 2) d2 else d2
  (setRun { r with norm := norm, best := if better then some norm else r.best, keepBest := r.keepBest || keep } d3,
    o.1.2 && !rejectedTrial d r)

/-- The memberwise test of one member (R225). The test of a failed or frozen member is evaluated too, and its outcome is not taken
(R172). -/
def memberTest (r : Run) (x : KRec) (s : SheafRun) (j : Nat) (m : Member) (d : Dev) : (Member × Alu × Bool) × Dev :=
  let g := memberNo s j
  if s.c ≤ g then ((m, Alu.zero, false), d)
  else
    let nj := orderOf s g
    let es := (List.range (nj * x.r)).map (fun e => (e % max nj 1, e / max nj 1))
    let vec (t : Nat) : K (List Nat) :=
      es.mapM (fun ic => kconv (tileFmt (tileAt r.plan t)) f64 (sheafElem d r s t j ic.1 ic.2).1)
    let o := (do
      let rv ← vec (opnd x 0)
      let rn ← knorm 0x02 x.width rv
      let bn ← if opnd x 3 = 0xFFFF then pure 0 else do
        let bv ← vec (opnd x 3)
        knorm 0x02 x.width bv
      let ok ← tolTest (s.tolAbs, s.tolRel) rn bn
      return (rn, ok)).run Alu.zero
    let rn := o.1.1
    let keep := bitAt x.arg 0
    let better := keep && (decide (m.tests = 0) || flt f64 rn m.best)
    let input := rowFails d r (opnd x 0) j es || (decide (opnd x 3 ≠ 0xFFFF) && rowFails d r (opnd x 3) j es)
    if m.fail ≠ 0 ∨ m.converged then ((m, Alu.zero, false), aluMember r x j o.2 d)
    else
    let m1 := { m with tests := m.tests + 1, converged := o.1.2, best := if better then rn else m.best,
                       norm := if keep then (if better then rn else m.best) else rn, kept := keep }
    let t1 := tileAt r.plan (opnd x 1)
    let d1 := if better then
        (List.range (t1.rows * t1.cols)).foldl (fun d e =>
          writeLin r (opnd x 2) j e (readLin d r (opnd x 1) j e).1 d) d
      else d
    ((m1, o.2, input), d1)

/-- LOOP_TEST with MEMBERWISE (R225): passes when every used member that has not failed is CONVERGED. -/
def memberwiseTest (r : Run) (x : KRec) (d : Dev) : Dev × Bool :=
  let d1 := overMembers r { x with batch := (match sheafOf d r.id with | some s => s.batch | none => x.batch) } (memberTest r x) d
  match sheafOf d1 r.id with
  | none => (d1, true)
  | some s =>
    let s1 := { s with memberwise := true }
    let live := (List.range s.c).filter (fun g => decide ((memberAt s1 g).fail = 0))
    let norm := live.foldl (fun a g => fmax2 f64 a (memberAt s1 g).norm) 0
    (setRun { r with norm := norm } (setSheaf s1 d1), live.all (fun g => (memberAt s1 g).converged))

/-- LOOP_TEST (log 59). -/
def testBody (r : Run) (x : KRec) (d : Dev) : Dev × Bool :=
  if bitAt x.arg 1 && (sheafOf d r.id).isSome then memberwiseTest r x d else wholeTest r x d

end Sys2Proof.Machine
end

