-- ==== Sys2Proof/Machine/Sheaf.lean ====
section
/-!
DEFINITION. Sheaf runs: group 0x05, the start of runs, the status phase, split shares
(spec/09_sheaf_solvers.md R215–R234, spec/08_placement.md R196, R201–R204, spec/11_run_ahead.md R263–R265).
-/

namespace Sys2Proof.Machine

/-! ### What an entry reads and writes -/

/-- The operands a record writes. -/
def outOpnds (x : KRec) : List Nat :=
  let ks : List Nat := match x.kernel with
    | 0x02 => if bitAt x.arg 0 then [2] else []
    | 0x04 => [1] | 0x05 => [0] | 0x06 => [0] | 0x07 => [1] | 0x08 => [1] | 0x09 => [2] | 0x0A => [2] | 0x0B => [2]
    | 0x0C => [1] | 0x10 => [0] | 0x11 => [0] | 0x12 => [0, 1] | 0x13 => [0, 1] | 0x14 => [1] | 0x15 => [3]
    | 0x16 => [1] | 0x17 => [2] | 0x18 => [0] | 0x19 => [1] | 0x1A => if bitAt x.arg 1 then [] else [2]
    | 0x1B => [1] | 0x1C => [0] | 0x1D => [1] | 0x1E => if bitAt x.arg 0 then [1] else [0] | 0x1F => [0]
    | 0x20 => [1] | 0x21 => [1] | _ => []
  (ks.map (opnd x)).filter (fun t => t ≠ 0xFFFF)

/-- The tiles that an entry's records write. -/
def writtenTiles (pl : Plan) (e : PEntry) : List Nat := ((entryRecs pl e).flatMap (fun ix => outOpnds ix.2)).dedup

/-- The tiles that an entry's records name. -/
def namedTiles (pl : Plan) (e : PEntry) : List Nat :=
  (List.range pl.tiles.length).filter (fun t => (entryRecs pl e).any (fun ix => names ix.2 t))

/-- The batched records of an entry. -/
def batchRecs (pl : Plan) (e : PEntry) : List KRec :=
  ((entryRecs pl e).map (·.2)).filter (fun x => decide (0x10 ≤ x.kernel ∧ x.kernel ≤ 0x17))

/-- The batch and order of a sheaf entry, when it obeys R215. -/
def entryBatch (pl : Plan) (e : PEntry) : Option (Nat × Nat) :=
  match batchRecs pl e with
  | [] => none
  | x :: xs => if xs.all (fun y => decide (y.batch = x.batch ∧ y.n = x.n)) then some (x.batch, x.n) else none

/-! ### Runs of groups 0x05–0x07: acceptance common to them -/

/-- A command of groups 0x05–0x07 with a run: not the self-test service and not another unit's share. -/
def ofCommand (r : Run) : Bool := decide (r.kind ≠ .selfTest ∧ r.kind ≠ .share)

/-- The run of a command. -/
def runOfCmd (d : Dev) (id : Nat) : Option Run := d.pln.runs.find? (fun r => ofCommand r && decide (r.cmd = id))

/-- A command waits for its launch time, or for its re-solve after a squash. -/
def runWaits (d : Dev) (c : Cmd) : Bool := decide (c.phase = .waiting) || d.ra.resolves.any (fun e => e.cmd = c.id)

/-- Runs of groups 0x05–0x07 fetched and not complete: waiting for a launch or a re-solve, running, or ended with a period that has
not committed (R231). -/
def runsOutstanding (d : Dev) : Nat :=
  (d.cmd.cmds.filter (fun c => [0x0501, 0x0601, 0x0704].contains c.pkt.opcode.toNat &&
    (runWaits d c || (runOfCmd d c.id).isSome || d.ra.periods.any (fun p => p.ended.any (fun e => e.cmd = c.id))))).length

/-- The first fault of the parameters that submissions share: PARAM_0, and PARAM_4–6 by SPEC (R263). -/
def subParams (p : Pkt) (mid : List (Bool × Nat)) : Option Nat :=
  let spec := isSpec p
  firstBad ([(decide (param p 0 &&& 0xF07 ≠ param p 0), 0x20)] ++ mid ++
    [ (!spec && decide (param p 4 ≠ 0), 0x30), (!spec && decide (param p 5 ≠ 0), 0x34),
      ((if spec then decide (1 < param p 6) else decide (param p 6 ≠ 0)), 0x38), (decide (param p 7 ≠ 0), 0x3C) ])

/-- A period is open (R258). -/
def periodOpen (d : Dev) (n : Nat) : Bool := d.ra.periods.any (fun q => decide (q.n = n) && !q.commitWait)

/-- Run-ahead refusals of a period by state (R277). -/
def raConflict (d : Dev) (mask n : Nat) (alsoCurrent : Bool) : Option Res :=
  if d.ra.depth = 0 then some (conflictObj d mask 1)
  else if periodOpen d n || (alsoCurrent && decide (n = curPeriod d)) then none
  else some (conflictObj d mask 2)

/-- The object check of a speculative submission (R263, R277). -/
def specObject (p : Pkt) (d : Dev) : Option Res := if isSpec p then raConflict d 0x20 (param64 p 4) false else none

/-- The first tile that a speculative run may not bind: result operands 1–3 are refused, and what R265 lists may not be written
(R264, R265). -/
def specForbids (pl : Plan) (e : PEntry) : Option Nat :=
  (namedTiles pl e).find? fun t =>
    let tl := tileAt pl t
    decide (tl.binding = 5 ∧ 1 ≤ tl.bindIndex) ||
    ((writtenTiles pl e).contains t && ((decide (tl.binding = 3) && !bitAt tl.tflags 0) || decide (tl.binding = 4 ∧ 2 ≤ tl.bindIndex)))

/-- The class and write rules of a speculative submission (R277). -/
def specFault (p : Pkt) (d : Dev) (pl : Plan) (e : PEntry) : Option Res :=
  if !isSpec p then none
  else if e.cls ≠ 5 ∨ pktClass p d ≠ 5 then some (bad1 0x48 0xFFFFFFFF)
  else (specForbids pl e).map (bad1 0x48)

/-- The refusals on the slot's state and on the number of runs that end every list of refusals (R231, R255). -/
def slotRefusals (d : Dev) (s : Nat) : Option Res :=
  if slotState d s ≠ 2 then some (structMismatch d)
  else if unplacedSlot d s then some (noPlacement 5 s 0)
  else if 120 ≤ runsOutstanding d then some (refuse stBusy 1)
  else none

/-- Another run of the same slot and entry holds its homes (R196). -/
def homesHeld (d : Dev) (r : Run) : Bool :=
  d.pln.runs.any (fun q => decide (q.id ≠ r.id ∧ q.slot = r.slot ∧ q.entry = r.entry) &&
    (decide (q.phase ≠ .queued) || decide (q.id < r.id)))

/-- A run that becomes due: it waits for its start. -/
def newRun (kind : RunKind) (cmd : Nat) (p : Pkt) (age : Nat) (d : Dev) : Run :=
  let s := subSlot p
  { id := age, cmd := cmd, kind := kind, slot := s, entry := subEntry p, plan := (planIn d s).getD default,
    gen := d.mdl.com.gen, cls := (entryAt ((planIn d s).getD default) (subEntry p)).cls, phase := .queued,
    idx := (entryAt ((planIn d s).getD default) (subEntry p)).first, loops := [], path := 0, part := 0, beat := 0,
    deadline := if kind = .extrapolate then 0 else param64 p 2, stop := none, paused := false,
    spec := if kind = .extrapolate then some (param64 p 2) else if isSpec p then some (param64 p 4) else none,
    startTime := 0, passes := 0, tail := false, dlStopped := false, capped := false, norm := 0, best := none, keepBest := false,
    indep := isSpec p && bitAt (param p 6) 0, resolve := false, rbuf := 0, tslot := 0, cluster := 0, dlPassed := false, tolFails := 0 }

/-- A run enters the list of runs; a wait for homes is counted (R196, R214). -/
def addRun (r : Run) (d : Dev) : Dev :=
  let d1 := { d with pln.runs := d.pln.runs ++ [r], pln.nextRun := max d.pln.nextRun (r.id + 1) }
  if homesHeld d1 r then bump 4 6 1 d1 else d1

/-- An RA_EXTRAPOLATE run of a period is in progress (R261). -/
def extrapolating (d : Dev) (n : Nat) : Bool := d.pln.runs.any (fun q => q.kind = .extrapolate && q.spec == some n)

/-- A queued run may start (R28, R196, R206, R236, R261). A paused class holds up its records, not its start, except where the start
is work: the start phase of an estimate (R245) and the self-test service (R157) (log 153). -/
def canStart (d : Dev) (r : Run) : Bool :=
  decide (r.phase = .queued) && !homesHeld d r && !d.plc.replacePend && !d.sys.pfail && slicesRun d r.cls &&
  !(decide (r.kind = .lsq ∨ r.kind = .selfTest) && classStops d r.cls) &&
  (match r.kind with
   | .lsq => !d.pln.runs.any (fun q => decide (q.kind = .lsq ∧ q.id ≠ r.id) && (decide (q.phase ≠ .queued) || decide (q.id < r.id)))
   | _ => true) &&
  (match r.spec with
   | some n => r.kind = .extrapolate || !extrapolating d n
   | none => true)

/-- Operands fixed at the start (R264): buffers by the period or firm, the tentative slot. -/
def bindRun (d : Dev) (r : Run) : Run :=
  match r.spec.bind (periodOf d) with
  | some q => { r with rbuf := q.buf, tslot := q.slot }
  | none => { r with rbuf := d.ra.resBuf, tslot := d.ra.curSlot.getD 0 }

/-- The first speculative run of a period freezes its assumed values (R261), and marks operand 0 as bound. -/
def freezeFor (r : Run) (d : Dev) : Dev :=
  match r.kind, r.spec.bind (periodOf d) with
  | .extrapolate, _ => d
  | _, none => d
  | _, some q =>
    let op0 := (namedTiles r.plan (entryAt r.plan r.entry)).any (fun t =>
      decide ((tileAt r.plan t).bindIndex = 0 ∧ ((tileAt r.plan t).binding = 5 ∨ (tileAt r.plan t).binding = 6)))
    setPeriod { q with frozen := true, freezeTime := if q.frozen then q.freezeTime else now d, wrote := q.wrote || op0 }
      (bump 7 0 1 d)

/-- The buffer and the result operands lie in the unit's own DRAM or Loft (R201). -/
def ownBuffer (a : Nat) : Bool := decide (a < 0x200000000) || decide (0x1000000000 ≤ a ∧ a < 0x1002000000)

/-- A run pins its measurements: the newest complete value set, or the assumed set of its period (R128, R262, R266). -/
def pinFor (r : Run) (d : Dev) : Dev :=
  match r.spec with
  | none => pinSet r.id d
  | some n =>
    { d with ra.setsFor := smSet [] d.ra.setsFor r.id (assumedSet d r.tslot n),
             ra.testSets := if r.kind = .extrapolate then smSet [] d.ra.testSets r.id (newestCopy d) else d.ra.testSets }

/-- A run whose slot a re-placement left unplaced does not start (R206, R208). -/
def unplacedRun (r : Run) (d : Dev) : Dev := endRun r (noPlacement 5 r.slot 0) (bump 4 1 1 d)

/-- A run starts (R129, R195, R196, R201, R264) (log 78). -/
def startRun (r : Run) (d : Dev) : Dev :=
  let c0 := (smGet [] d.plc.c0 r.slot).getD r.entry 0
  let r1 := { bindRun d r with phase := .records, gen := d.mdl.com.gen, startTime := now d, cluster := c0,
                               idx := (entryAt r.plan r.entry).first }
  let usesSet := (namedTiles r.plan (entryAt r.plan r.entry)).any (fun t => decide ((tileAt r.plan t).binding = 2))
  let d1 := freezeFor r1 (setRun r1 d)
  let d2 := if r.kind = .lsq ∨ r.kind = .extrapolate ∨ usesSet then pinFor r1 d1 else d1
  match r.kind with
  | .sheaf =>
    match sheafOf d2 r.id with
    | none => bump 5 0 1 d2
    | some s =>
      let sp := if ownBuffer s.buf then splitOf d2 r.slot r.plan (entryAt r.plan r.entry) else none
      match sp with
      | none => bump 5 0 1 d2
      | some sh =>
        let mine := (sh.find? (fun x => x.1 = ownAddr d2)).getD (0, 0, 0)
        bump 4 3 1 (bump 5 0 1 (setSheaf { s with split := true, shareFirst := mine.2.1, shareCount := mine.2.2,
                                                  shares := sh.filter (fun x => x.1 ≠ ownAddr d2) } d2))
  | .lsq => bump 6 0 1 d2
  | _ => d2

/-! ### The sheaf buffer (R217–R220, R231) -/

/-- The header's first fault, as its offset. -/
def sheafHeaderFault (b : List Byte) (bufLen c : Nat) : Option Nat :=
  let fl := fieldLE b 6 2
  let n := fieldLE b 0x28 4
  let oo := fieldLE b 0x20 4
  let so := fieldLE b 0x24 4
  firstBad ([ (decide (fieldLE b 0 4 ≠ 0x48565349), 0), (decide (fieldLE b 4 2 ≠ 1), 4), (decide (3 < fl), 6),
      ((if bitAt fl 0 then decide (bufLen < oo + c) else decide (oo ≠ 0)), 0x20),
      ((if bitAt fl 1 then decide (so % 16 ≠ 0 ∨ bufLen < so + 16 * c) else decide (so ≠ 0)), 0x24),
      (decide (8 < n), 0x28), (!zeroAt b 0x2C 4, 0x2C) ] ++
    (List.range 8).flatMap (fun k =>
      [ (decide (n ≤ k) && !zeroAt b (0x30 + 8 * k) 4, 0x30 + 8 * k), (decide (n ≤ k) && !zeroAt b (0x34 + 8 * k) 4, 0x34 + 8 * k) ]) ++
    [ (!zeroAt b 0x70 16, 0x70) ])

/-- Bytes that C members of a tile take in its operand (R218). -/
def opndNeed (tl : Tile) (c : Nat) : Nat := c * tl.rows * tl.cols * elemSize tl.prec

/-- The lowest operand at fault: one that the header names, misaligned or outside BUF_LEN, or one that a tile names, not in the
header or too short (R217, R218, R231). -/
def sheafOpndFault (pl : Plan) (e : PEntry) (b : List Byte) (bufLen c : Nat) : Option Nat :=
  let n := fieldLE b 0x28 4
  let ts := (namedTiles pl e).filter (fun t => (tileAt pl t).binding = 3)
  let bad (k : Nat) : Bool :=
    let o := fieldLE b (0x30 + 8 * k) 4
    let l := fieldLE b (0x34 + 8 * k) 4
    (decide (k < n) && decide (o % 64 ≠ 0 ∨ bufLen < o + l)) ||
    ts.any (fun t => decide ((tileAt pl t).bindIndex = k) && decide (n ≤ k ∨ l < opndNeed (tileAt pl t) c))
  ((List.range n ++ ts.map (fun t => (tileAt pl t).bindIndex)).filter bad).foldl (fun (a : Option Nat) k => match a with
    | none => some k
    | some v => some (min v k)) none

/-- The member orders of the header, one per used member. -/
def sheafOrders (b : List Byte) (c : Nat) : List Nat :=
  if bitAt (fieldLE b 6 2) 0 then (sliceB b (fieldLE b 0x20 4) c).map (fun x => x.toNat) else []

/-- The first member whose order is at fault (R220). -/
def orderFault (pl : Plan) (e : PEntry) (n : Nat) (os : List Nat) : Option Nat :=
  let qr := (batchRecs pl e).any (fun x => (x.kernel = 0x13 || x.kernel = 0x17) && decide (x.n < x.m))
  (List.range os.length).find? (fun j =>
    decide (n < os.getD j 0) || (qr && decide (os.getD j 0 ≠ 0 ∧ os.getD j 0 ≠ n)))

/-- A tolerance: binary64, finite and ≥ 0. -/
def tolOk (x : Nat) : Bool := fIsFin f64 x && fle f64 0 x
/-- ρ of a pivot rule: +0.0, or between 0 and 1. -/
def rhoOk (x : Nat) : Bool := decide (x = 0) || (flt f64 0 x && flt f64 x f64one)
/-- The ρ in force: 2⁻⁴⁰ for +0.0. -/
def rhoOf (x : Nat) : Nat := if x = 0 then 0x3D70000000000000 else x

/-- The refusals of SHEAF_SUBMIT in order (R231). -/
def sheafRefusal (p : Pkt) (d : Dev) : Option Res :=
  match planIn d (subSlot p) with
  | none => some (badParam 0x40)
  | some pl =>
    let e := entryAt pl (subEntry p)
    let c := param p 1
    if pl.entries.length ≤ subEntry p ∨ e.opgroup ≠ 5 then some (badParam 0x41)
    else match entryBatch pl e with
    | none => some (badParam 0x41)
    | some (bE, nE) =>
      match specFault p d pl e with
      | some x => some x
      | none =>
        if pktClass p d ≠ e.cls then some (badParam 0x42)
        else
          let b := rdBytes d (bufA p) (bufL p)
          match sheafHeaderFault b (bufL p) c with
          | some o => some (bad1 0x43 o)
          | none =>
            if bE < c then some (bad1 0x44 bE)
            else match sheafOpndFault pl e b (bufL p) c with
            | some k => some (bad1 0x45 k)
            | none =>
              match orderFault pl e nE (sheafOrders b c) with
              | some j => some (bad1 0x46 j)
              | none =>
                match firstBad [(!rhoOk (fieldLE b 8 8), 8), (!tolOk (fieldLE b 0x10 8), 0x10), (!tolOk (fieldLE b 0x18 8), 0x18)] with
                | some o => some (bad1 0x47 o)
                | none => slotRefusals d (subSlot p)

/-- The ring must be granted WRITE on the operands a run may write and on the status array (R114, R218). -/
def sheafGrant (p : Pkt) (d : Dev) : Option Res :=
  match planIn d (subSlot p) with
  | none => none
  | some pl =>
    let e := entryAt pl (subEntry p)
    let b := rdBytes d (bufA p) (min (bufL p) 128)
    let bad := (namedTiles pl e).any (fun t =>
        let tl := tileAt pl t
        decide (tl.binding = 3) && !bitAt tl.tflags 0 && decide (tl.bindIndex < fieldLE b 0x28 4) &&
        !ringGrant d (ringN p) (bufA p + fieldLE b (0x30 + 8 * tl.bindIndex) 4) (fieldLE b (0x34 + 8 * tl.bindIndex) 4) true) ||
      (bitAt (fieldLE b 6 2) 1 && !ringGrant d (ringN p) (bufA p + fieldLE b 0x24 4) (16 * param p 1) true)
    if bad then some (refuse stNotPermitted 3) else none

def specSheafSubmit : OpSpec :=
  { opBase 0x0501 0xA8 with
    launch := fun _ => true
    spec := true
    bufUse := .read
    bufOk := fun p _ => decide (128 ≤ bufL p)
    params := fun p _ => subParams p [(decide (param p 1 = 0 ∨ 4096 < param p 1), 0x24)]
    addrs := sheafGrant
    object := specObject
    resources := sheafRefusal }

/-- The sheaf half of a run of an entry on a buffer with the header and the member orders given (R217). -/
def sheafHalf (run buf bufLen c : Nat) (b : List Byte) (orders : List Nat) (pl : Plan) (e : PEntry) : SheafRun :=
  let bn := (entryBatch pl e).getD (0, 0)
  { run := run, buf := buf, bufLen := bufLen, hflags := fieldLE b 6 2, rho := rhoOf (fieldLE b 8 8),
    tolAbs := fieldLE b 0x10 8, tolRel := fieldLE b 0x18 8, statusOfs := fieldLE b 0x24 4,
    opnds := (List.range (fieldLE b 0x28 4)).map (fun k => (fieldLE b (0x30 + 8 * k) 4, fieldLE b (0x34 + 8 * k) 4)),
    orders := orders, c := c, batch := bn.1, order := bn.2, members := [],
    memberwise := false, shares := [], shareFirst := 0, shareCount := bn.1, split := false, factored := false, rerun := [], unit := 0,
    unitRun := 0, resBase := 0 }

/-- The sheaf half of a new run, from the buffer's header. -/
def newSheaf (run : Nat) (p : Pkt) (d : Dev) : SheafRun :=
  let b := rdBytes d (bufA p) (bufL p)
  let pl := (planIn d (subSlot p)).getD default
  sheafHalf run (bufA p) (bufL p) (param p 1) b (sheafOrders b (param p 1)) pl (entryAt pl (subEntry p))

/-- SHEAF_SUBMIT: the run is due (R215). `age` is its place in the order of R156. -/
def submitSheaf (age : Nat) (re : Bool) (id : Nat) (p : Pkt) (d : Dev) : Dev :=
  addRun { newRun .sheaf id p age d with resolve := re } { d with shf := d.shf ++ [newSheaf age p d] }

/-- The effect of SHEAF_SUBMIT. -/
def effSheafSubmit (id : Nat) (p : Pkt) (d : Dev) : Dev := submitSheaf d.pln.nextRun false id p d

/-! ### Status phase (R226–R228) -/

/-- The entry has a memberwise LOOP_TEST. -/
def hasMemberTest (pl : Plan) (e : PEntry) : Bool :=
  (entryRecs pl e).any (fun ix => decide (ix.2.kernel = 2) && bitAt ix.2.arg 1)

/-- A member's outcome (R227). -/
def memberOutcome (r : Run) (test : Bool) (m : Member) : Nat :=
  if m.fail ≠ 0 then 0x23
  else if test && !m.converged && (r.dlStopped || r.capped) then (if r.dlStopped then 0x1A else 0x01)
  else if m.regCount ≠ 0 then 0x02 else 0x00

/-- A status record (R227). -/
def statusRecord (r : Run) (test : Bool) (m : Member) : List Byte :=
  let f := decide (m.fail ≠ 0)
  leBytes 1 (memberOutcome r test m) ++
  leBytes 1 (m.fail + 16 * b2n m.converged + 32 * b2n (!test) + 64 * b2n m.kept) ++
  leBytes 1 (if f then 0 else m.regCount) ++ leBytes 1 (if f then 0xFF else m.firstReg) ++
  leBytes 2 m.tests ++ leBytes 2 0 ++ leBytes 8 (if f || !test then 0 else m.norm)

/-- Outputs of a failed member become +0.0 (R224). -/
def zeroMember (r : Run) (s : SheafRun) (g : Nat) (d : Dev) : Dev :=
  ((writtenTiles r.plan (entryAt r.plan r.entry)).filter (fun t =>
      (tileAt r.plan t).binding = 3 ∨ (tileAt r.plan t).binding = 5)).foldl (fun d t =>
    let tl := tileAt r.plan t
    (List.range (tl.rows * tl.cols)).foldl (fun d e =>
      if tl.binding = 3 ∧ s.c ≤ g then d
      else wrElem r t ((g * tl.rows * tl.cols + e) * elemSize tl.prec) 0 d) d) d

/-- The completion of a sheaf run (R228). -/
def sheafResult (r : Run) (s : SheafRun) : Res :=
  let test := hasMemberTest r.plan (entryAt r.plan r.entry)
  let ms := (List.range s.c).map (memberAt s)
  let failed := (ms.filter (fun m => m.fail ≠ 0)).length
  let live := ms.filter (fun m => m.fail = 0)
  let reg := (live.filter (fun m => m.regCount ≠ 0)).length
  let unconv := if test then (live.filter (fun m => !m.converged)).length else 0
  let norm := if test then live.foldl (fun a m => fmax2 f64 a m.norm) 0 else 0
  let st : Nat × Nat :=
    if r.dlStopped then (stDeadline, 0)
    else if failed = s.c then (stNumeric, 0)
    else if failed ≠ 0 then (stPartial, 1)
    else if r.capped ∧ unconv ≠ 0 then (stPartial, 2)
    else if reg ≠ 0 then (stRegularised, 0) else (stOk, 0)
  ⟨st.1, st.2, reg <<< 16 + failed, (r.passes % 65536) <<< 16 + unconv, lo32 norm, hi32 norm⟩

/-- SHEAF_STATUS_PHASE: outputs of failed members zeroed, status records written, the completion issued; a split run
waits for its partners (R203, R226–R228). -/
def sheafStatusPhase (id : Nat) (d : Dev) : Dev :=
  match findRun d id, sheafOf d id with
  | some r, some s =>
    if r.kind ≠ .sheaf ∨ r.phase ≠ .status ∨ !s.shares.isEmpty then d
    else if classStops d r.cls then meetCeil r.cls d
    else
      let test := hasMemberTest r.plan (entryAt r.plan r.entry)
      let failed := (List.range s.c).filter (fun g => (memberAt s g).fail ≠ 0)
      let d1 := failed.foldl (fun d g => zeroMember r s g d) d
      let d2 := if bitAt s.hflags 1 then
          charge r.cls .beats (beatsOf (16 * s.c))
            (wrBytes (s.buf + s.statusOfs) ((List.range s.c).flatMap (fun g => statusRecord r test (memberAt s g))) d1)
        else d1
      let live := ((List.range s.c).map (memberAt s)).filter (fun m => m.fail = 0)
      let d3 := bump 5 7 s.c (bump 5 8 (live.filter (fun m => m.regCount ≠ 0)).length
        (bump 5 9 (live.foldl (fun n m => n + m.regCount) 0) (bump 5 10 failed.length
          (bump 5 11 (if test then (live.filter (fun m => !m.converged)).length else 0) d2))))
      endRun r (sheafResult r s) (countLate r d3)
  | _, _ => d

/-! ### Split shares (R203, R204) -/

/-- A partner reports its share: unit, and by member its failure flags, regularisation count and first position. -/
def shareReport (id unit : Nat) (ms : List (Nat × Nat × Nat)) (d : Dev) : Dev :=
  match sheafOf d id with
  | none => d
  | some s =>
    match s.shares.find? (fun x => x.1 = unit) with
    | none => d
    | some sh =>
      let s1 := (List.range (min ms.length sh.2.2)).foldl (fun s i =>
        let v := ms.getD i (0, 0, 0xFF)
        let g := sh.2.1 + i
        if g < s.c then setMember g { memberAt s g with fail := v.1, regCount := v.2.1, firstReg := v.2.2 } s else s) s
      setSheaf { s1 with shares := s1.shares.filter (fun x => x.1 ≠ unit) } d

/-- SHARE_RERUN: the share of a departed or late partner is run again here, at once or after the share that this unit still runs
(R204). -/
def shareRerun (id unit : Nat) (d : Dev) : Dev :=
  match findRun d id, sheafOf d id with
  | some r, some s =>
    match s.shares.find? (fun x => x.1 = unit) with
    | none => d
    | some sh =>
      let s1 := { s with shares := s.shares.filter (fun x => x.1 ≠ unit), rerun := s.rerun ++ [sh.2] }
      let d1 := bump 4 4 1 (addF Reg.plcRerunCnt 31 0 1 (setSheaf s1 d))
      if r.phase = .status then recordsDone r d1 else d1
  | _, _ => d

/-- Every share that a unit holds of runs of this one is run again here: the unit has left the chain (R204). -/
def rerunShares (unit : Nat) (d : Dev) : Dev := (d.shf.map (·.run)).foldl (fun d id => shareRerun id unit d) d

/-- A run that no command of this unit has, of an entry of a plan in force: it waits for its start (R188, R203). -/
def deviceRun (kind : RunKind) (slot entry deadline : Nat) (pl : Plan) (d : Dev) : Run :=
  let e := entryAt pl entry
  { id := d.pln.nextRun, cmd := 0, kind := kind, slot := slot, entry := entry, plan := pl, gen := d.mdl.com.gen, cls := e.cls,
    phase := .queued, idx := e.first, loops := [], path := 0, part := 0, beat := 0, deadline := deadline, stop := none,
    paused := false, spec := none, startTime := 0, passes := 0, tail := false, dlStopped := false, capped := false, norm := 0,
    best := none, keepBest := false, indep := false, resolve := false, rbuf := 0, tslot := 0, cluster := 0, dlPassed := false,
    tolFails := 0 }

/-- This unit takes a share of another unit's run: it waits for its homes and clusters like a run of its own, reads the operands and
writes the results through the submitting unit's window, and charges the entry's class under its own frame plan (R203). -/
def takeShare (q : ShareReq) (d : Dev) : Dev :=
  match planIn d q.slot with
  | none => d
  | some pl =>
    let e := entryAt pl q.entry
    if pl.entries.length ≤ q.entry ∨ !splitCapable pl e ∨ d.sys.mode = .standby then d
    else
      let r := deviceRun .share q.slot q.entry q.deadline pl d
      let s := sheafHalf r.id (windowAddr q.unit q.buf) q.bufLen q.c q.header (q.orders.map (·.toNat)) pl e
      addRun r { d with shf := d.shf ++ [{ s with split := true, shareFirst := q.first, shareCount := q.count, unit := q.unit,
                                                  unitRun := q.run, resBase := q.resBase }] }

/-! ### SHEAF_CANCEL, SHEAF_QUERY (R232, R233, R507) -/

/-- The oldest outstanding command of an opcode with a TAG on a ring: waiting for its launch or a re-solve, or with a run whose status
phase has not begun (R232). -/
def outstanding (d : Dev) (opcode tag ring : Nat) : Option Cmd :=
  d.cmd.cmds.find? fun c =>
    decide (c.pkt.opcode.toNat = opcode ∧ c.pkt.tag.toNat = tag ∧ c.pkt.ring.val = ring) &&
    (runWaits d c || (runOfCmd d c.id).any (fun r => decide (r.phase ≠ .status)))

/-- TAG and ring as PARAM_0 and PARAM_1. -/
def tagParams (p : Pkt) (_ : Dev) : Option Nat := (firstBad [(decide (63 < param p 1), 0x24)]).or (zeroFrom p 2)

/-- No such run is outstanding (R232). -/
def noSuchRun (opcode mask : Nat) (p : Pkt) (d : Dev) : Option Res :=
  if (outstanding d opcode (param p 0) (param p 1)).isSome then none else some (conflictObj d mask 1)

/-- The run a command names is cancelled: 1 when it was in progress, 0 when it was waiting (R232). -/
def cancelRun (opcode mask : Nat) : Nat → Pkt → Dev → Dev :=
  immediate fun p d =>
    match outstanding d opcode (param p 0) (param p 1) with
    | none => (conflictObj d mask 1, d)
    | some c =>
      match runOfCmd d c.id with
      | none => (ok 0 0 0 0, commitReady (complete c.id (refuse stCancelled 0) d))
      | some r => (ok (b2n (decide (r.phase ≠ .queued))) 0 0 0, endRun r (refuse stCancelled 0) d)

/-- PHASE of a run (R233, R256). -/
def runPhase (d : Dev) (r : Run) : Nat :=
  match r.phase with
  | .queued => if r.kind = .lsq && !homesHeld d r then 6 else 1
  | .status => 4
  | .records =>
    if r.kind = .lsq && (match lsqOf d r.id with | some q => !q.started | none => false) then 5
    else if r.tail then 3 else 2

/-- The progress of the run a command names (R230, R254). -/
def queryRun (opcode mask : Nat) : Nat → Pkt → Dev → Dev :=
  immediate fun p d =>
    match outstanding d opcode (param p 0) (param p 1) with
    | none => (conflictObj d mask 1, d)
    | some c =>
      match runOfCmd d c.id with
      | none => (ok 0 (b2n (decide (c.phase ≠ .waiting))) 0 0, d)
      | some r => (ok r.idx ((r.passes % 65536) <<< 16 + runPhase d r) (lo32 r.path) (hi32 r.path), d)

def specSheafCancel : OpSpec :=
  { opBase 0x0502 0xE8 with params := tagParams, object := noSuchRun 0x0501 0xE8 }
/-- SHEAF_CANCEL. -/
def effSheafCancel : Nat → Pkt → Dev → Dev := cancelRun 0x0501 0xE8

def specSheafQuery : OpSpec :=
  { opBase 0x0503 0xF8 with params := tagParams, object := noSuchRun 0x0501 0xF8 }
/-- SHEAF_QUERY. -/
def effSheafQuery : Nat → Pkt → Dev → Dev := queryRun 0x0501 0xF8

/-- A run record of READ_STATE 0x0500_0000 or 0x0600_0000 (R233, R256). -/
def runRecordBytes (d : Dev) (r : Run) (mem failed : Nat) (split : Bool) : List Byte :=
  let t := runTag d r
  leBytes 4 t.1 ++ leBytes 2 t.2 ++ leBytes 1 r.slot ++ leBytes 1 r.entry ++ leBytes 2 mem ++
  leBytes 1 (runPhase d r) ++
  leBytes 1 (b2n r.spec.isSome + 2 * b2n split + 4 * b2n (deadlineHit d r) + 8 * b2n (classPaused d r.cls)) ++
  leBytes 4 r.idx ++ leBytes 2 r.passes ++ leBytes 2 failed ++ leBytes 4 0 ++ leBytes 8 r.deadline

/-- An unused run record. -/
def unusedRun : List Byte := List.replicate 6 0 ++ [u8 0xFF] ++ List.replicate 25 (0 : Byte)

/-- The record of a command that has no run yet: it waits for its launch (PHASE 0) or, squashed, for its re-solve (PHASE 1). -/
def waitRecordBytes (d : Dev) (c : Cmd) (mem : Nat) : List Byte :=
  let p := c.pkt
  let firm := d.ra.resolves.any (fun e => decide (e.cmd = c.id) && e.firm)
  let dl := param64 p 2
  leBytes 4 p.tag.toNat ++ leBytes 2 p.ring.val ++ leBytes 1 (subSlot p) ++ leBytes 1 (subEntry p) ++ leBytes 2 mem ++
  leBytes 1 (b2n (decide (c.phase ≠ .waiting))) ++
  leBytes 1 (b2n (isSpec p && !firm) + 4 * b2n (decide (dl ≠ 0 ∧ dl ≤ now d)) + 8 * b2n (classPaused d c.cls)) ++
  leBytes 4 0 ++ leBytes 2 0 ++ leBytes 2 0 ++ leBytes 4 0 ++ leBytes 8 dl

/-- The header and the 120 run records of an opcode's commands, in their order of fetch; `rec` gives the record of a run, `mem` what
MEMBERS holds of a command that waits (R233, R256). -/
def runRecords (d : Dev) (opcode : Nat) (mem : Cmd → Nat) (rec : Run → List Byte) : List Byte :=
  let cs := d.cmd.cmds.filter (fun c => decide (c.pkt.opcode.toNat = opcode) && (runWaits d c || (runOfCmd d c.id).isSome))
  let out := cs.filter (fun c => runWaits d c || (runOfCmd d c.id).any (fun r => decide (r.phase ≠ .status)))
  leBytes 4 out.length ++ List.replicate 28 (0 : Byte) ++
  (List.range 120).flatMap fun i =>
    match cs[i]? with
    | none => unusedRun
    | some c => ((runOfCmd d c.id).map rec).getD (waitRecordBytes d c (mem c))

/-- READ_STATE 0x0500_0000 (R233). -/
def sheafState (d : Dev) : List Byte :=
  runRecords d 0x0501 (fun c => param c.pkt 1) (fun r =>
    match sheafOf d r.id with
    | none => unusedRun
    | some s => runRecordBytes d r s.c (((List.range s.c).filter (fun g => (memberAt s g).fail ≠ 0)).length) s.split)


end Sys2Proof.Machine
end

