-- ==== Sys2Proof/Machine/Estimate.lean ====
section
/-!
DEFINITION. Network state estimation: variables, rows, the estimate kernels, the start and status phases and group 0x06
(spec/10_least_squares.md R235–R257).
-/

namespace Sys2Proof.Machine

/-! ### Constants in binary64 (R237–R239) -/

def c980 : Nat := fOfInt f64 980
def cCp : Nat := fOfInt f64 4190
def cG : Nat := fOfRat f64 980665 100000
def cPi : Nat := 0x400921FB54442D18
/-- A decimal constant i / d. -/
def cdec (i : Int) (d : Nat) : Nat := fOfRat f64 i d

/-! ### Variables (R237) -/

/-- The kinds of an object's variables, in order. -/
def typeKinds : Nat → List Nat
  | 1 => [0, 1] | 2 => [2, 3] | 3 => [4] | 4 => [5] | 5 => [6, 7] | 6 => [8, 9] | 7 => [10, 11] | 8 => [12] | _ => []

/-- Objects of a model in variable order: the trunk, then block by block. -/
def varObjects (t : SMap NetObj) : List (Nat × NetObj) :=
  let live := t.filter (fun kv => decide (kv.2.type ≠ 0) && !isolated kv.2)
  let blocks := sortBy (fun a b => decide (a < b)) (blocksUsed t)
  live.filter (fun kv => objBlock t kv.2 = 0xFFFF) ++ blocks.flatMap (fun b => live.filter (fun kv => objBlock t kv.2 = b))

/-- Every variable: object index, place within the object, kind. -/
def varList (t : SMap NetObj) : List (Nat × Nat × Nat) :=
  (varObjects t).flatMap fun kv =>
    (List.range (typeKinds kv.2.type).length).map (fun k => (kv.1, k, (typeKinds kv.2.type).getD k 0))

/-- The variable number of place k of object i. -/
def varNo (t : SMap NetObj) (i k : Nat) : Option Nat :=
  (varList t).findIdx? (fun v => decide (v.1 = i ∧ v.2.1 = k))

/-- T, the trunk count. -/
def trunkVars (t : SMap NetObj) : Nat := blockVarsTo t 0xFFFF 16383

/-- The first variable of each block, with its count. -/
def blockRanges (t : SMap NetObj) : List (Nat × Nat) :=
  let bs := sortBy (fun a b => decide (a < b)) (blocksUsed t)
  (bs.foldl (fun (acc : List (Nat × Nat) × Nat) b =>
    let n := blockVarsTo t b 16383
    (acc.1 ++ [(acc.2, n)], acc.2 + n)) ([], trunkVars t)).1

/-! ### Values with derivatives (R241) -/

/-- A value and its derivatives by variable. -/
abbrev Dual := Nat × List (Nat × Nat)

/-- A constant. -/
def dc (v : Nat) : Dual := (v, [])

/-- Derivative lists combined: `fa` on those of the first, `fb` on those of the second, summed where both have one. -/
def derJoin (xs ys : List (Nat × Nat)) (fa fb : Nat → K Nat) : K (List (Nat × Nat)) := do
  let a ← xs.mapM (fun p => do
    let u ← fa p.2
    match ys.find? (fun q => q.1 = p.1) with
    | some q =>
      let v ← fb q.2
      let w ← kadd f64 u v
      return (p.1, w)
    | none => return (p.1, u))
  let b ← (ys.filter (fun q => !xs.any (fun p => p.1 = q.1))).mapM (fun q => do
    let v ← fb q.2
    return (q.1, v))
  return a ++ b

def dadd (x y : Dual) : K Dual := do
  let v ← kadd f64 x.1 y.1
  let e ← derJoin x.2 y.2 pure pure
  return (v, e)
def dsub (x y : Dual) : K Dual := do
  let v ← ksub f64 x.1 y.1
  let e ← derJoin x.2 y.2 pure (fun b => pure (kneg f64 b))
  return (v, e)
def dmul (x y : Dual) : K Dual := do
  let v ← kmul f64 x.1 y.1
  let e ← derJoin x.2 y.2 (fun a => kmul f64 a y.1) (fun b => kmul f64 x.1 b)
  return (v, e)
def ddiv (x y : Dual) : K Dual := do
  let v ← kdiv f64 x.1 y.1
  let e ← derJoin x.2 y.2 (fun a => kdiv f64 a y.1) (fun b => do
    let t ← kmul f64 v b
    let u ← kdiv f64 t y.1
    return kneg f64 u)
  return (v, e)
def dsqrt (x : Dual) : K Dual := do
  let v ← ksqrt f64 x.1
  let two := fOfInt f64 2
  let e ← x.2.mapM (fun p => do
    let t ← kmul f64 two v
    let u ← kdiv f64 p.2 t
    return (p.1, u))
  return (v, e)
/-- |x| by the branch selected. -/
def dabs (x : Dual) : Dual := if flt f64 x.1 0 then (kneg f64 x.1, x.2.map (fun p => (p.1, kneg f64 p.2))) else x
/-- max(x, c): at the floor the derivative is 0. -/
def dmaxc (x : Dual) (c : Nat) : Dual := if flt f64 c x.1 then x else dc c
/-- min(x, c). -/
def dminc (x : Dual) (c : Nat) : Dual := if flt f64 x.1 c then x else dc c
/-- A value of an elementary function of one operand: a subnormal is flushed, an infinity or a NaN that a finite operand gives sets
the flags of any operation (R170, R171, R249) (log 61). -/
def kfun (g : BitVec 64 → BitVec 64) (x : Nat) : K Nat := do
  let y ← kread f64 x
  let v := (g (u64 y)).toNat
  if fIsNan f64 v then
    modify (fun a => { a with inv := a.inv || !fIsNan f64 y, nanFin := a.nanFin || fIsFin f64 y })
    return f64.nan
  else if fIsSub f64 v then
    modify (fun a => { a with fr := a.fr + 1 })
    return fsign f64 (bitAt v 63) 0
  else
    modify (fun a => { a with ov := a.ov || (fIsFin f64 y && !fIsFin f64 v) })
    return v
/-- ln x (log 61). -/
def dln (x : Dual) : K Dual := do
  let v ← kfun Config.ln64 x.1
  let e ← x.2.mapM (fun p => do
    let u ← kdiv f64 p.2 x.1
    return (p.1, u))
  return (v, e)
/-- exp x (log 61). -/
def dexp (x : Dual) : K Dual := do
  let v ← kfun Config.exp64 x.1
  let e ← x.2.mapM (fun p => do
    let u ← kmul f64 v p.2
    return (p.1, u))
  return (v, e)

/-! ### Measurement and model functions (R238, R239) -/

/-- The point of evaluation: the model, and the value of each variable. -/
structure EPoint where
  objs : SMap NetObj
  x : Nat → Nat

/-- Variable k of object i. -/
def evar (p : EPoint) (i k : Nat) : Dual :=
  match varNo p.objs i k with
  | some v => (p.x v, [(v, fOfInt f64 1)])
  | none => dc 0

/-- Pressure, temperature and elevation of a node. -/
def nodeP (p : EPoint) (n : Nat) : Dual := evar p n 0
def nodeT (p : EPoint) (n : Nat) : Dual := evar p n 1
def nodeZ (p : EPoint) (n : Nat) : Nat := (objAt p.objs n).p.getD 0 0

/-- The flow of an object is its first variable. -/
def flowOf (p : EPoint) (i : Nat) : Dual := evar p i 0
/-- A parameter of an object. -/
def objP (p : EPoint) (i k : Nat) : Nat := (objAt p.objs i).p.getD k 0

/-- The upstream node of an object (R239). -/
def upstream (p : EPoint) (i : Nat) : Nat :=
  let o := objAt p.objs i
  let fwd := fle f64 0 (flowOf p i).1
  if o.type = 6 then (if fwd then o.link1 else o.link0) else (if fwd then o.link0 else o.link1)

/-- The delivered temperature of an object (R239). -/
def delivered (p : EPoint) (i : Nat) : Dual :=
  match (objAt p.objs i).type with
  | 3 => nodeT p (upstream p i)
  | 4 => nodeT p (upstream p i)
  | _ => evar p i 1

/-- Heat power c_p·ṁ·(a − b). -/
def heatOf (m a b : Dual) : K Dual := do
  let t ← dsub a b
  let u ← dmul (dc cCp) m
  dmul u t

/-- The valve position (R238). At zero flow the logarithm of an equal-percentage valve lies below every bound: the row is held at its
clip bound 0 and contributes no derivative (R241) (log 61). -/
def valveFn (p : EPoint) (i : Nat) : K Dual := do
  let o := objAt p.objs i
  let q ← ddiv (dabs (flowOf p i)) (dc c980)
  let a ← dmul (dc (fOfInt f64 3600)) q
  let dp ← dsub (nodeP p o.link0) (nodeP p o.link1)
  let r ← kmul f64 (fOfInt f64 100) c980
  let s ← ddiv (dc r) (dmaxc dp f64one)
  let t ← dsqrt s
  let k ← dmul a t
  let rel ← ddiv k (dc (o.p.getD 0 0))
  let h ← if fIsZero f64 (o.p.getD 2 0) then pure rel else if fIsZero f64 rel.1 then pure (dc 0) else do
    let l ← dln rel
    let b ← kfun Config.ln64 (o.p.getD 1 0)
    let u ← ddiv l (dc b)
    dadd (dc f64one) u
  return dminc (dmaxc h 0) f64one

/-- The pump speed (R238). A row on a PUMP with P0 ≤ 0 has weight 0 and no value: it is not evaluated (log 61). -/
def pumpFn (p : EPoint) (i : Nat) : K Dual := do
  let o := objAt p.objs i
  if fle f64 (o.p.getD 0 0) 0 then return dc 0
  let p0 := dc (o.p.getD 0 0)
  let p1 := dc (o.p.getD 1 0)
  let p2 := dc (o.p.getD 2 0)
  let q ← ddiv (flowOf p i) (dc c980)
  let dp ← dsub (nodeP p o.link1) (nodeP p o.link0)
  let rg ← kmul f64 c980 cG
  let hh ← ddiv dp (dc rg)
  let p11 ← dmul p1 p1
  let qq ← dmul q q
  let a ← dmul p11 qq
  let b1 ← dmul (dc (fOfInt f64 4)) p0
  let b2 ← dmul p2 qq
  let b3 ← dsub hh b2
  let b ← dmul b1 b3
  let s ← dadd a b
  let root ← if flt f64 0 s.1 then dsqrt s else pure (dc 0)   -- held at its floor: the root of 0, derivative 0 (R241)
  let n1 ← dmul (dc (kneg f64 p1.1)) q
  let n ← dadd n1 root
  let d2 ← dmul (dc (fOfInt f64 2)) p0
  ddiv n d2

/-- h of a quantity at an object. -/
def quantityFn (p : EPoint) (q i : Nat) : K Dual :=
  let o := objAt p.objs i
  match q with
  | 1 => pure (nodeP p i)
  | 2 => dsub (nodeP p o.link0) (nodeP p o.link1)
  | 3 => pure (evar p i 1)
  | 4 => pure (flowOf p i)
  | 5 => match o.type with
    | 5 => heatOf (flowOf p i) (nodeT p o.link0) (evar p i 1)
    | 6 => heatOf (flowOf p i) (evar p i 1) (nodeT p o.link1)
    | _ => heatOf (flowOf p i) (nodeT p o.link0) (evar p i 1)
  | 6 => valveFn p i
  | _ => pumpFn p i

/-- h of a measurement entry: through a SENSOR, with its bias added. -/
def measFn (p : EPoint) (m : MeasDesc) : K Dual := do
  let o := objAt p.objs m.object
  if o.type = 8 then do
    let h ← quantityFn p m.quantity o.link0
    dadd h (evar p m.object 0)
  else quantityFn p m.quantity m.object

/-- Objects of types 2–7 with a flow at a node, each with whether its flow enters there when positive; an object with both links at the
node is there twice (R239). -/
def flowsAt (objs : SMap NetObj) (n : Nat) : List (Nat × Bool) :=
  objs.flatMap fun kv =>
    let o := kv.2
    if decide (2 ≤ o.type ∧ o.type ≤ 7) && !isolated o then
      (if o.link1 = n then [(kv.1, decide (o.type ≠ 6))] else []) ++ (if o.link0 = n then [(kv.1, decide (o.type = 6))] else [])
    else []

/-- Mass balance of a node. -/
def balanceFn (p : EPoint) (n : Nat) : K Dual :=
  (flowsAt p.objs n).foldlM (fun acc f => if f.2 then dadd acc (flowOf p f.1) else dsub acc (flowOf p f.1)) (dc 0)

/-- Mixing at a node: the flows that enter it now, selected from those of all its flows (R172). -/
def mixingFn (p : EPoint) (n : Nat) : K Dual :=
  (flowsAt p.objs n).foldlM (fun acc f => do
    let m := flowOf p f.1
    let enters := if f.2 then flt f64 0 m.1 else flt f64 m.1 0
    let t ← dsub (delivered p f.1) (nodeT p n)
    let u ← dmul (dabs m) t
    let s ← dadd acc u
    return (if enters then s else acc)) (dc 0)

/-- The hydraulic row of a pipe. -/
def hydraulicFn (p : EPoint) (i : Nat) : K Dual := do
  let o := objAt p.objs i
  let d1 := o.p.getD 1 0
  let dp ← dsub (nodeP p o.link0) (nodeP p o.link1)
  let dz ← ksub f64 (nodeZ p o.link0) (nodeZ p o.link1)
  let rg ← kmul f64 c980 cG
  let st ← kmul f64 rg dz
  let a ← dadd dp (dc st)
  let lo ← kmul f64 (cdec 1 1000000) d1
  let rough := fmax2 f64 (o.p.getD 2 0) lo
  let den ← kmul f64 (cdec 37 10) d1
  let rel ← kdiv f64 rough den
  let lg ← kfun Config.log1064 rel
  let lg2 ← kmul f64 lg lg
  let fr ← kdiv f64 (cdec 1 4) lg2
  let e1 ← kmul f64 (fOfInt f64 8) fr
  let e2 ← kmul f64 e1 (o.p.getD 0 0)
  let m := flowOf p i
  let e3 ← dmul (dc e2) m
  let num ← dmul e3 (dabs m)
  let pi2 ← kmul f64 cPi cPi
  let q1 ← kmul f64 c980 pi2
  let d5 ← [d1, d1, d1, d1].foldlM (fun a b => kmul f64 a b) d1
  let q2 ← kmul f64 q1 d5
  let loss ← ddiv num (dc q2)
  dsub a loss

/-- The thermal row of a pipe. -/
def thermalFn (p : EPoint) (i : Nat) : K Dual := do
  let o := objAt p.objs i
  let g := dc (o.p.getD 4 0)
  let a ← dsub (evar p i 1) g
  let up ← dsub (nodeT p (upstream p i)) g
  let n ← kmul f64 (kneg f64 (o.p.getD 3 0)) (o.p.getD 0 0)
  let d ← dmul (dc cCp) (dmaxc (dabs (flowOf p i)) (cdec 1 1000000))
  let r ← ddiv (dc n) d
  let e ← dexp r
  let t ← dmul up e
  dsub a t

/-- Model rows in order: kind and object (R239). -/
def modelRows (objs : SMap NetObj) : List (Nat × Nat) :=
  objs.flatMap fun kv =>
    if isolated kv.2 then []
    else if kv.2.type = 1 then [(0, kv.1), (1, kv.1)]
    else if kv.2.type = 2 then [(2, kv.1), (3, kv.1)] else []

/-- h of a model row. -/
def modelFn (p : EPoint) (k i : Nat) : K Dual :=
  match k with
  | 0 => balanceFn p i
  | 1 => mixingFn p i
  | 2 => hydraulicFn p i
  | _ => thermalFn p i

/-- The variables that the delivered temperature of an object's flow into node n can name (R239). -/
def deliveredVars (objs : SMap NetObj) (n i : Nat) : List (Nat × Nat) :=
  let o := objAt objs i
  if o.type = 3 ∨ o.type = 4 then [(if o.link0 = n then o.link1 else o.link0, 1)] else [(i, 1)]

/-- The variables of a model row, each as object and place. -/
def modelRowVars (objs : SMap NetObj) (r : Nat × Nat) : List (Nat × Nat) :=
  let o := objAt objs r.2
  match r.1 with
  | 0 => (flowsAt objs r.2).map (fun f => (f.1, 0))
  | 1 => (r.2, 1) :: (flowsAt objs r.2).flatMap (fun f => (f.1, 0) :: deliveredVars objs r.2 f.1)
  | 2 => [(o.link0, 0), (o.link1, 0), (r.2, 0)]
  | _ => [(r.2, 1), (o.link0, 1), (r.2, 0)]

/-- The variables of a measurement row. -/
def measRowVars (objs : SMap NetObj) (m : MeasDesc) : List (Nat × Nat) :=
  let so := objAt objs m.object
  let i := if so.type = 8 then so.link0 else m.object
  let o := objAt objs i
  (if so.type = 8 then [(m.object, 0)] else []) ++
  match m.quantity with
  | 2 => [(o.link0, 0), (o.link1, 0)]
  | 3 => [(i, 1)]
  | 5 => [(i, 0), (if o.type = 6 then o.link1 else o.link0, 1), (i, 1)]
  | 6 => [(i, 0), (o.link0, 0), (o.link1, 0)]
  | 7 => [(i, 0), (o.link0, 0), (o.link1, 0)]
  | _ => [(i, 0)]

/-- The largest count of variables in a row of the rowset (JTWJ's k, R246). -/
def rowWidth (m : ModelCopy) (rowset : Nat) : Nat :=
  ((if rowset = 0 then (m.meas.filter (fun kv => kv.2.quantity ≠ 0)).map (fun kv => measRowVars m.objs kv.2)
    else (modelRows m.objs).map (modelRowVars m.objs)).map (fun l => l.dedup.length)).foldl max 0

/-! ### The LSQ buffer (R242, R255) -/

/-- Header faults but ranges of values, as the header offset. -/
def lsqHeaderFault (b : List Byte) : Option Nat :=
  firstBad [ (decide (fieldLE b 0 4 ≠ 0x4C565349), 0), (decide (fieldLE b 4 2 ≠ 1), 4), (decide (7 < fieldLE b 6 2), 6),
    (!zeroAt b 0x5A 2, 0x5A), (!bitAt (fieldLE b 6 2) 0 && !zeroAt b 0x5C 4, 0x5C), (!zeroAt b 0x70 16, 0x70) ]

/-- Faults of the warm-start block (R255). -/
def lsqWarmFault (b : List Byte) (bufLen v : Nat) : Bool :=
  let fl := fieldLE b 6 2
  let w := fieldLE b 0x5C 4
  (bitAt fl 0 && bitAt fl 1) || (bitAt fl 0 && decide (w % 64 ≠ 0 ∨ bufLen < w + 64 + 8 * v))

/-- A finite binary64 at an offset, at or above a bound. -/
def f64At (b : List Byte) (o : Nat) : Nat := fieldLE b o 8

/-- Values out of the ranges of R242, as the header offset. -/
def lsqValueFault (b : List Byte) (model : Bool) : Option Nat :=
  let fin (o : Nat) : Bool := fIsFin f64 (f64At b o)
  let ge0 (o : Nat) : Bool := fin o && fle f64 0 (f64At b o)
  firstBad ([ (!rhoOk (f64At b 8), 8), (!ge0 0x10, 0x10), (!ge0 0x18, 0x18), (!(fin 0x20 && flt f64 0 (f64At b 0x20)), 0x20),
      (!fle f64 f64one (f64At b 0x28), 0x28), (!(flt f64 0 (f64At b 0x30) && fle f64 (f64At b 0x30) f64one), 0x30),
      (!flt f64 0 (f64At b 0x38), 0x38), (!(fin 0x40 && fle f64 (f64At b 0x38) (f64At b 0x40)), 0x40),
      (!ge0 0x48, 0x48), (!ge0 0x50, 0x50) ] ++
    (List.range 4).map (fun k => (model && !(fIsFin f32 (fieldLE b (0x60 + 4 * k) 4) && flt f32 0 (fieldLE b (0x60 + 4 * k) 4)), 0x60 + 4 * k)) ++
    (List.range 13).flatMap (fun k =>
      let o := 0x80 + 32 * k
      [ (decide (k ≠ 12) && !fin o, o), (decide (k ≠ 12) && !ge0 (o + 8), o + 8), (!fin (o + 16), o + 16),
        (!fin (o + 24) || !fle f64 (f64At b (o + 16)) (f64At b (o + 24)), o + 24) ]))

/-- The rowset of a JTWJ record: that of the JAC_EVAL that last wrote its Jacobian tile. -/
def jtwjRowset (xs : List KRec) (i : Nat) : Nat :=
  let t := opnd (xs.getD i default) 0
  match ((xs.take i).filter (fun y => decide (y.kernel = 0x1A) && decide (opnd y 2 = t))).getLast? with
  | some y => y.arg % 2
  | none => 0

/-- Tiles of an entry that hold a vector of the V variables: points, iterates and steps (R246). -/
def varTiles (xs : List KRec) : List Nat :=
  xs.flatMap fun x =>
    match x.kernel with
    | 0x02 => (usedOpnds x).map (opnd x) | 0x07 => [opnd x 0] | 0x08 => [opnd x 0, opnd x 1] | 0x1A => [opnd x 1] | 0x1D => [opnd x 1]
    | 0x1E => if bitAt x.arg 0 then [opnd x 0, opnd x 1] else [] | 0x1F => [opnd x 0] | _ => []

/-- The first record whose shape does not match the model, as its index (R255). -/
def lsqShapeFault (m : ModelCopy) (pl : Plan) (e : PEntry) : Option Nat :=
  let xs := (entryRecs pl e).map (·.2)
  let v := (varList m.objs).length
  let t := trunkVars m.objs
  let used := (m.meas.filter (fun kv => kv.2.quantity ≠ 0)).length
  let rows (rs : Nat) : Nat := if rs = 0 then used else (modelRows m.objs).length
  let br := blockRanges m.objs
  ((List.range xs.length).find? (fun i =>
    let x := xs.getD i default
    match x.kernel with
    | 0x06 => decide (x.batch ≠ used)
    | 0x1A => decide (x.batch ≠ rows (x.arg % 2))
    | 0x1B => decide (x.batch ≠ rows (jtwjRowset xs i) ∨ x.k < rowWidth m (jtwjRowset xs i))
    | 0x1C => decide (x.m < (br.map (·.2)).foldl max 0 ∨ x.batch < br.length)
    | 0x1D => decide (x.m < (br.map (·.2)).foldl max 0 ∨ x.batch < br.length)
    | 0x18 => decide (x.n ≠ t)
    | 0x19 => decide (x.n ≠ t)
    | 0x08 => decide (x.n * x.batch ≠ v)
    | 0x07 => decide (x.m * x.n * x.batch ≠ v)
    | 0x1F => decide (x.n * x.batch ≠ v)
    | 0x04 => ((varTiles xs).contains (opnd x 0) || (varTiles xs).contains (opnd x 1)) && decide (x.m * x.n * x.batch ≠ v)
    | 0x1E =>
      if bitAt x.arg 0 then decide (x.n * x.batch ≠ v)
      else !(decide (x.batch = 1 ∧ x.n = t) || (decide (br.length ≠ 0 ∧ br.length ≤ x.batch) && decide ((br.map (·.2)).foldl max 0 ≤ x.n)))
    | 0x02 => decide (x.n ≠ v) || bitAt x.arg 1
    | _ => false)).map (fun i => e.first + i)

/-- The refusals of LSQ_SUBMIT in order (R255). -/
def lsqRefusal (p : Pkt) (d : Dev) : Option Res :=
  match planIn d (subSlot p) with
  | none => some (badParam 0x40)
  | some pl =>
    let e := entryAt pl (subEntry p)
    if pl.entries.length ≤ subEntry p ∨ e.opgroup ≠ 6 then some (badParam 0x41)
    else match specFault p d pl e with
    | some x => some x
    | none =>
      if pktClass p d ≠ e.cls then some (badParam 0x42) else
      let b := rdBytes d (bufA p) (bufL p)
      match lsqHeaderFault b with
      | some o => some (bad1 0x43 o)
      | none =>
        if lsqWarmFault b (bufL p) (varList d.mdl.com.objs).length then some (badParam 0x44)
        else
          let model := (entryRecs pl e).any (fun ix => decide (ix.2.kernel = 0x1A) && bitAt ix.2.arg 0)
          match lsqValueFault b model with
          | some o => some (bad1 0x45 o)
          | none => match lsqShapeFault d.mdl.com pl e with
            | some i => some (bad1 0x46 i)
            | none => slotRefusals d (subSlot p)

def specLsqSubmit : OpSpec :=
  { opBase 0x0601 0xA8 with
    launch := fun _ => true
    spec := true
    bufUse := .read
    bufOk := fun p _ => decide (544 ≤ bufL p)
    params := fun p _ => subParams p [(decide (param p 1 ≠ 0), 0x24)]
    object := specObject
    resources := lsqRefusal }

/-- The estimate half of a new run, from the buffer's header. -/
def newLsq (run : Nat) (p : Pkt) (d : Dev) : LsqRun :=
  let b := rdBytes d (bufA p) (bufL p)
  { run := run, buf := bufA p, bufLen := bufL p, lflags := fieldLE b 6 2, rho := rhoOf (f64At b 8), tolAbs := f64At b 0x10,
    tolRel := f64At b 0x18, lambda := f64At b 0x20, lambdaUp := f64At b 0x28, lambdaDown := f64At b 0x30,
    lambdaMin := f64At b 0x38, lambdaMax := f64At b 0x40, dampFloor := f64At b 0x48, outlierK := f64At b 0x50,
    outlierFrom := fieldLE b 0x58 2, warmOfs := fieldLE b 0x5C 4,
    sigmaModel := (List.range 4).map (fun k => fieldLE b (0x60 + 4 * k) 4),
    kinds := (List.range 13).map (fun k =>
      let o := 0x80 + 32 * k
      ⟨f64At b o, f64At b (o + 8), f64At b (o + 16), f64At b (o + 24)⟩),
    started := false, jcur := 0, jtrial := 0, rejected := false, rejects := 0, outliers := [], factorPass := none, reg := 0,
    negatives := 0, cost := 0, marks := [], clamped := [], failed := false, cold := false, rows := [], jac := [],
    jacModel := [], mat := [], grad := [], resid := [], measTime := 0 }

/-- LSQ_SUBMIT: the run is due (R235). -/
def submitLsq (age : Nat) (re : Bool) (id : Nat) (p : Pkt) (d : Dev) : Dev :=
  addRun { newRun .lsq id p age d with resolve := re } { d with lsq.runs := d.lsq.runs ++ [newLsq age p d] }

/-- The effect of LSQ_SUBMIT. -/
def effLsqSubmit (id : Nat) (p : Pkt) (d : Dev) : Dev := submitLsq d.pln.nextRun false id p d

def specLsqCancel : OpSpec := { opBase 0x0602 0xE8 with params := tagParams, object := noSuchRun 0x0601 0xE8 }
/-- LSQ_CANCEL. -/
def effLsqCancel : Nat → Pkt → Dev → Dev := cancelRun 0x0601 0xE8
def specLsqQuery : OpSpec := { opBase 0x0603 0xF8 with params := tagParams, object := noSuchRun 0x0601 0xF8 }
/-- LSQ_QUERY. -/
def effLsqQuery : Nat → Pkt → Dev → Dev := queryRun 0x0601 0xF8

/-! ### Start phase (R245) -/

/-- Key of the x0 vector of a run: state operand 1, or tentative operand 2 (R264). -/
def x0Key (r : Run) : Nat := if r.spec.isSome then opBuf (r.tslot + 1) + 0x1400000 else 0x31400000
/-- Key of the staging vector. -/
def stageKey (r : Run) : Nat := if r.spec.isSome then opBuf (r.tslot + 1) + 0x1000000 else 0x31000000

/-- Eight bytes by memory key. -/
def rdKey8 (d : Dev) (k : Nat) : Nat := leNat ((List.range 8).map (fun b => rdB d (k + b)))
/-- Bytes stored by memory key. -/
def wrKeys : Nat → List Byte → Dev → Dev
  | _, [], d => d
  | k, b :: bs, d => wrKeys (k + 1) bs (wrB d k b)
/-- Eight bytes stored by memory key. -/
def wrKey8 (k v : Nat) (d : Dev) : Dev := wrKeys k (leBytes 8 v) d

/-- The nominal value of a variable: of its kind, or P0 of its SENSOR. -/
def nominalOf (q : LsqRun) (objs : SMap NetObj) (v : Nat × Nat × Nat) : Nat :=
  if v.2.2 = 12 then (objAt objs v.1).p.getD 0 0 else (q.kinds.getD v.2.2 default).nominal

/-- The warm-start candidate of a run, when it asks for one: SIG, VARS and values (R245). -/
def warmCandidate (d : Dev) (q : LsqRun) (v : Nat) : Option (Nat × Nat × List Nat) :=
  if bitAt q.lflags 0 then
    some (rdLE d (q.buf + q.warmOfs) 8, rdLE d (q.buf + q.warmOfs + 8) 4,
      (List.range v).map (fun i => rdLE d (q.buf + q.warmOfs + 64 + 8 * i) 8))
  else if bitAt q.lflags 1 then
    some (rdKey8 d 0x30000000, rdKey8 d 0x30000008 % 2 ^ 32, (List.range v).map (fun i => rdKey8 d (0x30000040 + 8 * i)))
  else none

/-- The time of the capture that wrote the set a run reads (R243). -/
def pinnedTime (d : Dev) (r : Run) : Nat :=
  if r.spec.isSome then d.mdl.captureTime else smGet 0 d.mdl.setTimes (pinnedSet d r.id)

/-- The start phase of an estimate run: candidate, x0, MEAS_TIME (R245) (log 145). -/
def lsqStart (r : Run) (d : Dev) : Dev :=
  match lsqOf d r.id with
  | none => d
  | some q =>
    let m := modelOf d r.gen
    let vs := varList m.objs
    let v := vs.length
    let cand := warmCandidate d q v
    let good := match cand with
      | some c => decide (c.1 = m.sig ∧ c.2.1 = v) && c.2.2.all (fIsFin f64)
      | none => false
    let x0 := if good then (match cand with | some c => c.2.2 | none => []) else vs.map (nominalOf q m.objs)
    let d1 := wrKeys (x0Key r) (x0.flatMap (leBytes 8)) d
    let cold := cand.isSome && !good
    let d2 := setLsq { q with started := true, cold := cold, measTime := pinnedTime d r } d1
    let d3 := bump 6 8 (b2n cand.isSome) (bump 6 9 (b2n cold) d2)
    charge r.cls .beats (beatsOf (8 * v)) d3

/-- FABRIC_RUN_START: a due run starts once its entry's homes and clusters are free (R196, R236). -/
def fabricRunStart (id : Nat) (d : Dev) : Dev :=
  match findRun d id with
  | some r =>
    if !canStart d r then d
    else if unplacedSlot d r.slot then unplacedRun r d
    else
      let d1 := startRun r d
      match findRun d1 id with
      | some r1 => if r1.kind = .lsq then lsqStart r1 d1 else d1
      | none => d1
  | none => d

/-! ### Estimate kernels (R246–R250) -/

/-- A computation of an estimate run: its lane flags counted on a cluster of the window, a fault failing the run. -/
def lsqDo (r : Run) (x : KRec) (f : LsqRun → K LsqRun) (d : Dev) : Dev :=
  match lsqOf d r.id with
  | none => d
  | some q =>
    let o := (f q).run Alu.zero
    let bad := o.2.ov || o.2.dz || o.2.nanFin
    aluElem r x 0 o.2 (setLsq { o.1 with failed := o.1.failed || bad } d)

/-- 1 / σ². -/
def weightOf (sigma : Nat) : K Nat := do
  let s2 ← kmul f64 sigma sigma
  kdiv f64 f64one s2

/-- z and w of the used measurement entries (R124, R238); a weight of 0 is selected (R172). -/
def gatherRows (d : Dev) (r : Run) : K (List ERow) :=
  let m := modelOf d r.gen
  (m.meas.filter (fun kv => kv.2.quantity ≠ 0)).mapM fun kv => do
    let v := runVal d r kv.1
    let o := objAt m.objs kv.2.object
    let obs := observed m.objs kv.2.object
    let dead := !bitAt v.mstat 0 || bitAt v.mstat 1 || isolated o || isolated obs ||
      (decide (kv.2.quantity = 7) && fle f64 (obs.p.getD 0 0) 0)
    let s ← kconv f32 f64 kv.2.sigma
    let w ← weightOf s
    return { idx := kv.1, kind := kv.2.quantity, z := v.value, w := if dead then 0 else w, r := 0, der := [] }

/-- GATHER_MEAS. -/
def gatherBody (r : Run) (x : KRec) (d : Dev) : Dev :=
  lsqDo r x (fun q => do
    let rows ← gatherRows d r
    return { q with rows := rows, outliers := [] }) d

/-- Element v of a vector tile in binary64. -/
def vecElem (d : Dev) (r : Run) (t v : Nat) : K Nat :=
  let tl := tileAt r.plan t
  kconv (tileFmt tl) f64 (rdElem d r t (elemSize tl.prec * v))

/-- The values of the variables held in a tile, the point of an evaluation. -/
def pointOf (d : Dev) (r : Run) (t : Nat) : K EPoint := do
  let m := modelOf d r.gen
  let xs ← (List.range (varList m.objs).length).mapM (vecElem d r t)
  return { objs := m.objs, x := fun v => xs.getD v 0 }

/-- The outlier test of a measurement row (R250); its comparison is formed for rows of weight 0 too (R172). -/
def outlierRow (r : Run) (q : LsqRun) (trial : Bool) (row : ERow) (res : Nat) : K Bool := do
  if trial || decide (r.passes + 1 < q.outlierFrom) || !flt f64 0 q.outlierK then return false
  else
    let s ← ksqrt f64 row.w
    let t ← kmul f64 (fabs f64 res) s
    return flt f64 0 row.w && flt f64 q.outlierK t

/-- The prior rows: variable, z and w, with x0 as given (R240). -/
def priorRows (d : Dev) (r : Run) (q : LsqRun) (x0 : Nat → K Nat) : K (List (Nat × Nat × Nat)) :=
  let m := modelOf d r.gen
  let vs := varList m.objs
  ((List.range vs.length).filter (fun i =>
      let v := vs.getD i default
      v.2.2 = 12 || flt f64 0 (q.kinds.getD v.2.2 default).sigmaPrior)).mapM fun i => do
    let v := vs.getD i default
    if v.2.2 = 12 then do
      let w ← weightOf ((objAt m.objs v.1).p.getD 1 0)
      return (i, (objAt m.objs v.1).p.getD 0 0, w)
    else do
      let w ← weightOf (q.kinds.getD v.2.2 default).sigmaPrior
      let z ← x0 i
      return (i, z, w)

/-- One row evaluated: r and derivatives, after the outlier test. -/
def evalRow (r : Run) (q : LsqRun) (trial meas : Bool) (row : ERow) (h : K Dual) : K (ERow × Bool) := do
  let v ← h
  let res ← ksub f64 row.z v.1
  let o ← if meas then outlierRow r q trial row res else pure false
  return ({ row with r := res, der := v.2, w := if o then 0 else row.w }, o)

/-- JAC_EVAL of a rowset (R246, R250). -/
def jacBody (r : Run) (x : KRec) (d : Dev) : Dev :=
  lsqDo r x (fun q => do
    let model := bitAt x.arg 0
    let trial := bitAt x.arg 1
    let p ← pointOf d r (opnd x 1)
    let m := modelOf d r.gen
    let base ← if model then
        (modelRows m.objs).mapM (fun k => do
          let s ← kconv f32 f64 (q.sigmaModel.getD k.1 0)
          let w ← weightOf s
          return ({ idx := k.2, kind := k.1, z := 0, w := w, r := 0, der := [] } : ERow))
      else pure q.rows
    let evs ← base.mapM (fun row =>
      evalRow r q trial (!model) row (if model then modelFn p row.kind row.idx else measFn p (measAt m.meas row.idx)))
    let rows := evs.map (·.1)
    let out := (evs.filter (·.2)).map (fun v => v.1.idx)
    let j0 := if bitAt x.arg 3 then 0 else if trial then q.jtrial else q.jcur
    let terms ← rows.mapM (fun row => do
      let t ← kmul f64 row.w row.r
      return (t, row.r))
    let pr ← if bitAt x.arg 2 then priorRows d r q (fun i => pure (rdKey8 d (x0Key r + 8 * i))) else pure []
    let pts ← pr.mapM (fun v => do
      let e ← ksub f64 v.2.1 (p.x v.1)
      let t ← kmul f64 v.2.2 e
      return (t, e))
    let j ← kred 0x1A x.width f64 j0 (terms ++ pts)
    let q1 := if trial then { q with jtrial := j } else { q with jcur := j, cost := j }
    if trial then return q1
    else if model then
      let q2 : LsqRun := { q1 with jacModel := rows }
      return q2
    else
      let resid : SMap Nat := rows.foldl (fun (acc : SMap Nat) (row : ERow) => smSet 0 acc row.idx row.r) q1.resid
      let bare : List ERow := rows.map (fun row => { row with der := [] })
      let q2 : LsqRun := { q1 with jac := rows, rows := bare, outliers := q1.outliers ++ out, resid := resid }
      return q2) d

/-- The key of element (i, j) of the normal matrix, lower triangle. -/
def matKey (i j : Nat) : Nat := if j ≤ i then 2 ^ 17 * i + j else 2 ^ 17 * j + i

/-- A product added to an element of the normal matrix, in the record's format; the typed contents are kept in binary64. -/
def addMat (x : KRec) (a b : Nat) (i j : Nat) (m : SMap Nat) : K (SMap Nat) := do
  let f := fmtOf x.prec
  let e ← kconv f64 f (smGet 0 m (matKey i j))
  let v ← kred x.kernel x.width f e [(a, b)]
  return smSet 0 m (matKey i j) (fconv f f64 v)
/-- A product added to an element of the gradient. -/
def addGrad (x : KRec) (a b : Nat) (i : Nat) (g : SMap Nat) : K (SMap Nat) := do
  let f := fmtOf x.prec
  let e ← kconv f64 f (smGet 0 g i)
  let v ← kred x.kernel x.width f e [(a, b)]
  return smSet 0 g i (fconv f f64 v)

/-- One row enters the normal system (R246). -/
def addRow (x : KRec) (q : LsqRun) (row : ERow) : K LsqRun := do
  let f := fmtOf x.prec
  let w ← kconv f64 f row.w
  let res ← kconv f64 f row.r
  let der ← row.der.mapM (fun u => do
    let v ← kconv f64 f u.2
    return (u.1, v))
  der.foldlM (fun q u => do
    let wd ← kmul f w u.2
    let g ← addGrad x wd res u.1 q.grad
    let m ← der.foldlM (fun m v => if v.1 ≤ u.1 then addMat x wd v.2 u.1 v.1 m else pure m) q.mat
    return { q with grad := g, mat := m }) q

/-- JTWJ (R246) (log 60). -/
def jtwjBody (r : Run) (x : KRec) (d : Dev) : Dev :=
  lsqDo r x (fun q => do
    let f := fmtOf x.prec
    let q0 := if bitAt x.arg 3 then { q with mat := [], grad := [] } else q
    let xs := (entryRecs r.plan (runEntry r)).map (·.2)
    let rs := jtwjRowset xs (r.idx - (runEntry r).first)
    let q1 ← (if rs = 0 then q0.jac else q0.jacModel).foldlM (addRow x) q0
    if bitAt x.arg 2 then do
      let p ← pointOf d r (opnd x 3)
      let pr ← priorRows d r q (vecElem d r (opnd x 2))
      pr.foldlM (fun q v => do
        let z ← kconv f64 f v.2.1
        let xv ← kconv f64 f (p.x v.1)
        let w ← kconv f64 f v.2.2
        let e ← ksub f z xv
        let g ← addGrad x w e v.1 q.grad
        let m ← addMat x w (fconv f64 f f64one) v.1 v.1 q.mat
        return { q with grad := g, mat := m }) q1
    else return q1) d

/-- LM_DAMP DAMP on the trunk (B = 1, n = T) or on the blocks (R246). -/
def dampBody (r : Run) (x : KRec) (d : Dev) : Dev :=
  lsqDo r x (fun q => do
    let objs := (modelOf d r.gen).objs
    let t := trunkVars objs
    let v := (varList objs).length
    let is := if x.batch = 1 ∧ x.n = t then List.range t else (List.range v).drop t
    is.foldlM (fun q i => do
      let e := smGet 0 q.mat (matKey i i)
      let a ← kmul f64 q.lambda (fmax2 f64 e q.dampFloor)
      let b ← kadd f64 e a
      return { q with mat := smSet 0 q.mat (matKey i i) b }) q) d

/-- LM_DAMP DECIDE (R247); both values of λ are formed and one is selected (R172). -/
def decideBody (r : Run) (x : KRec) (d : Dev) : Dev :=
  match lsqOf d r.id with
  | none => d
  | some q =>
    let better := flt f64 q.jtrial q.jcur
    let d1 := lsqDo r x (fun q => do
      let down ← kmul f64 q.lambda q.lambdaDown
      let up ← kmul f64 q.lambda q.lambdaUp
      return (if better then { q with jcur := q.jtrial, lambda := fmax2 f64 down q.lambdaMin, rejected := false }
        else { q with lambda := if flt f64 q.lambdaMax up then q.lambdaMax else up, rejected := true, rejects := q.rejects + 1 })) d
    if better then copyTile r (opnd x 0) (opnd x 1) d1 else bump 6 11 1 d1

/-- The counts of R248 restart with the first factor record of a pass. -/
def freshFactor (r : Run) (q : LsqRun) : LsqRun :=
  if q.factorPass = some r.passes then q
  else { q with factorPass := some r.passes, reg := 0, negatives := 0, marks := [] }

/-- The pivot rule of R248 at variable v, on patterns of the record's format. -/
def lsqPivot (f : FFmt) (tau p v : Nat) (q : LsqRun) : Nat × LsqRun :=
  if flt f p tau then
    let neg := fle f p (kneg f tau)
    (tau, { q with reg := q.reg + 1, marks := q.marks ++ [v], negatives := q.negatives + b2n neg })
  else (p, q)

/-- Element (i, j) of the normal matrix in the record's format. -/
def matElem (f : FFmt) (q : LsqRun) (i j : Nat) : K Nat := kconv f64 f (smGet 0 q.mat (matKey i j))

/-- Cholesky of the variables `vs` within the normal matrix, under R248, in the record's format. -/
def lsqFactor (x : KRec) (rho : Nat) (vs : List Nat) (q0 : LsqRun) : K LsqRun := do
  let f := fmtOf x.prec
  let diag ← vs.mapM (fun v => matElem f q0 v v)
  let tau := tauOf f rho (diag.map (fun e => if flt f e 0 then 0 else e))
  let mut q := q0
  for k in List.range vs.length do
    let q1 := q
    let at' (i s : Nat) : Nat := fconv f64 f (smGet 0 q1.mat (matKey (vs.getD i 0) (vs.getD s 0)))
    let akk ← matElem f q1 (vs.getD k 0) (vs.getD k 0)
    let p ← kred x.kernel x.width f akk (negPairs f k (at' k) (at' k))
    let pq := lsqPivot f tau p (vs.getD k 0) q1
    let l ← ksqrt f pq.1
    q := { pq.2 with mat := smSet 0 pq.2.mat (matKey (vs.getD k 0) (vs.getD k 0)) (fconv f f64 l) }
    for i in (List.range vs.length).drop (k + 1) do
      let aik ← matElem f q1 (vs.getD i 0) (vs.getD k 0)
      let v ← kred x.kernel x.width f aik (negPairs f k (at' i) (at' k))
      let y ← kdiv f v l
      q := { q with mat := smSet 0 q.mat (matKey (vs.getD i 0) (vs.getD k 0)) (fconv f f64 y) }
  return q

/-- Forward substitution with the factor of the variables `vs`, on patterns of the record's format. -/
def lsqForward (x : KRec) (q : LsqRun) (vs : List Nat) (b : List Nat) : K (List Nat) := do
  let f := fmtOf x.prec
  let mut y : List Nat := []
  for i in List.range vs.length do
    let ys := y
    let at' (s : Nat) : Nat := fconv f64 f (smGet 0 q.mat (matKey (vs.getD i 0) (vs.getD s 0)))
    let v ← kred x.kernel x.width f (b.getD i 0) (negPairs f i at' (fun s => ys.getD s 0))
    let z ← kdiv f v (at' i)
    y := y ++ [z]
  return y

/-- Back substitution with its transpose. -/
def lsqBackward (x : KRec) (q : LsqRun) (vs : List Nat) (b : List Nat) : K (List Nat) :=
  upperSolve x.kernel x.width (fmtOf x.prec) vs.length false
    (fun i s => fconv f64 (fmtOf x.prec) (smGet 0 q.mat (matKey (vs.getD s 0) (vs.getD i 0)))) b

/-- Trunk variables coupled to a block: those with an element in one of its rows. -/
def coupled (q : LsqRun) (t : Nat) (vs : List Nat) : List Nat :=
  (List.range t).filter (fun j => vs.any (fun v => decide (smGet 0 q.mat (matKey v j) ≠ 0)))

/-- BLOCK_ELIM: each block factored, its Schur complement formed into the trunk, its gradient reduced (R246) (log 60). -/
def elimBody (r : Run) (x : KRec) (d : Dev) : Dev :=
  lsqDo r x (fun q0 => do
    let f := fmtOf x.prec
    let objs := (modelOf d r.gen).objs
    let t := trunkVars objs
    (blockRanges objs).foldlM (fun q br => do
      let vs := (List.range br.2).map (fun i => br.1 + i)
      let js := coupled q t vs
      let q1 ← lsqFactor x q.rho vs q
      let cols ← js.mapM (fun j => do
        let c ← vs.mapM (fun v => matElem f q1 v j)
        lsqForward x q1 vs c)
      let gs ← vs.mapM (fun v => kconv f64 f (smGet 0 q1.grad v))
      let y ← lsqForward x q1 vs gs
      let pairs (a b : List Nat) : List (Nat × Nat) := (List.range vs.length).map (fun s => (kneg f (a.getD s 0), b.getD s 0))
      (List.range js.length).foldlM (fun q a => do
        let ca := cols.getD a []
        let g0 ← kconv f64 f (smGet 0 q.grad (js.getD a 0))
        let g ← kred x.kernel x.width f g0 (pairs ca y)
        let m ← (List.range (a + 1)).foldlM (fun m b => do
          let k := matKey (js.getD a 0) (js.getD b 0)
          let e ← kconv f64 f (smGet 0 m k)
          let v ← kred x.kernel x.width f e (pairs ca (cols.getD b []))
          return smSet 0 m k (fconv f f64 v)) q.mat
        return { q with grad := smSet 0 q.grad (js.getD a 0) (fconv f f64 g), mat := m }) q1) (freshFactor r q0)) d

/-- POTRF of the reduced trunk matrix (R248) (log 60). -/
def trunkBody (r : Run) (x : KRec) (d : Dev) : Dev :=
  lsqDo r x (fun q => lsqFactor x q.rho (List.range (trunkVars (modelOf d r.gen).objs)) (freshFactor r q)) d

/-- The entry itself writes a right-hand side into the tile; else the right-hand side of the trunk is the reduced gradient of the normal
system (log 60). -/
def rhsGiven (r : Run) (t : Nat) : Bool :=
  (entryRecs r.plan (runEntry r)).any (fun ix => decide (ix.2.kernel ≠ 0x19 ∧ ix.2.kernel ≠ 0x1D) && (outOpnds ix.2).contains t)

/-- The trunk step (R246): the right-hand side solved by the trunk factor. -/
def trunkStep (r : Run) (x : KRec) (d : Dev) : K (List Nat) :=
  match lsqOf d r.id with
  | none => pure []
  | some q => do
    let f := fmtOf x.prec
    let vs := List.range (trunkVars (modelOf d r.gen).objs)
    let b ← vs.mapM (fun v => do
      let e ← if rhsGiven r (opnd x 1) then vecElem d r (opnd x 1) v else pure (smGet 0 q.grad v)
      kconv f64 f e)
    let y ← lsqForward x q vs b
    lsqBackward x q vs y

/-- Patterns of the record's format stored at variables of a vector tile, converted to its format. -/
def putVars (r : Run) (x : KRec) (t : Nat) (vs : List Nat) (o : K (List Nat)) (d : Dev) : Dev :=
  let tl := tileAt r.plan t
  let o := (o >>= fun xs => xs.mapM (kconv (fmtOf x.prec) (tileFmt tl))).run Alu.zero
  (List.range vs.length).foldl (fun d i => wrElem r t (elemSize tl.prec * vs.getD i 0) (o.1.getD i 0) d)
    (flagMember r 0 o.2 false (aluElem r x (vs.headD 0) o.2 d))

/-- TRS: the trunk step into OPND_1. -/
def trsBody (r : Run) (x : KRec) (d : Dev) : Dev :=
  putVars r x (opnd x 1) (List.range (trunkVars (modelOf d r.gen).objs)) (trunkStep r x d) d

/-- The step of one block from the trunk step (R246). -/
def blockStep (r : Run) (x : KRec) (d : Dev) (q : LsqRun) (t : Nat) (vs : List Nat) : K (List Nat) := do
  let f := fmtOf x.prec
  let js := coupled q t vs
  let step ← js.mapM (fun j => do
    let e ← vecElem d r (opnd x 1) j
    kconv f64 f e)
  let rhs ← vs.mapM (fun v => do
    let g ← kconv f64 f (smGet 0 q.grad v)
    let ps ← (js.zip step).mapM (fun jt => do
      let e ← matElem f q v jt.1
      return (kneg f e, jt.2))
    kred x.kernel x.width f g ps)
  let y ← lsqForward x q vs rhs
  lsqBackward x q vs y

/-- BLOCK_BACK. -/
def backBody (r : Run) (x : KRec) (d : Dev) : Dev :=
  match lsqOf d r.id with
  | none => d
  | some q =>
    let objs := (modelOf d r.gen).objs
    (blockRanges objs).foldl (fun d br =>
      let vs := (List.range br.2).map (fun i => br.1 + i)
      putVars r x (opnd x 1) vs (blockStep r x d q (trunkVars objs) vs) d) d

/-- A variable clipped to the bounds of its kind, and whether it was (R246). -/
def clipVar (tl : Tile) (kp : KindPar) (v : Nat) : K (Nat × Bool) := do
  let a ← kconv (tileFmt tl) f64 v
  let y ← kread f64 a
  let lo ← kread f64 kp.low
  let hi ← kread f64 kp.high
  let out := if flt f64 y lo then lo else if flt f64 hi y then hi else y
  let z ← kconv f64 (tileFmt tl) out
  return (z, flt f64 y lo || flt f64 hi y)

/-- BOX_PROJECT (R246). -/
def boxBody (r : Run) (x : KRec) (d : Dev) : Dev :=
  let vs := varList (modelOf d r.gen).objs
  let tl := tileAt r.plan (opnd x 0)
  (List.range vs.length).foldl (fun d i =>
    match lsqOf d r.id with
    | none => d
    | some q =>
      let ofs := elemSize tl.prec * i
      let o := (clipVar tl (q.kinds.getD (vs.getD i default).2.2 default) (rdElem d r (opnd x 0) ofs)).run Alu.zero
      let d1 := if o.1.2 then setLsq { q with clamped := (q.clamped ++ [i]).dedup } d else d
      wrElem r (opnd x 0) ofs o.1.1 (flagMember r 0 o.2 false (aluElem r x i o.2 d1))) d

/-- A kernel of an estimate entry on an estimate run only. -/
def lsqOnly (f : Run → KRec → Dev → Dev) (r : Run) (x : KRec) (d : Dev) : Dev := if r.kind = .lsq then f r x d else d

/-! ### Status phase (R244, R252, R253) -/

/-- The norm a run reports: the best under KEEP_BEST, else that of its last LOOP_TEST (R185). -/
def reportNorm (r : Run) : Nat := if r.keepBest then r.best.getD r.norm else r.norm

/-- DETAIL of an estimate's completion (R253). -/
def lsqDetail (r : Run) (q : LsqRun) : Nat :=
  b2n q.cold + 2 * b2n r.capped + 4 * b2n (decide (q.reg ≠ 0)) + 8 * b2n (!q.clamped.isEmpty) +
  16 * b2n (!q.outliers.isEmpty) + 32 * b2n (decide (q.negatives ≠ 0))

/-- The completion of an estimate run (R253). -/
def lsqResult (r : Run) (q : LsqRun) : Res :=
  let st := if r.dlStopped then stDeadline else if q.failed then stNumeric else if q.cold then stCold
    else if r.capped then stPartial else if q.reg ≠ 0 then stRegularised else stOk
  let norm := reportNorm r
  ⟨st, lsqDetail r q, q.reg, (r.passes % 65536) <<< 16 + min q.outliers.length 0xFFFF, lo32 norm, hi32 norm⟩

/-- The publication of a run (R243). -/
def lsqPub (d : Dev) (r : Run) (q : LsqRun) : Pub :=
  let m := modelOf d r.gen
  let v := (varList m.objs).length
  let res := lsqResult r q
  { header := leBytes 8 m.sig ++ leBytes 4 v ++ leBytes 4 m.gen ++ leBytes 8 q.measTime ++ leBytes 8 (now d) ++
      leBytes 8 q.cost ++ leBytes 8 (reportNorm r) ++ leBytes 4 (runTag d r).1 ++ leBytes 2 res.status ++
      leBytes 1 res.detail ++ leBytes 1 0 ++ leBytes 4 r.passes ++ leBytes 4 0,
    values := (List.range v).map (fun i => rdKey8 d (stageKey r + 8 * i)),
    flags := (List.range v).map (fun i => u8 (b2n (q.marks.contains i) + 2 * b2n (q.clamped.contains i))) }

/-- RESIDUAL and OUTLIER written into one value set. -/
def putResiduals (r : Run) (q : LsqRun) (set : Nat) (d : Dev) : Dev :=
  ((modelOf d r.gen).meas.filter (fun kv => kv.2.quantity ≠ 0)).foldl (fun d kv =>
    let v := valAt d set kv.1
    setVal set kv.1 { v with residual := smGet 0 q.resid kv.1, mstat := putBits v.mstat 3 3 (b2n (q.outliers.contains kv.1)) } d) d

/-- LSQ_STATUS_PHASE (R252). -/
def lsqStatusPhase (id : Nat) (d : Dev) : Dev :=
  match findRun d id, lsqOf d id with
  | some r, some q =>
    if r.kind ≠ .lsq ∨ r.phase ≠ .status then d
    else if classStops d r.cls then meetCeil r.cls d
    else
      let d1 := bump 6 10 q.outliers.length (bump 6 12 q.reg d)
      let d2 := if q.failed then d1
        else match r.spec.bind (periodOf d1) with
          | some p => setPeriod { p with staged := some (lsqPub d1 r q) } d1
          | none => { d1 with lsq.pub := some (lsqPub d1 r q) }
      let d3 := if bitAt q.lflags 2 && !q.failed && r.spec.isNone then
          putResiduals r q d2.mdl.newest (putResiduals r q (pinnedSet d2 r.id) d2)
        else d2
      let d4 := charge r.cls .beats (beatsOf (64 + 9 * (varList (modelOf d r.gen).objs).length)) d3
      endRun r (lsqResult r q) (countLate r d4)
  | _, _ => d

/-- A publication takes effect on a boundary tick (R244). -/
def publishState (d : Dev) : Dev :=
  match d.lsq.pub with
  | none => d
  | some p =>
    bump 6 13 1 (wrKeys 0x30800000 p.flags (wrKeys 0x30000040 (p.values.flatMap (leBytes 8))
      (wrKeys 0x30000000 p.header { d with lsq.pub := none })))

/-- READ_STATE 0x0600_0000 (R256). -/
def lsqState (d : Dev) : List Byte :=
  runRecords d 0x0601 (fun _ => 0) (fun r =>
    match lsqOf d r.id with
    | none => unusedRun
    | some q => runRecordBytes d r (min q.rejects 0xFFFF) (min q.reg 0xFFFF) false)

end Sys2Proof.Machine
end

