-- ==== Sys2Proof/Machine/RunAhead.lean ====
section
/-!
DEFINITION. Run-ahead optimisation: periods, assumed inputs, resolution, re-solves and group 0x07
(spec/11_run_ahead.md R258–R279).
-/

namespace Sys2Proof.Machine

/-! ### Inputs (R260, R261, R268) -/

/-- Descriptor i. -/
def inputAt (d : Dev) (i : Nat) : RaInput := smGet RaInput.unused d.ra.inputs i

/-- The used inputs in ascending order. -/
def usedInputs (d : Dev) : List (Nat × RaInput) := d.ra.inputs.filter (fun kv => kv.2.mode ≠ 0)

/-- The memory key of assumed value i of a tentative slot (R267). -/
def assumedKey (slot i : Nat) : Nat := opBuf (slot + 1) + 0x1800000 + 8 * i

/-- An assumed value is stored. -/
def setAssumed (slot i v : Nat) (d : Dev) : Dev := wrKeys (assumedKey slot i) (leBytes 8 v) d

/-- The memory key of history sample k of input i, oldest first (R267). -/
def historyKey (i k : Nat) : Nat := 0x39C00000 + 128 * i + 8 * k

/-- A sample enters the history of an input. -/
def pushHistory (i v : Nat) (d : Dev) : Dev :=
  wrKeys (historyKey i 0) (((List.range 15).flatMap (fun k => leBytes 8 (rdKey8 d (historyKey i (k + 1))))) ++ leBytes 8 v) d

/-- |e − a| ≤ TOL_ABS + TOL_REL × |a| in binary64 (R268). -/
def tolPass (x : RaInput) (e a : Nat) : Bool :=
  fle f64 (fabs f64 (fsub f64 e a))
    (fadd f64 (fconv f32 f64 x.tolAbs) (fmul f64 (fconv f32 f64 x.tolRel) (fabs f64 a)))

/-- An entry that is not VALID or is STALE. -/
def notValid (v : MeasVal) : Bool := !bitAt v.mstat 0 || bitAt v.mstat 1

/-- The same test by the lanes of a fabric kernel (R170, R172, R262). -/
def tolPassK (x : RaInput) (e a : Nat) : K Bool := do
  let ta ← kconv f32 f64 x.tolAbs
  let tr ← kconv f32 f64 x.tolRel
  let df ← ksub f64 e a
  let u ← kread f64 a
  let m ← kmul f64 tr (fabs f64 u)
  let lim ← kadd f64 ta m
  return fle f64 (fabs f64 df) lim

/-- The test of an input (R268). -/
def inputPass (x : RaInput) (v : MeasVal) (a : Nat) : Bool := if notValid v then bitAt x.iflags 0 else tolPass x v.value a

/-! ### Periods (R258, R259, R261, R267) -/

/-- A tentative slot that no period and not the current one uses. -/
def freeSlot (d : Dev) : Nat :=
  ((List.range 8).find? (fun s => d.ra.periods.all (fun p => p.slot ≠ s) && d.ra.curSlot != some s)).getD 7
/-- An operand-0 buffer that nothing uses. -/
def freeBuf (d : Dev) : Nat :=
  ((List.range 9).find? (fun b => d.ra.periods.all (fun p => p.buf ≠ b) && decide (d.ra.resBuf ≠ b))).getD 8

/-- Period n opens: every assumed value is that of the newest complete value set (R261). -/
def openPeriod (n : Nat) (d : Dev) : Dev :=
  if d.ra.periods.any (fun p => p.n = n) then d
  else
    let s := freeSlot d
    let p : Period := { n := n, slot := s, buf := freeBuf d, frozen := false, freezeTime := 0, commitWait := false,
                        resTime := 0, wrote := false, lastSquash := (0, 0), staged := none, ended := [] }
    (usedInputs d).foldl (fun d kv => setAssumed s kv.1 (valAt d d.mdl.newest kv.2.meas).value d)
      { d with ra.periods := d.ra.periods ++ [p] }

/-- Periods c + 1 to c + D open. -/
def openPeriods (d : Dev) : Dev :=
  (List.range d.ra.depth).foldl (fun d k => openPeriod (curPeriod d + 1 + k) d) d

/-- Every unresolved period is squashed with a cause of the table, without re-solves (R104, R270). -/
def squashEvery (cause : Nat) (d : Dev) : Dev :=
  d.ra.periods.foldl (fun d p => squashPeriod p.n cause 0xFFFFFFFF 0 d) d

/-- Every period state is cleared (R259): what was speculative for those periods is squashed, and nothing of it stays
(notes/assumptions/12.md). -/
def clearPeriods (d : Dev) : Dev :=
  let d1 := squashEvery 3 d
  let rs := d1.pln.runs.filter (fun r => r.spec.isSome)
  let d2 := rs.foldl (fun d r =>
    complete r.cmd (if r.kind = .extrapolate then refuse stCancelled 0 else squashedRes (r.spec.getD 0) 3 0xFFFFFFFF 0)
      (dropRun r.id d)) d1
  { d2 with ra.periods := [], ra.curSlot := none }

/-- A change of the frame length takes effect: DEPTH becomes 0 (R259). -/
def raDisable (d : Dev) : Dev :=
  let d1 := clearPeriods d
  { d1 with ra.depth := 0, ra.newCfg := none }

/-- RA_CONFIG applies at a boundary (R259). -/
def raApply (d : Dev) : Dev :=
  match d.ra.newCfg with
  | none => d
  | some c =>
    let d1 := clearPeriods d
    openPeriods { d1 with ra.plen := c.1, ra.depth := c.2.1, ra.anchor := c.2.2, ra.newCfg := none }

/-! ### Resolution (R268–R271) -/

/-- The test of every input of a period: failures, first failure (R268). -/
def testInputs (p : Period) (d : Dev) : Nat × Nat × Dev :=
  (usedInputs d).foldl (fun acc kv =>
    let d := acc.2.2
    let v := valAt d d.mdl.newest kv.2.meas
    let bad := notValid v
    let pass := inputPass kv.2 v (assumedValue d p.slot kv.1)
    let d1 := pushHistory kv.1 (if bad then rdKey8 d (historyKey kv.1 15) else v.value) d
    if pass then (acc.1, acc.2.1, d1)
    else
      let d2 := bump 7 12 1 (if bad then bump 7 13 1 d1 else d1)
      (acc.1 + 1, if acc.1 = 0 then kv.1 else acc.2.1, d2)) (0, 0xFFFFFFFF, d)

/-- A period whose outcome is known commits, now or when the last of its runs has ended, re-solves that wait for their turn among
them, or is squashed (R268, R269). -/
def applyOutcome (n fails first : Nat) (d : Dev) : Dev :=
  match periodOf d n with
  | none => d
  | some p =>
    let p1 := { p with resTime := now d }
    let d1 := bump 7 1 1 (setPeriod p1 { d with ra.curSlot := some p.slot })
    if fails = 0 then
      (if periodBusy d1 n then bump 7 3 1 (setPeriod { p1 with commitWait := true } d1) else commitPeriod p1 d1)
    else squashResolved n first fails d1

/-- Period n is resolved (R268). -/
def resolvePeriod (d : Dev) (n : Nat) : Dev :=
  match periodOf d n with
  | none => d
  | some p =>
    let t := testInputs p d
    applyOutcome n t.1 t.2.1 t.2.2

/-! ### Re-solves (R271) -/

/-- A re-solve of an earlier period is pending or running. -/
def earlierResolve (d : Dev) (e : ReSolve) : Bool :=
  d.ra.resolves.any (fun x => decide (x.period < e.period)) ||
  d.pln.runs.any (fun r => r.resolve && (match r.spec with
    | none => true
    | some n => decide (n < e.period)))

/-- The packet a re-solve runs: firm ones without SPEC (R271). -/
def resolvePkt (e : ReSolve) (p : Pkt) : Pkt :=
  if e.firm then { p with flags := p.flags &&& 0xFB, p4 := 0, p5 := 0, p6 := 0 } else p

/-- RE_SOLVE_START: the re-solve of a squashed command starts, in a mode that runs solver slices (R28, R271). -/
def reSolveStart (cmd : Nat) (d : Dev) : Dev :=
  match d.ra.resolves.find? (fun e => e.cmd = cmd), findCmd d cmd with
  | some e, some c =>
    if (!e.firm && earlierResolve d e) || !slicesRun d 5 then d
    else
      let p := resolvePkt e c.pkt
      let d1 := { d with ra.resolves := d.ra.resolves.filter (fun x => x.cmd ≠ cmd) }
      match planIn d1 (subSlot p) with
      | none => complete cmd (badParam 0x40) d1
      | some pl =>
        if pl.entries.length ≤ subEntry p then complete cmd (badParam 0x41) d1
        else
          let d2 := bump 7 8 1 { d1 with ra.resolving := true }
          fabricRunStart e.age
            (if p.opcode.toNat = 0x0501 then submitSheaf e.age true cmd p d2 else submitLsq e.age true cmd p d2)
  | _, _ => d

/-- Firm re-solves start at the resolution instant. -/
def firmResolves (d : Dev) : Dev :=
  (d.ra.resolves.filter (fun e => e.firm)).foldl (fun d e => reSolveStart e.cmd d) d

/-- Run-ahead at a frame boundary, after the capture: new parameters apply, or the periods whose start has come
resolve and the next ones open (R258, R259, R268). -/
def raBoundary (d : Dev) : Dev :=
  if d.ra.newCfg.isSome then raApply d
  else if d.ra.depth = 0 then d
  else
    let due := (d.ra.periods.filter (fun p => !p.commitWait && decide (p.n ≤ curPeriod d))).map (·.n)
    firmResolves (openPeriods (due.foldl resolvePeriod d))

/-! ### Kernels of group 0x07 (R262) -/

/-- The element sum in ascending order. -/
def sumAsc (xs : List Nat) : K Nat := xs.foldlM (fun a x => kadd f64 a x) 0

/-- The line through k samples, read at distance d (R262). -/
def extrapolateK (ys : List Nat) (dist : Nat) : K Nat := do
  let k := ys.length
  let ts := (List.range k).map (fun j => fOfInt f64 ((j : Int) - ((k : Int) - 1)))
  let kf := fOfInt f64 k
  let st ← sumAsc ts
  let tm ← kdiv f64 st kf
  let sy ← sumAsc ys
  let ym ← kdiv f64 sy kf
  if k ≤ 1 then
    let dt ← ksub f64 (fOfInt f64 dist) tm
    let q ← kmul f64 0 dt
    kadd f64 ym q
  else
    let pr ← (ts.zip ys).mapM (fun ty => do
      let a ← ksub f64 ty.1 tm
      let b ← ksub f64 ty.2 ym
      let ab ← kmul f64 a b
      let aa ← kmul f64 a a
      return (ab, aa))
    let num ← sumAsc (pr.map (·.1))
    let den ← sumAsc (pr.map (·.2))
    let s ← kdiv f64 num den
    let dt ← ksub f64 (fOfInt f64 dist) tm
    let q ← kmul f64 s dt
    kadd f64 ym q

/-- EXTRAPOLATE (R262): the fit of every input is formed, and those of MODE 2 are taken (R172). -/
def extrapolateBody (r : Run) (x : KRec) (d : Dev) : Dev :=
  let k := min (max x.k 1) 16
  let dist := r.spec.getD 0 - (r.startTime / d.sys.frameLen - d.ra.anchor) / d.ra.plen
  (List.range 4096).foldl (fun d i =>
    let ys := (List.range k).map (fun j => rdElem d r (opnd x 0) (128 * i + 8 * (16 - k + j)))
    let o := (extrapolateK ys dist).run Alu.zero
    let d1 := aluElem r x i o.2 d
    if (inputAt d i).mode = 2 then wrElem r (opnd x 1) (8 * i) o.1 d1 else d1) d

/-- TOL_COMPARE (R262): 1 for pass and 0 for fail, against the newest complete value set at the run's start, and the run keeps how
many failed. -/
def tolCompareBody (r : Run) (x : KRec) (d : Dev) : Dev :=
  let set := smGet [] d.ra.testSets r.id
  let o := (usedInputs d).foldl (fun (acc : Nat × Dev) kv =>
    let v := smGet MeasVal.zero set kv.2.meas
    let t := (tolPassK kv.2 v.value (rdElem acc.2 r (opnd x 0) (8 * kv.1))).run Alu.zero
    let pass := if notValid v then bitAt kv.2.iflags 0 else t.1
    (acc.1 + b2n (!pass), wrElem r (opnd x 1) (4 * kv.1) (b2n pass) (aluElem r x kv.1 t.2 acc.2))) (0, d)
  setRun { r with tolFails := o.1 } o.2

/-- A kernel of an RA_EXTRAPOLATE entry, on such a run only. -/
def raOnly (f : Run → KRec → Dev → Dev) (r : Run) (x : KRec) (d : Dev) : Dev := if r.kind = .extrapolate then f r x d else d

/-! ### Commands (R276, R277) -/

def specRaConfig : OpSpec :=
  { opBase 0x0701 0xC8 with
    params := fun p d =>
      firstBad [ (decide (param p 0 % 65536 = 0 ∨ 4 < param p 0 >>> 16), 0x20), (decide (param p 1 ≠ 0), 0x24),
        (decide (now d / d.sys.frameLen < param64 p 2), 0x28), (decide (param p 4 ≠ 0), 0x30), (decide (param p 5 ≠ 0), 0x34),
        (decide (param p 6 ≠ 0), 0x38), (decide (param p 7 ≠ 0), 0x3C) ]
    object := fun _ d => if d.sys.frameNew.isSome then some (conflictObj d 0xC8 4) else none }

/-- RA_CONFIG: the values wait for the next boundary (R259) (log 12). -/
def effRaConfig : Nat → Pkt → Dev → Dev :=
  immediate fun p d =>
    let t := nextBoundary d
    (ok (lo32 t) (hi32 t) 0 0, { d with ra.newCfg := some (bits (param p 0) 15 0, bits (param p 0) 18 16, param64 p 2) })

/-- A descriptor of 16 bytes. -/
def raInputOf (b : List Byte) : RaInput := ⟨fieldLE b 0 4, fieldLE b 4 1, fieldLE b 5 1, fieldLE b 8 4, fieldLE b 12 4⟩

/-- A tolerance in binary32: finite and ≥ 0. -/
def tol32Ok (x : Nat) : Bool := fIsFin f32 x && fle f32 0 x

/-- A descriptor is at fault (R260). -/
def raInputBad (d : Dev) (b : List Byte) : Bool :=
  let x := raInputOf b
  decide (2 < x.mode) || decide (1 < x.iflags) || !zeroAt b 6 2 || !tol32Ok x.tolAbs || !tol32Ok x.tolRel ||
  (decide (x.mode ≠ 0) && (decide (0xFFFF < x.meas) || decide ((measAt d.mdl.com.meas x.meas).quantity = 0)))

/-- The table after a load of `bs` from index i. -/
def loadInputs (i : Nat) (bs : List (List Byte)) (t : SMap RaInput) : SMap RaInput :=
  (List.range bs.length).foldl (fun t k => smSet RaInput.unused t (i + k) (raInputOf (bs.getD k []))) t

/-- The descriptors of the buffer. -/
def raRecords (p : Pkt) (d : Dev) : List (List Byte) :=
  let b := rdBytes d (bufA p) (bufL p)
  (List.range (param p 1)).map (fun k => sliceB b (16 * k) 16)

/-- The first index at fault, on its own or as a duplicate (R277). -/
def raInputsFault (p : Pkt) (d : Dev) : Option Nat :=
  let i := param p 0
  let bs := raRecords p d
  let t := loadInputs i bs d.ra.inputs
  ((List.range bs.length).find? (fun k =>
    raInputBad d (bs.getD k []) ||
    (let x := raInputOf (bs.getD k [])
     decide (x.mode ≠ 0) && t.any (fun kv => decide (kv.1 ≠ i + k ∧ kv.2.mode ≠ 0 ∧ kv.2.meas = x.meas) &&
       (decide (kv.1 < i + k) || decide (i + bs.length ≤ kv.1)))))).map (i + ·)

def specRaInputs : OpSpec :=
  { opBase 0x0702 0xC8 with
    bufUse := .read
    bufOk := fun p _ => decide (bufL p = 16 * param p 1)
    params := fun p _ =>
      (firstBad [ (decide (4095 < param p 0), 0x20),
        (decide (param p 1 = 0 ∨ 4096 < param p 1 ∨ 4096 < param p 0 + param p 1), 0x24) ]).or (zeroFrom p 2)
    resources := fun p d => (raInputsFault p d).map (bad1 0x40) }

/-- RA_INPUTS. -/
def effRaInputs : Nat → Pkt → Dev → Dev :=
  immediate fun p d => (ok 0 0 0 0, { d with ra.inputs := loadInputs (param p 0) (raRecords p d) d.ra.inputs })

/-- The refusal of a period whose values are frozen (R277). -/
def frozenConflict (d : Dev) (mask n : Nat) : Option Res :=
  match raConflict d mask n false with
  | some x => some x
  | none => match periodOf d n with
    | some q => if q.frozen then some (conflictObj d mask 3) else none
    | none => none

def specRaForecast : OpSpec :=
  { opBase 0x0703 0x60 with
    bufUse := .read
    bufOk := fun p _ => decide (bufL p = 16 * param p 2)
    params := fun p _ => (firstBad [(decide (param p 2 = 0 ∨ 4096 < param p 2), 0x28)]).or (zeroFrom p 3)
    object := fun p d => frozenConflict d 0x60 (param64 p 0) }

/-- RA_FORECAST (R276). -/
def effRaForecast : Nat → Pkt → Dev → Dev :=
  immediate fun p d =>
    let b := rdBytes d (bufA p) (bufL p)
    match periodOf d (param64 p 0) with
    | none => (conflictObj d 0x60 2, d)
    | some q =>
      let o := (List.range (param p 2)).foldl (fun (acc : Nat × Dev) k =>
        let i := fieldLE b (16 * k) 4
        let v := fieldLE b (16 * k + 8) 8
        if i < 4096 ∧ (inputAt acc.2 i).mode = 1 ∧ fIsFin f64 v then (acc.1, setAssumed q.slot i v acc.2)
        else (acc.1 + 1, acc.2)) (0, d)
      (ok o.1 0 0 0, o.2)

/-- An entry that RA_EXTRAPOLATE may run (R262) (log 141). -/
def raEntryOk (pl : Plan) (k : Nat) : Bool :=
  let e := entryAt pl k
  decide (k < pl.entries.length) && decide (e.opgroup = 7 ∧ e.cls = 5) &&
  (entryRecs pl e).all (fun ix => [0x00, 0x04, 0x05, 0x20, 0x21].contains ix.2.kernel)

/-- RA_EXTRAPOLATE: the entry binds its tiles as a speculative run does, so that what R264 and R265 refuse of one is refused of it
(log 141). -/
def specRaExtrapolate : OpSpec :=
  { opBase 0x0704 0x20 with
    launch := fun _ => true
    params := fun p _ =>
      (firstBad [(decide (param p 0 &&& 0xF07 ≠ param p 0), 0x20), (decide (param p 1 ≠ 0), 0x24)]).or (zeroFrom p 4)
    object := fun p d => frozenConflict d 0x20 (param64 p 2)
    resources := fun p d =>
      match planIn d (subSlot p) with
      | none => some (badParam 0x41)
      | some pl =>
        if !raEntryOk pl (subEntry p) then some (badParam 0x41)
        else match specForbids pl (entryAt pl (subEntry p)) with
        | some t => some (bad1 0x48 t)
        | none => slotRefusals d (subSlot p) }

/-- RA_EXTRAPOLATE: the run is due (R262). -/
def effRaExtrapolate (id : Nat) (p : Pkt) (d : Dev) : Dev := addRun (newRun .extrapolate id p d.pln.nextRun d) d

def specRaSquash : OpSpec :=
  { opBase 0x0705 0x20 with
    params := fun p _ => zeroFrom p 2
    object := fun p d => raConflict d 0x20 (param64 p 0) false }

/-- RA_SQUASH: the named period and every later open one (R270). -/
def effRaSquash : Nat → Pkt → Dev → Dev :=
  immediate fun p d =>
    let ps := (d.ra.periods.filter (fun q => !q.commitWait && decide (param64 p 0 ≤ q.n)))
    let runs := ps.foldl (fun k q => k + ((specRuns d q.n).filter (fun r => r.phase ≠ .queued)).length + q.ended.length +
      (specResolves d q.n).length) 0
    let ls := (entriesWhere d (fun _ e => ps.any (fun q => e.spec == some q.n))).length
    (ok runs ls 0 0, ps.foldl (fun d q => squashPeriod q.n 3 0xFFFFFFFF 0 d) d)

/-- PFLAGS of a period (R278). -/
def pflags (q : Period) : Nat := b2n q.frozen + 2 * b2n q.staged.isSome + 4 * b2n q.wrote

/-- Speculative submissions of a period that wait for their launch time. -/
def specWaits (d : Dev) (n : Nat) : List Cmd :=
  d.cmd.cmds.filter (fun c => [0x0501, 0x0601].contains c.pkt.opcode.toNat && isSpec c.pkt && decide (param64 c.pkt 4 = n) &&
    decide (c.phase = .waiting))

/-- Runs outstanding of a period: in progress, or waiting for a launch or a re-solve (R232, R278). -/
def periodRuns (d : Dev) (n : Nat) : Nat := (specRuns d n).length + (specResolves d n).length + (specWaits d n).length

/-- Launches queued for a period. -/
def periodLaunches (d : Dev) (n : Nat) : Nat := (entriesWhere d (fun _ e => e.spec == some n)).length

def specRaQuery : OpSpec :=
  { opBase 0x0706 0xF8 with
    params := fun p _ => zeroFrom p 2
    object := fun p d => raConflict d 0xF8 (param64 p 0) true }

/-- RA_QUERY (R276). -/
def effRaQuery : Nat → Pkt → Dev → Dev :=
  immediate fun p d =>
    let n := param64 p 0
    let t := periodStart d n
    let fl := match periodOf d n with
      | some q => pflags q
      | none => 0
    (ok (b2n (periodOpen d n) + fl <<< 8 + (periodRuns d n % 65536) <<< 16) (periodLaunches d n) (lo32 t) (hi32 t), d)

/-! ### State readback (R278) -/

/-- CUR_STATE: firm, COMMIT_WAIT, re-solves running. -/
def curState (d : Dev) : Nat :=
  if d.ra.periods.any (fun q => q.commitWait && decide (q.n = curPeriod d)) then 1
  else if d.ra.resolves.any (fun e => e.firm) || d.pln.runs.any (fun r => r.resolve && r.spec.isNone) then 2 else 0

/-- READ_STATE 0x0700_0000. -/
def raState (d : Dev) : List Byte :=
  let c := curPeriod d
  let head := leBytes 4 d.ra.plen ++ leBytes 1 d.ra.depth ++ leBytes 1 (curState d) ++ leBytes 2 (usedInputs d).length ++
    leBytes 8 d.ra.anchor ++ leBytes 8 c ++ leBytes 8 (periodStart d (c + 1)) ++ List.replicate 32 (0 : Byte)
  let per (n : Nat) : List Byte :=
    match d.ra.periods.find? (fun q => decide (q.n = n) && !q.commitWait) with
    | none => List.replicate 64 (0 : Byte)
    | some q =>
      leBytes 8 n ++ leBytes 1 1 ++ leBytes 1 (pflags q) ++ leBytes 2 (periodRuns d n) ++ leBytes 4 (periodLaunches d n) ++
      leBytes 8 (periodStart d n) ++ leBytes 8 q.freezeTime ++ List.replicate 32 (0 : Byte)
  let log (i : Nat) : List Byte :=
    match d.ra.log[i]? with
    | none => List.replicate 32 (0 : Byte)
    | some x =>
      leBytes 8 x.n ++ leBytes 1 (b2n x.squashed) ++ leBytes 1 (b2n x.waited) ++ leBytes 2 0 ++ leBytes 4 x.first ++
      leBytes 4 x.fails ++ leBytes 4 0 ++ leBytes 8 x.time
  head ++ (List.range 4).flatMap (fun k => per (c + 1 + k)) ++ (List.range 16).flatMap log

end Sys2Proof.Machine
end

