-- ==== Sys2Proof/Machine/Time.lean ====
section
/-!
DEFINITION. The time base: ticks, rate, steps, alarms, and the measurements of PTP domains
(spec/14_time_ethernet_launch.md R321–R330).
-/

namespace Sys2Proof.Machine

/-- num / den, exact where it divides; else the integer below or above it, as the device rounds, which the spec does
not state (log 52). -/
def openQuot (num : Int) (den : Nat) : Int :=
  if num % (den : Int) = 0 then num / (den : Int) else num / (den : Int) + (if Config.roundUp num den then 1 else 0)

/-! ### The counter (R321) -/

/-- INCR in 2⁻³² ns for a correction in ppb (log 122). -/
def incr (r : Int) : Nat := ((2 ^ 34 : Int) + divRNE (2 ^ 34 * r) (10 ^ 9)).toNat

/-- Step 3 of a frame ends when none of its loops is due and the read ticks of those passed over have come, 150 ns each for 256 loops
(R280–R282): a loop enabled later acts from the next frame (log 154). -/
def passLoops (d : Dev) : Dev :=
  { d with clp.jobs := d.clp.jobs.dropWhile (fun j => decide (j.cap.t + 38400 ≤ now d) && jobEnded d j) }

/-- n ticks of 250 MHz pass (log 2, 122, 154). -/
def passTicks (n : Nat) (d : Dev) : Dev :=
  passLoops { d with tim.acc := (d.tim.acc + n * incr d.tim.rate) % 2 ^ 96, tim.ticks := d.tim.ticks + n }

/-- Time passes to the first tick at which the time base equals or passes t; none passes when it already has (log 2). -/
def advanceTo (t : Nat) (d : Dev) : Dev :=
  if t ≤ now d then d else passTicks (ceilDiv (t * 2 ^ 32 - d.tim.acc) (incr d.tim.rate)) d

/-- Time passes to a tick of the pace domain's own count (R173) (log 2). -/
def advanceTicks (k : Nat) (d : Dev) : Dev := passTicks (k - d.tim.ticks) d

/-- MAX_PPB (R321). -/
def maxPpb (d : Dev) : Int := (min (regA d Reg.timRateLim) 500000 : Nat)

/-- SYS_REF_STAT.LOST (R17). -/
def refLost (d : Dev) : Bool := fld d Reg.sysRefStat 0 0 = 1

/-- The servo's clamp (R330). -/
def servoMax (d : Dev) : Int := if refLost d then 500000 else maxPpb d

/-- f, held in TIM_RATE.INTEGRAL. -/
def integral (d : Dev) : Int := sx 32 (regP d Reg.timRate)

/-- The source that acts: TRELLIS needs an address of 2 or above, 0b11 is FREE (R324). -/
def timeSource (d : Dev) : Nat :=
  match fldA d Reg.timCtl 1 0 with
  | 1 => 1
  | 2 => if ownAddr d < 2 then 0 else 2
  | _ => 0

/-- The rate under FREE. -/
def freeRate (d : Dev) : Int := clampI (-maxPpb d) (maxPpb d) (sx 32 (regA d Reg.timFreePpb))

/-- At a strobe tick the applied source sets the rate (R324). -/
def takeSource (d : Dev) : Dev :=
  let s := timeSource d
  let changed := s ≠ d.tim.lastSource
  let d1 := { d with tim.lastSource := s, tim.servoRan := if changed then false else d.tim.servoRan }
  match s with
  | 0 => { d1 with tim.rate := freeRate d }
  | 1 => if changed then { d1 with tim.rate := clampI (-maxPpb d) (maxPpb d) (integral d) } else d1
  | _ => d1

/-- TIM_STAT.HOLDOVER. -/
def holdover (d : Dev) : Bool := fld d Reg.timStat 3 3 = 1
/-- TIM_STAT.ACTIVE: the active domain. -/
def activeDom (d : Dev) : Nat := fld d Reg.timStat 2 2

/-- TIM_STAT as it reads: LOCKED is SOURCE PTP with VALID set and no holdover. -/
def timStat (d : Dev) : Nat :=
  putBits (regP d Reg.timStat) 1 1 (b2n (decide (fldA d Reg.timCtl 1 0 = 1) && timeValid d && !holdover d))

/-! ### Alarms and steps (R329) -/

/-- Alarm n is reached: its bit, vector 67, and it disarms. -/
def alarmReached (n : Nat) (d : Dev) : Dev :=
  raiseVec 67 (orP Reg.timEvent (1 <<< (4 + n)) { d with tim.alarms := smSet none d.tim.alarms n none })

/-- TIME_ALARM: an armed alarm is reached, on the next tick when its time has passed already. -/
def timeAlarm (n : Nat) (d : Dev) : Dev :=
  match smGet none d.tim.alarms n with
  | none => d
  | some t => alarmReached n (if t ≤ now d then passTicks 1 d else advanceTo t d)

/-- TIM_ALARM_ARM: a write of HI arms the alarm with HI and LO as they then stand; 0 disarms it. -/
def armAlarm (n : Nat) (w : Word) (d : Dev) : Dev :=
  let d1 := setP (Reg.timAlarmHi n) w.toNat d
  let t := w.toNat <<< 32 + regP d (Reg.timAlarmLo n)
  { d1 with tim.alarms := smSet none d1.tim.alarms n (if t = 0 then none else some t) }

/-- An instant held in time-base ns, on the count after a step. -/
def stepNat (by_ : Int) (t : Nat) : Nat := ((t : Int) + by_).toNat

/-- What a port holds of instants, on the count after a step (log 147). -/
def PtpPort.shift (by_ : Int) (q : PtpPort) : PtpPort :=
  { q with toSlave := q.toSlave.map (· + by_ * 65536), waiting := q.waiting.map (fun w => { w with rx := stepNat by_ w.rx }),
           delayReq := q.delayReq.map (fun r => (r.1, stepNat by_ r.2)), pdelayReq := q.pdelayReq.map (fun r => (r.1, stepNat by_ r.2)),
           busyUntil := stepNat by_ q.busyUntil }

/-- The time base steps on one tick (R323, R329): VALID is set, launches that a forward step passes are late, alarms
whose time it passes are raised (log 147). -/
def stepTime (by_ : Int) (d : Dev) : Dev :=
  let t0 := now d
  let t1 := (((d.tim.acc : Int) + by_ * 2 ^ 32) % 2 ^ 96).toNat
  let d1 := { d with tim.acc := t1, mtr := d.mtr.shift by_,
                     trl.healthyFrom := d.trl.healthyFrom.map (stepNat by_),
                     trl.markOut := if fld d Reg.trlStat 27 27 = 1 then some (t1 >>> 32, true) else d.trl.markOut, tim.doms := d.tim.doms.map (fun v =>
    { v with lastSync := v.lastSync.map (stepNat by_), at_ := stepNat by_ v.at_ }),
                     tim.ports := d.tim.ports.map (PtpPort.shift by_),
                     tim.repeats := d.tim.repeats.map (fun r => { r with due := stepNat by_ r.due }) }
  let d2 := bump 0xD 3 1 (orP Reg.timEvent 8 (setF Reg.timStat 0 0 1 d1))
  if by_ ≤ 0 then d2
  else
    let d3 := { d2 with lch.q := smMap none (fun _ e => e.map (fun x =>
      if t0 < x.fireAt ∧ x.fireAt ≤ now d2 then { x with late := true } else x)) d2.lch.q }
    (List.range 4).foldl (fun d n =>
      match smGet none d.tim.alarms n with
      | some t => if t0 < t ∧ t ≤ now d then alarmReached n d else d
      | none => d) d3

/-! ### The servo and the domains (R326–R328) -/

/-- A domain's record. -/
def domOf (d : Dev) (x : Nat) : PtpDom := d.tim.doms.getD x PtpDom.reset
/-- It is replaced. -/
def setDom (x : Nat) (v : PtpDom) (d : Dev) : Dev := { d with tim.doms := d.tim.doms.set x v }

/-- The servo processes a measurement θ over Δ (R327). -/
def servo (theta : Int) (delta : Nat) (d : Dev) : Dev :=
  if delta = 0 then d
  else
    let m := servoMax d
    let ki : Int := (fldA d Reg.timServo 15 0 : Nat)
    let kp : Int := (fldA d Reg.timServo 31 16 : Nat)
    let step (g f : Int) : Int := clampI (-m) m (divRNE (f * 256 * delta - g * theta * 10 ^ 9) (256 * delta))
    let f := step ki (integral d)
    { setP Reg.timRate (enc 32 f) d with tim.rate := step kp f, tim.servoRan := true }

/-- JUMP_TH. -/
def jumpTh (d : Dev) : Nat := regA d Reg.timJump
/-- TIM_AGREE.TOL and N_AGREE. -/
def tolAgree (d : Dev) : Nat := fldA d Reg.timAgree 27 0
def nAgree (d : Dev) : Nat := fldA d Reg.timAgree 31 28

/-- The last N_AGREE measurements of a domain all lie within a bound. -/
def agrees (d : Dev) (x bound : Nat) : Bool :=
  let h := (domOf d x).hist.take (nAgree d)
  decide (h.length = nAgree d) && decide (1 ≤ nAgree d) && h.all (fun v => decide (v ≤ bound))

/-- Domain x becomes active (R328). -/
def switchDom (x : Nat) (d : Dev) : Dev :=
  if activeDom d = x then d
  else raiseVec 67 (bump 0xD 1 1 (orP Reg.timEvent 2 (setF Reg.timStat 2 2 x d)))

/-- Entry into holdover: r is held at f. -/
def enterHoldover (d : Dev) : Dev :=
  raiseVec 67 (bump 0xD 2 1 (orP Reg.timEvent 4 (setF Reg.timStat 3 3 1 { d with tim.rate := integral d })))

/-- A jump of the active domain is refused (rule 2 of R328). -/
def refuseJump (x : Nat) (d : Dev) : Dev :=
  let v := domOf d x
  let o := domOf d (1 - x)
  let d1 := setDom x { v with refusals := v.refusals + 1 } d
  let d2 := raiseVec 67 (bump 0xD 0 1 (orP Reg.timEvent 1 (setF Reg.timStat 4 4 1 d1)))
  if o.known ∧ now d ≤ o.at_ + 2 * v.delta ∧ o.theta.natAbs ≤ tolAgree d then switchDom (1 - x) d2 else enterHoldover d2

/-- Rules 3 and 4 of R328, in that order. -/
def reacquire (d : Dev) : Dev :=
  let d1 :=
    if holdover d then
      (match [0, 1].find? (fun x => agrees d x (jumpTh d)) with
       | some x => switchDom x (setF Reg.timStat 3 3 0 d)
       | none => d)
    else d
  if activeDom d1 = 1 ∧ agrees d1 0 (tolAgree d1) then switchDom 0 d1 else d1

/-- Domain x may acquire: it is active, or the active one has no measurement at all (rule 1 of R328) (log 148). -/
def mayAcquire (x : Nat) (d : Dev) : Bool :=
  !timeValid d && (decide (activeDom d = x) || !(domOf d (activeDom d)).known)

/-- A measurement of domain x (R326, R328): offset, mean path delay, time of the Sync (log 148). -/
def measure (x : Nat) (theta delay : Int) (rx : Nat) (d : Dev) : Dev :=
  let v := domOf d x
  let delta := match v.lastSync with
    | some t => rx - t
    | none => 0
  let v1 := { v with theta := theta, delay := delay, at_ := rx, delta := delta, known := true,
                     hist := (theta.natAbs :: v.hist).take 15, count := v.count + 1, lastSync := some rx }
  let d1 := setP (if x = 0 then Reg.timOffsetA else Reg.timOffsetB) (enc 32 (satS32 theta)) (setDom x v1 d)
  if timeSource d1 ≠ 1 then d1
  else if mayAcquire x d1 then stepTime (-theta) (switchDom x d1)
  else
    let d2 :=
      if activeDom d1 = x ∧ !holdover d1 then
        (if theta.natAbs ≤ jumpTh d1 then servo theta delta (setF Reg.timStat 4 4 0 d1) else refuseJump x d1)
      else d1
    reacquire d2

/-- ANNOUNCE_RECEIPT_TIMEOUT: no Sync on the active domain's port (R328). -/
def receiptTimeout (x : Nat) (d : Dev) : Dev :=
  if timeSource d = 1 ∧ activeDom d = x ∧ !holdover d ∧ timeValid d then refuseJump x d else d

end Sys2Proof.Machine
end

