-- ==== Sys2Proof/Machine/Pace.lean ====
section
/-!
DEFINITION. Pace windows, bands, the voltage governor, known-answer tests and retirement
(spec/07_thresher_fabric.md R173–R190, spec/08_placement.md R205, R206).
-/

namespace Sys2Proof.Machine

/-! ### Bands (R173–R177) -/

/-- The band of a quotient num / den of normalised counts: the lowest b with num / den ≥ K_b, else 15 (R173). -/
def bandOf (num den : Nat) : Nat :=
  ((List.range 15).find? (fun b => decide ((Config.bandTh b).toNat * den ≤ num))).getD 15

/-- The normalised count of a monitor in the last window. -/
def pmCount (d : Dev) (n : Nat) : Nat := smGet 0 d.thr.pm n

/-- The worst normalised count. -/
def uMin (d : Dev) : Nat := ((List.range 16).map (pmCount d)).foldl min 0xFFFF

/-- The relative speed at VCODE, times 10 × 2¹⁵, interpolated between the eight fused points (R177). -/
def relSpeed (code : Nat) : Nat :=
  let k := min (code / 10) 7
  let f := if 7 ≤ code / 10 then 0 else code % 10
  (Config.pvSpeed k).toNat * (10 - f) + (Config.pvSpeed (min (k + 1) 7)).toNat * f

/-- BAND_MAX: the band predicted at 0.95 V, one worse for margin, not slower than the band in force (R177). -/
def predictBand (d : Dev) : Nat := min d.thr.band (min 15 (bandOf (uMin d * 327680) (relSpeed d.thr.vcode) + 1))

/-- BAND_MAX is recomputed at a frame boundary. -/
def setBandMax (d : Dev) : Dev := { d with thr.bandMax := predictBand d }

/-! ### The governor (R178–R182) -/

/-- THR_CTL.GOV_EN. -/
def govOn (d : Dev) : Bool := fldA d Reg.thrCtl 0 0 = 1
/-- VMAX and VMIN (THR_GOV_CFG). -/
def vMax (d : Dev) : Nat := min (fldA d Reg.thrGovCfg 23 16) 70
def vMin (d : Dev) : Nat := min (fldA d Reg.thrGovCfg 15 8) (vMax d)

/-- b_t: the slowest band that meets the required rate, not slower than SLOWEST_BAND (R178). -/
def targetBand (d : Dev) : Nat :=
  let slow := fldA d Reg.thrGovCfg 31 28
  match d.pln.fp with
  | none => slow
  | some _ =>
    let s := ((List.range 16).map (stepFloor d)).foldl (· + ·) 0
    let b := ((List.range 16).reverse.find? (fun b => decide (1000 * s ≤ bandRate b * inService d * d.sys.frameLen))).getD 0
    min b slow

/-- The condition of the lowering row of R179. -/
def canLower (d : Dev) : Bool := decide (d.thr.band + fldA d Reg.thrGovCfg 27 24 ≤ d.thr.target)

/-- An AVSBus Write Voltage is issued (log 121). -/
def avsIssue (code : Nat) (up : Bool) (d : Dev) : Dev := { d with thr.avs := some ⟨code, 0, up⟩ }

/-- The raise row of R179. -/
def govRaise (d : Dev) : Dev :=
  if d.thr.band ≤ d.thr.target then { d with thr.atMax := false }
  else if vMax d ≤ d.thr.vcode then { d with thr.atMax := true }
  else if d.thr.avs.isSome || d.thr.avsErr || d.thr.repeatAt.isSome then d
  else
    addF Reg.thrGovRaises 31 0 1
      (avsIssue (min (vMax d) (d.thr.vcode + min 35 (5 * (d.thr.band - d.thr.target)))) true { d with thr.atMax := false })

/-- The governor at a frame boundary or a band change (R178, R179). -/
def governor (d : Dev) : Dev :=
  if !govOn d then d
  else
    let d1 := { d with thr.target := targetBand d }
    let since : Option Nat := if canLower d1 then d1.thr.lowerSince.or (some d1.tim.ticks) else none
    govRaise { d1 with thr.lowerSince := since }

/-- AVS_RESPONSE: an AVSBus exchange ends (R179, R181); a raise that fell due while a lowering was on the bus is issued then
(log 79, 121). -/
def avsResponse (good : Bool) (d : Dev) : Dev :=
  match d.thr.avs with
  | none =>
    if good then { d with thr.avsErr := false, thr.readTries := 0 }
    else if d.thr.readTries + 1 < 3 then { d with thr.readTries := d.thr.readTries + 1 }
    else raiseVec 69 (addF Reg.thrAvsErrCnt 31 0 1 { d with thr.avsErr := true, thr.readTries := 0 })
  | some w =>
    if good then
      { d with thr.vcode := w.code, thr.avs := none, thr.avsErr := false,
               thr.repeatAt := if w.raise then some (d.tim.ticks + 2000) else d.thr.repeatAt }
      |> fun d1 => if w.raise || !govOn d1 then d1 else govRaise d1
    else if w.tries + 1 < 3 then { d with thr.avs := some { w with tries := w.tries + 1 } }
    else raiseVec 69 (addF Reg.thrAvsErrCnt 31 0 1 { d with thr.avs := none, thr.avsErr := true })

/-- GOVERNOR_REPEAT: 8 µs after an acknowledged raise the raise rule is evaluated again (R179). -/
def governorRepeat (d : Dev) : Dev :=
  match d.thr.repeatAt with
  | none => d
  | some t =>
    let d1 := advanceTicks t { d with thr.repeatAt := none }
    if govOn d1 then govRaise d1 else d1

/-- GOVERNOR_LOWER: the lowering condition has held for LOWER_MS (R179). -/
def governorLower (d : Dev) : Dev :=
  match d.thr.lowerSince with
  | none => d
  | some t =>
    if !govOn d || d.thr.avs.isSome || d.thr.avsErr then d
    else
      let d1 := advanceTicks (t + 250000 * fldA d Reg.thrGovCfg 7 0) d
      let d2 := { d1 with thr.lowerSince := some d1.tim.ticks }
      if vMin d2 < d2.thr.vcode then avsIssue (d2.thr.vcode - 1) false d2 else d2

/-- Firmware sets GOV_EN again at a boundary outside SERVICE and records an event (R182); the guard sees the word change (R89). -/
def rearmGovernor (d : Dev) : Dev :=
  if d.sys.mode = .service ∨ govOn d then d
  else event 0x07 2 [] (firmWrite Reg.thrCtl (putBits (regA d Reg.thrCtl) 0 0 1) d)

/-! ### The end of a pace window (R173, R175, R176) -/

/-- A change of the band in force. -/
def changeBand (b : Nat) (d : Dev) : Dev :=
  let d1 := if d.thr.band < b then addF Reg.thrBandChg 31 16 1 d else addF Reg.thrBandChg 15 0 1 d
  governor { d1 with thr.band := b }

/-- A measured band (R175). -/
def measuredBand (m : Nat) (d : Dev) : Dev :=
  if d.thr.band < m then changeBand m { d with thr.recent := [] }
  else
    let rs := ((m :: d.thr.recent).takeWhile (fun x => decide (x < d.thr.band))).take 8
    if rs.length = 8 then
      let b := rs.foldl max 0
      changeBand b { d with thr.recent := rs.takeWhile (fun x => decide (x < b)) }
    else { d with thr.recent := rs }

/-- BELOW (R176). -/
def measureBelow (d : Dev) : Dev :=
  let slow := decide (uMin d + Config.bandMargin.toNat < (Config.bandTh 14).toNat)
  if slow then
    (if d.thr.below then { d with thr.belowClear := 0 }
     else event 0x07 1 [uMin d] (raiseVec 69 { d with thr.below := true, thr.belowClear := 0 }))
  else if d.thr.below then
    (if d.thr.belowClear + 1 < 8 then { d with thr.belowClear := d.thr.belowClear + 1 }
     else { d with thr.below := false, thr.belowClear := 0 })
  else d

/-- The normalised count of a monitor: its count of the window times its fused scale factor, whose rounding is open (R173)
(log 52, 79, 90). -/
def normalised (n raw : Nat) : Nat := min 0xFFFF (openQuot ((raw * (Config.pmFactor n).toNat : Nat) : Int) 65536).toNat

/-- PACE_WINDOW_END: `raw` holds the sixteen oscillation counts of the window (log 79). -/
def paceWindowEnd (raw : List Nat) (d : Dev) : Dev :=
  let d1 := advanceTicks ((d.tim.ticks / 1000 + 1) * 1000) d
  let d2 := { d1 with thr.pm := (List.range 16).foldl (fun m n => smSet 0 m n (normalised n (raw.getD n 0))) [] }
  measuredBand (bandOf (uMin d2) 1) (measureBelow d2)

/-! ### Known-answer tests and retirement (R188–R190, R205, R206) -/

/-- Runs that a test picks stop with INTERNAL_ERROR for a lost cluster. -/
def loseRuns (phys : Nat) (p : Run → Bool) (d : Dev) : Dev :=
  (d.pln.runs.filter (fun r => decide (r.phase ≠ .queued) && p r)).foldl (fun d r => endRun r (lostCluster phys) d) d

/-- A cluster's record is replaced. -/
def setCluster (k : Nat) (c : Cluster) (d : Dev) : Dev :=
  { d with thr.clusters := (List.range 34).map (fun i => if i = k then c else clusterOf d i) }

/-- The retirement of a cluster is journaled: failures and state (type 0x09). -/
def journalCluster (k : Nat) (d : Dev) : Dev :=
  journal 9 k [(clusterOf d k).kaFails, b2n (decide ((clusterOf d k).state = 2))] 4 none false d

/-- A cluster is retired at once: a run whose record is executing on it is lost (R189); a spare that fails only stops being a
spare. -/
def retireCluster (k : Nat) (d : Dev) : Dev :=
  let c := clusterOf d k
  if c.state = 2 then d
  else
    let d1 := setCluster k { c with state := 2, logical := if c.state = 0 then c.logical else 0x3F } d
    let d2 := if c.state = 0 then
        loseRuns k (fun r => recWindow r c.logical && executing d r) { d1 with thr.shed := d1.thr.shed ++ [k] }
      else d1
    journalCluster k d2

/-- A test result enters the cluster's record (R188) (log 13). -/
def testResult (k margin : Nat) (pass : Bool) (d : Dev) : Dev :=
  let c := clusterOf d k
  let good := pass && decide (Config.kaMinMargin.toNat ≤ margin)
  let d1 := setCluster k { c with kaMargin := margin % 256, kaFails := if good then c.kaFails else (c.kaFails + 1) % 65536 } d
  if good then d1 else retireCluster k d1

/-- The run of the self-test service on an entry (R144). -/
def testRun (d : Dev) (s e : Nat) : Option Run :=
  d.pln.runs.find? (fun r => decide (r.kind = .selfTest ∧ r.slot = s ∧ r.entry = e))

/-- The self-test service starts a run of an entry of class 13 in force, after boot, where none is under way (R144, R188). -/
def startSelfTest (s e : Nat) (d : Dev) : Dev :=
  match planIn d s with
  | none => d
  | some pl =>
    let r := deviceRun .selfTest s e 0 pl d
    if (testRun d s e).isSome || decide (pl.entries.length ≤ e) || decide (r.cls ≠ 13) || unplacedSlot d s ||
        decide (d.sys.mode.code < 3) || !canStart d r then d
    else startRun r (addRun r d)

/-- No other run wants a cluster of the run's record (R188). -/
def idleFor (d : Dev) (r : Run) : Bool := !d.pln.runs.any (fun q => decide (q.id ≠ r.id) && wantsFabric d q && sameClusters q r)

/-- A KNOWN_ANSWER record ends: by cluster of its window, whether the results matched and the timing margin (R188) (log 13). -/
def testBodyOf (res : List (Bool × Nat)) (r : Run) (x : KRec) (d : Dev) : Dev :=
  (List.range x.width).foldl (fun d i => match res[i]? with
    | none => d
    | some v => testResult (physOf d (r.cluster + i)) v.2 v.1 d) d

/-- KNOWN_ANSWER: the self-test service runs a test record of an entry of class 13 on idle clusters, within the budgets of class 13
and not while PFAIL_N is low; `res` holds what each cluster of the record answers (R100, R144, R188) (log 13, 79). -/
def knownAnswer (s e : Nat) (res : List (Bool × Nat)) (d : Dev) : Dev :=
  let d1 := startSelfTest s e d
  match testRun d1 s e with
  | none => d1
  | some r => if d1.sys.pfail || !idleFor d1 r then d1 else runRecord 0x22 anyRec (plain (testBodyOf res)) r.id d1

/-- Spares in service: in-service clusters that the numbering after reset kept as spares. -/
def sparesUsed (d : Dev) : Nat :=
  ((List.range 34).filter (fun k => decide (32 ≤ k ∧ (clusterOf d k).state = 0))).length

/-- A retired cluster's logical number passes to the lowest spare, or is lost (R189, R190, R205, R206). -/
def substitute (k : Nat) (d : Dev) : Dev :=
  let c := clusterOf d k
  let l := c.logical
  let d0 := setCluster k { c with logical := 0x3F } { d with thr.shed := d.thr.shed.filter (fun x => x ≠ k) }
  match (List.range 34).find? (fun i => decide ((clusterOf d0 i).state = 1)) with
  | some s =>
    let d1 := setCluster s { clusterOf d0 s with state := 0, logical := l } d0
    let d2 := loseRuns k (fun r => runHolds d1 r l) d1
    event 0x07 3 [k, s, l] (raiseVec 69 (zeroHomesOn l d2))
  | none =>
    let hs := (d0.plc.homes.filter (fun h => decide (h.home = 0 ∧ h.c0 ≤ l ∧ l < h.c0 + h.width))).map (·.idx)
    let d1 := { d0 with plc.lost := d0.plc.lost ++ [(l, k)], plc.lostHomes := (d0.plc.lostHomes ++ hs).dedup }
    let d2 := loseRuns k (fun r => runWindow r l || runHolds d1 r l) d1
    replaceDue d2

/-- Spare substitution at a boundary. -/
def substituteAll (d : Dev) : Dev := d.thr.shed.foldl (fun d k => substitute k d) d

/-- DEGRADED (R95). -/
def setDegraded (d : Dev) : Dev :=
  { d with sys.degraded := decide (3 ≤ d.sys.mode.code) && (decide (0 < sparesUsed d) || !d.pln.cuts.isEmpty) }

/-- RE_PLACEMENT: on the tick of a frame boundary and with no run in progress the slots are placed afresh; a waiting PLACE_REBUILD
completes (R206, R212). -/
def rePlacement (d : Dev) : Dev :=
  if !d.plc.replacePend ∨ runInProgress d ∨ d.plc.replaceAt ≠ some d.tim.ticks then d
  else
    let o := replaceAll d
    match d.plc.rebuild with
    | some id => complete id (ok o.1 o.2.1 0 0) { o.2.2 with plc.rebuild := none }
    | none => o.2.2

/-- DEADLINE_REACHED: the time base reaches a run's deadline; the run stops at its next iteration boundary (R183). -/
def deadlineReached (id : Nat) (d : Dev) : Dev :=
  match findRun d id with
  | none => d
  | some r =>
    if r.deadline = 0 then d
    else
      let d1 := advanceTo r.deadline d
      match findRun d1 id with
      | some q => setRun { q with dlPassed := true } d1
      | none => d1

end Sys2Proof.Machine
end

