-- ==== Sys2Proof/Machine/Loops.lean ====
section
/-!
DEFINITION. The control-loop engine: samples, setpoints, retuning, trace and group 0x08
(spec/12_control_loops.md R280–R301).
-/

namespace Sys2Proof.Machine

/-! ### Shared pieces -/

/-- A loop. -/
def loopOf (d : Dev) (k : Nat) : LoopSt := smGet LoopSt.reset d.clp.loops k
/-- It is replaced. -/
def setLoop (k : Nat) (x : LoopSt) (d : Dev) : Dev := { d with clp.loops := smSet LoopSt.reset d.clp.loops k x }

/-- The twelve coefficient words in force: SHIFTS, then KP to BIAS. -/
def coefWords (d : Dev) (k : Nat) : List Nat :=
  regA d (Reg.clpLoopShifts k) :: (List.range 11).map (fun i => regA d (Reg.clpLoopCoef k i))

/-- An output instant of the frame of length l that began at t: t + 10 µs × ofs, and t + l − 10 µs when that lies at or beyond t + l
(R284, R312). -/
def outInstant (l t ofs : Nat) : Nat := if l ≤ 10000 * ofs then t + (l - 10000) / 10000 * 10000 else t + 10000 * ofs

/-- A value is entered in the engine's own launch entry. -/
def engineLaunch (i time value kind index : Nat) (d : Dev) : Dev :=
  let e : LEntry := { time := time, value := value, kind := kind, flags := 0, index := index, fireAt := time, owner := 0,
                      spec := none, bySpec := false, late := false }
  { d with lch.q := smSet none d.lch.q i (some e) }

/-! ### Sources (R283) -/

/-- A source: its value, and whether the selector is undefined or out of range. -/
def loopSource (d : Dev) (j : LoopJob) (sel : Nat) : Int × Bool :=
  let i := sel % 4096
  match sel / 4096 with
  | 0 => (0, false)
  | 1 => if i < 32 then ((smGet 0 j.cap.adc i : Nat), false) else (0, true)
  | 2 => if i < 1024 then (sx 32 (smGet 0 j.frozen i), false) else (0, true)
  | 3 => if i < 1024 then (sx 32 (smGet 0 j.words i), false) else (0, true)
  | 4 => if i < 16 then (sx 32 (smGet 0 j.cap.piCount i), false) else (0, true)
  | 5 => if i < 256 then ((loopOf d i).uPrev, false) else (0, true)
  | _ => (0, true)

/-- A destination: launch kind and index, or none; and whether the selector is at fault. -/
def loopDest (sel : Nat) : Option (Nat × Nat) × Bool :=
  let i := sel % 4096
  match sel / 4096 with
  | 0 => (none, false)
  | 1 => if i < 8 then (some (0, i), false) else (none, true)
  | 2 => if i < 16 then (some (1, i), false) else (none, true)
  | 3 => if i < 1024 then (some (6, i), false) else (none, true)
  | _ => (none, true)

/-- The range of a destination: DAC codes, the channel's period, s32. -/
def destRange (d : Dev) (kind i : Nat) : Int × Int :=
  match kind with
  | 0 => (0, 65535)
  | 1 => (0, (max 16 (fldA d (Reg.ioxPwmCfg i) 23 0) : Nat))
  | _ => (-2147483648, 2147483647)

/-! ### The control law (R288) -/

/-- rs(x, s). -/
def rshift (x : Int) (s : Nat) : Int := if s = 0 then x else (x + 2 ^ (s - 1)) / 2 ^ s

/-- clamp(x, lo, hi) with the limit that acted: 1 low, 2 high. -/
def clampFlag (x lo hi : Int) : Int × Nat :=
  let y := max x lo
  let z := min y hi
  (z, if z ≠ y then 2 else if y ≠ x then 1 else 0)

/-- What a sample computed, for its launch and its trace. -/
structure Sampled where
  y : Int
  sp : Int
  v : Int
  e : Int
  p : Int
  i : Int
  d : Int
  f : Int
  u : Int
  flags : Nat
  st : LoopSt
  deriving DecidableEq, Repr

/-- The control law on its inputs and coefficient words; `held` is u_held at a bumpless resumption. -/
def controlLaw (x : LoopSt) (ws : List Nat) (y sp v : Int) (integrating windup : Bool) (held : Option Int) : Sampled :=
  let sh := ws.getD 0 0
  let c (k : Nat) : Int := sx 32 (ws.getD k 0)
  let x1 := if x.first then { x with yPrev := y, spPrev := sp, spPrev2 := sp, dPrev := 0 } else x
  let e := satS32 (sp - y)
  let p := rshift (c 1 * e) (bits sh 4 0)
  let dRaw := rshift (c 4 * x1.dPrev) (bits sh 19 15) - rshift (c 3 * (y - x1.yPrev)) (bits sh 14 10)
  let d := satS32 dRaw
  let f := rshift (c 5 * v) (bits sh 24 20) + rshift (c 6 * (sp - 2 * x1.spPrev + x1.spPrev2)) (bits sh 29 25)
  let di := rshift (c 2 * e) (bits sh 9 5)
  let stopped := windup && ((x1.hiPrev && decide (0 < di)) || (x1.loPrev && decide (di < 0)))
  let ia : Int × Nat :=
    match held with
    | some h => ((clampFlag (h - (p + d + f + c 11)) (c 7) (c 8)).1, 0)
    | none => if integrating && !stopped then clampFlag (x1.iAcc + di) (c 7) (c 8) else (x1.iAcc, 0)
  let raw := p + ia.1 + d + f + c 11
  let u := clampFlag raw (c 9) (c 10)
  let sat := decide (e ≠ sp - y) || decide (d ≠ dRaw)
  let lf := (if ia.2 = 2 then 1 else 0) + (if ia.2 = 1 then 2 else 0) + (if u.2 = 2 then 4 else 0) + (if u.2 = 1 then 8 else 0)
  { y := y, sp := sp, v := v, e := e, p := p, i := ia.1, d := d, f := f, u := u.1,
    flags := 4 * lf + 64 * b2n sat,
    st := { x1 with iAcc := ia.1, dPrev := d, uPrev := u.1, yPrev := y, spPrev2 := x1.spPrev, spPrev := sp,
                    hiPrev := decide (u.1 ≠ raw ∧ u.1 = c 10), loPrev := decide (u.1 ≠ raw ∧ u.1 = c 9),
                    first := false, resume := false, computed := true, flags := lf, samples := (x.samples + 1) % 65536, coef := ws,
                    dirty := false } }

/-! ### Trace (R295, R296) -/

/-- A trace channel. -/
def traceOf (d : Dev) (c : Nat) : Trace := smGet Trace.idle d.clp.traces c
/-- It is replaced, CLP_TRC_c_STAT with it. -/
def setTrace (c : Nat) (t : Trace) (d : Dev) : Dev :=
  setP (Reg.clpTrcStat c) (t.state <<< 30 + t.recs.length) { d with clp.traces := smSet Trace.idle d.clp.traces c t }

/-- The node of a sample. -/
def traceNode (s : Sampled) : Nat → Int
  | 0 => s.y | 1 => s.sp | 2 => s.v | 3 => s.e | 4 => s.p | 5 => s.i | 6 => s.d | 7 => s.f | 8 => s.u
  | _ => (s.flags : Nat)

/-- The trigger of a channel at a sample. -/
def traceTrig (d : Dev) (t : Trace) (trig level : Nat) (node : Int) (flags : Nat) : Bool :=
  let l := sx 32 level
  match trig with
  | 0 => true
  | 1 => decide (l < node)
  | 2 => decide (node < l)
  | 3 => (match t.prev with
    | some q => decide (q ≤ l ∧ l < node)
    | none => false)
  | 4 => (match t.prev with
    | some q => decide (l ≤ q ∧ node < l)
    | none => false)
  | 5 => decide (flags &&& (level % 1024) ≠ 0)
  | 6 => decide (t.at_ ≤ now d)
  | _ => false

/-- One channel records a sample of loop k. -/
def traceSample (k frame : Nat) (s : Sampled) (d : Dev) (c : Nat) : Dev :=
  let t := traceOf d c
  let cfg := regP d (Reg.clpTrcCfg c)
  if bits cfg 31 24 ≠ k ∨ t.state = 0 ∨ t.state = 3 then d
  else
    let node := traceNode s (bits cfg 23 20)
    let r : Nat × Nat := (enc 32 node, frame % 2 ^ 32)
    if t.state = 1 then
      (if traceTrig d t (bits cfg 19 16) (regP d (Reg.clpTrcLevel c)) node s.flags then
        let pre := t.recs.drop (t.recs.length - bits cfg 11 0)
        bump 8 8 1 (setTrace c { t with state := if 4096 ≤ pre.length + 1 then 3 else 2, recs := pre ++ [r], trigTime := now d, trigPos := pre.length,
                                        prev := some node } d)
      else
        let rs := t.recs ++ [r]
        setTrace c { t with recs := rs.drop (rs.length - bits cfg 11 0), prev := some node } d)
    else
      let rs := t.recs ++ [r]
      setTrace c { t with recs := rs, state := if 4096 ≤ rs.length then 3 else 2, prev := some node } d

/-! ### Samples (R280–R284, R289, R290, R294) -/

/-- Flags of a sample enter CLP_LOOP_k_STAT. -/
def loopFlags (k flags : Nat) (d : Dev) : Dev := orP (Reg.clpLoopStat k) flags d

/-- The output of a sample is entered in the loop's launch entry, or is late; answers the flags it adds (R284). -/
def loopOutput (j : LoopJob) (k : Nat) (dest : Option (Nat × Nat)) (u : Int) (d : Dev) : Nat × Dev :=
  if d.sys.mode ≠ .standby ∧ d.sys.mode ≠ .run then (0, d)
  else match dest with
  | none => (0, d)
  | some (kind, i) =>
    let t := outInstant j.len j.cap.t (bits (regA d (Reg.clpLoopCfg k)) 19 10)
    let r := destRange d kind i
    let v := clampI r.1 r.2 u
    let sat := if v ≠ u then 64 else 0
    if t < now d then (sat + 256, bump 8 1 1 (addF Reg.clpLateCnt 31 0 1 d))
    else (sat, engineLaunch k t (enc 32 v) kind i d)

/-- The sample that LOOP_RETUNE skips (R294). -/
def skipSample (k : Nat) (q : Retune) (y sp : Int) (bad : Nat) (d : Dev) : Dev :=
  let x := loopOf d k
  let x1 := if x.first then { x with yPrev := y, spPrev := sp, spPrev2 := sp, dPrev := 0, first := false }
    else { x with yPrev := y, spPrev2 := x.spPrev, spPrev := sp }
  let c (i : Nat) : Int := sx 32 (q.words.getD i 0)
  let x2 := { x1 with dirty := true, retune := none,
                      iAcc := if q.preload then (clampFlag (sx 32 q.integ) (c 7) (c 8)).1 else x1.iAcc }
  let d1 := (List.range 12).foldl (fun d i => firmWrite (Reg.clpLoopShifts k + 4 * i) (q.words.getD i 0) d)
    (loopFlags k (2 + bad) (setLoop k x2 d))
  let d2 := if q.commitRef then setReference q.ref d1 else d1
  complete q.cmd (ok (lo32 (now d2)) (hi32 (now d2)) 0 0) (bump 8 5 1 d2)

/-- u_held of a loop whose destination has been driven since reset (R289). -/
def heldOf (x : LoopSt) (kind0 : Bool) (dest : Option (Nat × Nat)) : Option Int :=
  if kind0 then (if x.computed then some x.uPrev else none)
  else match dest with
  | some (k, i) => smGet none x.drove (4096 * k + i)
  | none => none

/-- A computed sample of loop k (R288). -/
def computeSample (j : LoopJob) (k : Nat) (y sp v : Int) (bad : Nat) (dest : Option (Nat × Nat)) (d : Dev) : Dev :=
  let x := loopOf d k
  let cfg := regA d (Reg.clpLoopCfg k)
  let integ := decide (d.sys.mode = .standby ∨ d.sys.mode = .run)
  let kind0 := decide (fldA d (Reg.clpLoopDst k) 15 12 = 0)
  let held := if x.resume && bitAt cfg 31 then heldOf x kind0 dest else none
  let s := controlLaw x (coefWords d k) y sp v integ (bitAt cfg 30) held
  let o := loopOutput j k dest s.u d
  let nc := if x.dirty then 512 else 0
  let fl := s.flags + bad + nc + o.1 - (if s.flags &&& 64 ≠ 0 ∧ o.1 &&& 64 ≠ 0 then 64 else 0)
  let d1 := loopFlags k fl (setLoop k s.st o.2)
  let d2 := bump 8 0 1 (if x.dirty then bump 8 2 1 (addF Reg.clpMixedCnt 31 0 1 d1) else d1)
  let d3 := if s.flags &&& 12 ≠ 0 then bump 8 3 1 d2 else d2
  let d4 := if s.flags &&& 48 ≠ 0 then bump 8 4 1 d3 else d3
  (List.range 8).foldl (traceSample k j.cap.frame { s with flags := fl }) d4

/-- CLE_CTL.ENABLE. -/
def logicOn (d : Dev) : Bool := fldA d Reg.cleCtl 0 0 = 1

/-- Scans are due in this mode (R309). -/
def scansRun (d : Dev) : Bool :=
  logicOn d && !d.cle.prog.isEmpty && decide (d.sys.mode = .standby ∨ d.sys.mode = .run)

/-- Jobs of step 3 that wait for step 2 go on, on the words as it left them, once no scan of their frame or of an earlier one is left
(R23, R27, R283). -/
def releaseLoops (d : Dev) : Dev :=
  { d with clp.jobs := d.clp.jobs.map (fun j =>
    if j.waitScan && !d.cle.scans.any (fun s => decide (s.cap.t ≤ j.cap.t)) then { j with waitScan := false, words := d.cle.words }
    else j) }

/-- Scans that have not started when scans no longer run are dropped (R28, R309). -/
def dropDue (d : Dev) : Dev :=
  if scansRun d then d else releaseLoops { d with cle.scans := d.cle.scans.filter (fun s => s.stage ≠ .due) }

/-- Frames whose step 3 has ended are over. -/
def endJobs (d : Dev) : Dev := { d with clp.jobs := d.clp.jobs.dropWhile (jobEnded d) }

/-- The next due loop of the oldest frame whose step 3 runs is sampled (log 125). -/
def sampleNext (d : Dev) : Dev :=
  match d.clp.jobs with
  | [] => d
  | j :: rest =>
    if j.waitScan then d
    else match nextLoop d j with
    | none => { d with clp.jobs := rest }
    | some k =>
      if classStops d 1 then meetCeil 1 d
      else
        let src := regA d (Reg.clpLoopSrc k)
        let dst := regA d (Reg.clpLoopDst k)
        let y := loopSource d j (bits src 15 0)
        let sp := loopSource d j (bits src 31 16)
        let v := loopSource d j (bits dst 31 16)
        let de := loopDest (bits dst 15 0)
        let bad := if y.2 || sp.2 || v.2 || de.2 then 128 else 0
        let d1 := charge 1 .beats (Config.loopBeats k).toNat { d with clp.jobs := { j with next := k + 1 } :: rest }
        match (loopOf d k).retune with
        | some q => skipSample k q y.1 sp.1 bad d1
        | none => computeSample j k y.1 sp.1 v.1 bad de.1 d1

/-- LOOP_SAMPLE: of the frames whose step 3 is under way the oldest that has a loop left. Until then a loop that comes to be enabled
and due before its read tick is sampled (R280) (log 154). -/
def loopSample (d : Dev) : Dev := sampleNext (endJobs (dropDue d))

/-- A write of a coefficient word, or of an enable word, by register (R289, R292). -/
def loopWritten (o old : Nat) (d : Dev) : Dev :=
  if 0x084000 ≤ o ∧ o < 0x088000 then
    (let k := (o - 0x084000) / 0x40
     let w := (o - 0x084000) % 0x40 / 4
     if 3 ≤ w ∧ w ≤ 14 then setLoop k { loopOf d k with dirty := true } d else d)
  else if Reg.clpEn 0 ≤ o ∧ o ≤ Reg.clpEn 7 then
    (List.range 32).foldl (fun d b =>
      let k := 32 * ((o - Reg.clpEn 0) / 4) + b
      if bitAt (regA d o) b && !bitAt old b then setLoop k { loopOf d k with first := true, resume := true } d else d) d
  else d

/-- A loop register is written. -/
def loopRegWrite (o w : Nat) (d : Dev) : Dev := loopWritten o (regA d o) (writePlain o w d)

/-- The mode leaves CONFIG: every loop's next sample is a first one (R289). -/
def loopsLeaveConfig (d : Dev) : Dev :=
  (List.range 256).foldl (fun d k => setLoop k { loopOf d k with first := true } d) d

/-- RUN is entered from HOLD: a bumpless resumption may follow (R289). -/
def loopsResume (d : Dev) : Dev :=
  (List.range 256).foldl (fun d k => if loopOn d k then setLoop k { loopOf d k with resume := true } d else d) d

/-! ### Setpoints (R285–R287) -/

/-- The live table as it is frozen at a boundary. -/
def freezeSetpoints (d : Dev) : SMap Nat :=
  (List.range 1024).foldl (fun m n => smSet 0 m n (regP d (Reg.clpSp n))) []

/-- Element i of a source: result operands 0–3, or the published state (R286). -/
def spElement (d : Dev) (source i : Nat) : Nat :=
  let a := if source = 4 then 0x30000040 + 8 * i else 0x34000000 + 0x1000000 * source + 8 * i
  rdKey8 d (tentTarget d a)

/-- The source code of a map entry. -/
def mapSource (m : SpMap) : Nat := if m.source = 1 then m.operand else if m.source = 2 then 4 else 5

/-- One map entry is converted (R287): entries converted, entries saturated or NaN. -/
def convertEntry (m : SpMap) (acc : Nat × Nat × Dev) : Nat × Nat × Dev :=
  let d := acc.2.2
  let x := ffma f64 (spElement d (mapSource m) m.element) (fconv f32 f64 m.scale) (fconv f32 f64 m.offset)
  let inf := !fIsNan f64 x && !fIsFin f64 x
  let v : Option Int := if inf then some (if bitAt x 63 then -2 ^ 40 else 2 ^ 40) else fToIntRNE f64 x
  match v with
  | none => (acc.1, acc.2.1 + 1, addF Reg.clpSpSatCnt 31 0 1 d)
  | some i =>
    let w := satS32 i
    let d1 := writePlain (Reg.clpSp m.sp) (enc 32 w) d
    if w = i then (acc.1 + 1, acc.2.1, d1) else (acc.1 + 1, acc.2.1 + 1, addF Reg.clpSpSatCnt 31 0 1 d1)

/-- A waiting SP_PUBLISH takes effect at a boundary. -/
def publishOne (d : Dev) (q : PubWait) : Dev :=
  let es := d.clp.map.filter (fun kv => decide (mapSource kv.2 = q.source) &&
    (match q.bitmap with
     | none => true
     | some b => bitAt (b.getD (kv.1 / 8) 0).toNat (kv.1 % 8)))
  let r := es.foldl (fun acc kv => convertEntry kv.2 acc) (0, 0, d)
  complete q.cmd (ok r.1 r.2.1 0 0) (bump 8 6 r.1 (bump 8 7 r.2.1 r.2.2))

/-- Conversions at a boundary tick (R287) (log 77). -/
def publishSetpoints (d : Dev) : Dev := d.clp.pubs.foldl publishOne { d with clp.pubs := [] }

/-! ### Commands of group 0x08 (R297–R299) -/

/-- Words of a buffer. -/
def bufWords (p : Pkt) (d : Dev) (n : Nat) : List Nat :=
  let b := rdBytes d (bufA p) (4 * n)
  (List.range n).map (fun i => fieldLE b (4 * i) 4)

def specLoopWrite : OpSpec :=
  { opBase 0x0801 0xE8 with
    bufUse := .read
    bufOk := fun p _ => decide (bufL p = 4 * param p 1)
    params := fun p _ =>
      (firstBad [ (decide (0xFFF < param p 0 ∨ 14 < bits (param p 0) 11 8), 0x20),
        (decide (param p 1 = 0 ∨ 15 < bits (param p 0) 11 8 + param p 1), 0x24) ]).or (zeroFrom p 2) }

/-- LOOP_WRITE: words as register writes, in ascending order. -/
def effLoopWrite : Nat → Pkt → Dev → Dev :=
  immediate fun p d =>
    let k := bits (param p 0) 7 0
    let w := bits (param p 0) 11 8
    let ws := bufWords p d (param p 1)
    (ok 0 0 0 0, (List.range ws.length).foldl (fun d i => loopRegWrite (Reg.clpLoopCfg k + 4 * (w + i)) (ws.getD i 0) d) d)

def specLoopRetune : OpSpec :=
  { opBase 0x0802 0xE8 with
    launch := fun _ => true
    bufUse := .read
    bufOk := fun p _ => decide (bufL p = 48)
    params := fun p _ => (firstBad [(decide (0xFF < param p 0), 0x20), (decide (3 < param p 1), 0x24)]).or (zeroFrom p 4)
    resources := fun p d =>
      if decide (0 < (bufWords p d 1).getD 0 0 >>> 30) then some (badParam 0x42)
      else if (loopOf d (param p 0)).retune.isSome then some (refuse stBusy 2) else none }

/-- LOOP_RETUNE: it waits for the loop's next due sample; a disabled loop or CONFIG takes it at acceptance (R294) (log 125). -/
def effLoopRetune (id : Nat) (p : Pkt) (d : Dev) : Dev :=
  let k := param p 0
  let q : Retune := ⟨id, bufWords p d 12, bitAt (param p 1) 0, param p 2, bitAt (param p 1) 1, param p 3⟩
  if (loopOf d k).retune.isSome then complete id (refuse stBusy 2) d
  else if loopOn d k ∧ d.sys.mode ≠ .config then setLoop k { loopOf d k with retune := some q } d
  else
    let c (i : Nat) : Int := sx 32 (q.words.getD i 0)
    let x := loopOf d k
    let d1 := setLoop k { x with dirty := true, iAcc := if q.preload then (clampFlag (sx 32 q.integ) (c 7) (c 8)).1 else x.iAcc } d
    let d2 := (List.range 12).foldl (fun d i => firmWrite (Reg.clpLoopShifts k + 4 * i) (q.words.getD i 0) d) d1
    let d3 := if q.commitRef then setReference q.ref d2 else d2
    complete id (ok (lo32 (now d3)) (hi32 (now d3)) 0 0) (bump 8 5 1 d3)

def specLoopEnable : OpSpec :=
  { opBase 0x0803 0xE8 with
    launch := fun _ => true
    params := fun p _ => (firstBad [(decide (0xFF < param p 0), 0x20), (decide (1 < param p 1), 0x24)]).or (zeroFrom p 2) }

/-- LOOP_ENABLE. -/
def effLoopEnable : Nat → Pkt → Dev → Dev :=
  immediate fun p d =>
    let k := param p 0
    let o := Reg.clpEn (k / 32)
    (ok 0 0 0 0, loopWritten o (regA d o) (firmWrite o (putBits (regA d o) (k % 32) (k % 32) (param p 1)) d))

/-- First entry and count of a table of `n` entries. -/
def spanParams (n : Nat) (p : Pkt) : Option Nat :=
  (firstBad [ (decide (n ≤ param p 0), 0x20),
    (decide (param p 1 = 0 ∨ n < param p 1 ∨ n < param p 0 + param p 1), 0x24) ]).or (zeroFrom p 2)

def specSpWrite : OpSpec :=
  { opBase 0x0804 0xE8 with
    launch := fun _ => true
    bufUse := .read
    bufOk := fun p _ => decide (bufL p = 4 * param p 1)
    params := fun p _ => spanParams 1024 p }

/-- SP_WRITE: the live table (R285). -/
def effSpWrite : Nat → Pkt → Dev → Dev :=
  immediate fun p d =>
    let ws := bufWords p d (param p 1)
    (ok 0 0 0 0, (List.range ws.length).foldl (fun d i => writePlain (Reg.clpSp (param p 0 + i)) (ws.getD i 0) d) d)

/-- A setpoint map entry of 16 bytes. -/
def spMapOf (b : List Byte) : SpMap :=
  ⟨fieldLE b 0 2, fieldLE b 2 1, fieldLE b 3 1, fieldLE b 4 4, fieldLE b 8 4, fieldLE b 12 4⟩

/-- A map entry is at fault (R298). -/
def spMapBad (m : SpMap) : Bool :=
  decide (2 < m.source ∨ 3 < m.operand ∨ 1023 < m.sp) || !fIsFin f32 m.scale || !fIsFin f32 m.offset

/-- The map entries of a buffer. -/
def spMapRecs (p : Pkt) (d : Dev) : List SpMap :=
  let b := rdBytes d (bufA p) (bufL p)
  (List.range (param p 1)).map (fun i => spMapOf (sliceB b (16 * i) 16))

def specSpMap : OpSpec :=
  { opBase 0x0805 0xE8 with
    bufUse := .read
    bufOk := fun p _ => decide (bufL p = 16 * param p 1)
    params := fun p _ => spanParams 1024 p
    resources := fun p d => ((spMapRecs p d).findIdx? spMapBad).map (fun i => bad1 0x40 (param p 0 + i)) }

/-- SP_MAP. -/
def effSpMap : Nat → Pkt → Dev → Dev :=
  immediate fun p d =>
    let ms := spMapRecs p d
    (ok 0 0 0 0, { d with clp.map := (List.range ms.length).foldl (fun t i =>
      smSet SpMap.unused t (param p 0 + i) (ms.getD i SpMap.unused)) d.clp.map })

def specSpPublish : OpSpec :=
  { opBase 0x0806 0xE8 with
    launch := fun _ => true
    bufUse := .read
    bufOk := fun p _ => decide (bufL p = 0 ∨ bufL p = 128)
    params := fun p _ => (firstBad [(decide (4 < param p 0), 0x20)]).or (zeroFrom p 1) }

/-- SP_PUBLISH: it waits for the next boundary (R287). -/
def effSpPublish (id : Nat) (p : Pkt) (d : Dev) : Dev :=
  let q : PubWait := ⟨id, param p 0, if bufL p = 0 then none else some (rdBytes d (bufA p) 128)⟩
  { d with clp.pubs := d.clp.pubs ++ [q] }

/-- A trace configuration is at fault (R298). -/
def traceBad (p : Pkt) : Bool :=
  let c := param p 1
  decide (9 < bits c 23 20 ∨ 6 < bits c 19 16 ∨ bits c 15 12 ≠ 0) || (decide (bits c 19 16 = 6) && !bitAt p.flags.toNat 1)

def specTraceArm : OpSpec :=
  { opBase 0x0807 0xF8 with
    launch := fun _ => true
    params := fun p _ => (firstBad [(decide (7 < param p 0), 0x20)]).or (zeroFrom p 3)
    resources := fun p _ => if traceBad p then some (badParam 0x41) else none }

/-- TRACE_ARM (R295, R296). -/
def effTraceArm : Nat → Pkt → Dev → Dev :=
  immediate fun p d =>
    let c := param p 0
    (ok 0 0 0 0, setTrace c { Trace.idle with state := 1, at_ := p.launchTime.toNat }
      (setPA (Reg.clpTrcLevel c) (param p 2) (setPA (Reg.clpTrcCfg c) (param p 1) d)))

/-- The bytes of a trace: header, records. -/
def traceBytes (d : Dev) (c n : Nat) : List Byte :=
  let t := traceOf d c
  leBytes 1 c ++ leBytes 1 t.state ++ leBytes 2 0 ++ leBytes 4 t.recs.length ++ leBytes 8 t.trigTime ++ leBytes 4 t.trigPos ++
  List.replicate 12 (0 : Byte) ++ (t.recs.take n).flatMap (fun r => leBytes 4 r.1 ++ leBytes 4 r.2)

def specTraceRead : OpSpec :=
  { opBase 0x0808 0xF8 with
    bufUse := .write
    bufOk := fun p _ => decide (32 ≤ bufL p)
    params := fun p _ => (firstBad [(decide (7 < param p 0), 0x20)]).or (zeroFrom p 1) }

/-- TRACE_READ, charged to class 14 (R296, R299). -/
def effTraceRead : Nat → Pkt → Dev → Dev :=
  immediate fun p d =>
    let c := param p 0
    let t := traceOf d c
    let n := min t.recs.length ((bufL p - 32) / 8)
    (⟨if n < t.recs.length then stPartial else stOk, 0, n, t.state, 0, 0⟩,
      charge 14 .beats (beatsOf (32 + 8 * n)) (wrBytes (bufA p) (traceBytes d c n) d))

/-! ### State readback (R300) -/

/-- READ_STATE 0x0800_0000 + k. -/
def loopState (d : Dev) (k : Nat) : List Byte :=
  let x := loopOf d k
  (List.range 12).flatMap (fun i => leBytes 4 (x.coef.getD i 0)) ++ leBytes 4 (enc 32 x.iAcc) ++ leBytes 4 (enc 32 x.dPrev) ++
  leBytes 4 (enc 32 x.uPrev) ++
  leBytes 2 (x.flags + 16 * b2n (loopOn d k) + 32 * b2n x.retune.isSome + 64 * b2n x.first) ++ leBytes 2 x.samples

end Sys2Proof.Machine
end

