-- ==== Sys2Proof/Machine/LogicCore.lean ====
section
/-!
DEFINITION. The cyclic logic engine: variables, instructions, changes and group 0x09
(spec/13_cyclic_logic.md R302–R308, R315–R320).
-/

namespace Sys2Proof.Machine

/-! ### Variables (R302) -/

/-- A bit variable. -/
def lbit (e : CleSt) (b : Nat) : Bool := smGet false e.bits_ b
/-- A bit variable is written. -/
def setLbit (b : Nat) (v : Bool) (e : CleSt) : CleSt := { e with bits_ := smSet false e.bits_ b v }
/-- A word variable as a pattern. -/
def lword (e : CleSt) (w : Nat) : Nat := smGet 0 e.words w
/-- A word variable as s32. -/
def lwordI (e : CleSt) (w : Nat) : Int := sx 32 (lword e w)
/-- A word variable is written. -/
def setLword (w v : Nat) (e : CleSt) : CleSt := { e with words := smSet 0 e.words w (v % 2 ^ 32) }
/-- A timer. -/
def timerOf (e : CleSt) (n : Nat) : Timer := smGet Timer.zero e.timers n
/-- A counter. -/
def counterOf (e : CleSt) (n : Nat) : Counter := smGet Counter.zero e.counters n

/-- The input region as the capture image gives it (R302, R303). -/
def latchInputs (c : Capture) (first : Bool) (e : CleSt) : CleSt :=
  let bs : List (Nat × Bool) :=
    (List.range 96).map (fun g => (g, bitAt c.gpio g)) ++ (List.range 32).map (fun n => (96 + n, bitAt c.win n)) ++
    (List.range 16).map (fun n => (128 + n, bitAt c.piLevel n)) ++
    [(144, first), (145, true), (146, c.degraded), (147, c.pfail), (148, c.lost)]
  let ws : List (Nat × Nat) :=
    (List.range 32).map (fun n => (n, smGet 0 c.adc n)) ++ (List.range 16).map (fun n => (32 + n, smGet 0 c.piCount n)) ++
    [(48, c.mode), (49, c.frame % 2 ^ 32), (50, c.band)]
  ws.foldl (fun e v => setLword v.1 v.2 e) (bs.foldl (fun e v => setLbit v.1 v.2 e) e)

/-! ### Instructions (R304–R308) -/

/-- An execution in progress: ACC, stack, the STACK events so far, the address, END reached. -/
structure Exec where
  acc : Bool
  stack : List Bool
  faults : Nat
  addr : Nat
  ended : Bool
  count : Nat
  vars : CleSt
  deriving DecidableEq, Repr

/-- A comparison op. -/
def logicCmp (op : Nat) (a b : Int) : Bool :=
  match op with
  | 0 => decide (a = b) | 1 => decide (a ≠ b) | 2 => decide (a < b)
  | 3 => decide (a ≤ b) | 4 => decide (b < a) | _ => decide (b ≤ a)

/-- A timer instruction: the timer after it; its q becomes ACC (R306). -/
def runTimer (type dt : Nat) (pv : Int) (inp : Bool) (t : Timer) : Timer :=
  let p := (max pv 0).toNat
  let et' := min (t.et + (if t.ran then 0 else dt)) p
  let t1 : Timer :=
    match type with
    | 0 =>
      let et := if inp && t.inPrev then et' else 0
      { t with et := et, q := inp && decide (p ≤ et) }
    | 1 =>
      if inp then { t with q := true, et := 0 }
      else if t.q then { t with et := et', q := decide (et' < p) }
      else t
    | _ =>
      if t.q then { t with et := et', q := decide (et' < p) }
      else if inp && !t.inPrev then { t with q := decide (0 < p), et := 0 }
      else t
  { t1 with inPrev := inp, ran := true }

/-- A counter instruction: the counter and ACC after it (R307). -/
def runCounter (type : Nat) (pw : Int) (acc : Bool) (c : Counter) : Counter × Bool :=
  let rise := acc && !c.prev
  match type with
  | 0 =>
    let v := if rise then satS32 (c.cv + 1) else c.cv
    (⟨v, acc⟩, decide (pw ≤ v))
  | 1 =>
    let v := if rise then satS32 (c.cv - 1) else c.cv
    (⟨v, acc⟩, decide (v ≤ 0))
  | 2 => (⟨if acc then 0 else c.cv, acc⟩, acc)
  | _ => (⟨if acc then pw else c.cv, acc⟩, acc)

/-- A pop: an empty stack yields 0 and a STACK event (R305). -/
def popBit (x : Exec) : Bool × Exec :=
  match x.stack with
  | [] => (false, { x with faults := x.faults + 1 })
  | b :: s => (b, { x with stack := s })

/-- One instruction. -/
def logicInstr (dt : Nat) (w : Nat) (x0 : Exec) : Exec :=
  let x := { x0 with addr := x0.addr + 1, count := x0.count + 1 }
  let e := x.vars
  let b := bits w 11 0
  let v := lbit e b
  let a := bits w 19 10
  let c := bits w 9 0
  match bits w 31 26 with
  | 0x01 => { x with acc := v }
  | 0x02 => { x with acc := !v }
  | 0x03 => { x with acc := x.acc && v }
  | 0x04 => { x with acc := x.acc && !v }
  | 0x05 => { x with acc := x.acc || v }
  | 0x06 => { x with acc := x.acc || !v }
  | 0x07 => { x with acc := x.acc != v }
  | 0x08 => { x with vars := setLbit b x.acc e }
  | 0x09 => { x with vars := setLbit b (!x.acc) e }
  | 0x0A => if x.acc then { x with vars := setLbit b true e } else x
  | 0x0B => if x.acc then { x with vars := setLbit b false e } else x
  | 0x0C => if 16 ≤ x.stack.length then { x with faults := x.faults + 1 } else { x with stack := x.acc :: x.stack }
  | 0x0D =>
    let q := popBit x
    { q.2 with acc := q.1 && x.acc }
  | 0x0E =>
    let q := popBit x
    { q.2 with acc := q.1 || x.acc }
  | 0x0F => { x with acc := x.acc && !v, vars := setLbit b x.acc e }
  | 0x10 => { x with acc := v && !x.acc, vars := setLbit b x.acc e }
  | 0x11 => { x with acc := !x.acc }
  | 0x14 =>
    let n := bits w 7 0
    let t := runTimer (bits w 19 18) dt (lwordI e (bits w 17 8)) x.acc (timerOf e n)
    { x with acc := t.q, vars := { e with timers := smSet Timer.zero e.timers n t } }
  | 0x15 =>
    let n := bits w 7 0
    let r := runCounter (bits w 19 18) (lwordI e (bits w 17 8)) x.acc (counterOf e n)
    { x with acc := r.2, vars := { e with counters := smSet Counter.zero e.counters n r.1 } }
  | 0x18 => { x with acc := x.acc && logicCmp (bits w 25 23) (lwordI e a) (lwordI e c) }
  | 0x19 => { x with acc := x.acc && logicCmp (bits w 25 23) (lwordI e c) (sx 13 (bits w 22 10)) }
  | 0x1A => if x.acc then { x with vars := setLword a (lword e c) e } else x
  | 0x1B => if x.acc then { x with vars := setLword c (enc 32 (sx 16 (bits w 25 10))) e } else x
  | 0x1C => if x.acc then { x with vars := setLword a (lword e a + lword e c) e } else x
  | 0x1D => if x.acc then { x with vars := setLword a (lword e a + 2 ^ 32 - lword e c) e } else x
  | 0x20 => { x with addr := bits w 15 0 }
  | 0x21 => if x.acc then { x with addr := bits w 15 0 } else x
  | 0x3F => { x with ended := true }
  | _ => x

/-- The program runs to its first END; jumps go forward, so its length bounds the instructions (R308). -/
def logicRun (prog : Array Nat) (dt : Nat) : Nat → Exec → Exec
  | 0, x => x
  | n + 1, x =>
    if x.ended then x
    else logicRun prog dt n (logicInstr dt (prog.getD x.addr 0xFC000000) x)

/-- A scan's instructions, after its input latch. -/
def runProgram (dt : Nat) (e : CleSt) : Exec :=
  logicRun e.prog.toArray dt e.prog.length
    { acc := true, stack := [], faults := 0, addr := 0, ended := false, count := 0,
      vars := { e with timers := smMap Timer.zero (fun _ t => { t with ran := false }) e.timers } }

/-! ### Validation (R316, R318) -/

/-- Operand bits that R304 names, by opcode; none for an undefined opcode. -/
def namedBits (op : Nat) : Option Nat :=
  if op = 0x00 ∨ op = 0x0C ∨ op = 0x0D ∨ op = 0x0E ∨ op = 0x11 ∨ op = 0x3F then some 0
  else if op ≤ 0x10 then some 0xFFF
  else if op = 0x14 ∨ op = 0x15 then some 0xFFFFF
  else if op = 0x18 then some 0x38FFFFF
  else if op = 0x19 ∨ op = 0x1B then some 0x3FFFFFF
  else if op = 0x1A ∨ op = 0x1C ∨ op = 0x1D then some 0xFFFFF
  else if op = 0x20 ∨ op = 0x21 then some 0xFFFF
  else none

/-- The first fault of the instruction at an address (R316). -/
def instrFault (len addr w : Nat) : Option Nat :=
  let op := bits w 31 26
  match namedBits op with
  | none => some 0x40
  | some m =>
    if ((op = 0x18 ∨ op = 0x19) ∧ 5 < bits w 25 23) ∨ (op = 0x14 ∧ bits w 19 18 = 3) then some 0x40
    else if bits w 25 0 &&& m ≠ bits w 25 0 then some 0x41
    else if [0x08, 0x09, 0x0A, 0x0B, 0x0F, 0x10].contains op && decide (bits w 11 0 < 256) then some 0x42
    else if [0x1A, 0x1C, 0x1D].contains op && decide (bits w 19 10 < 64) then some 0x42
    else if op = 0x1B ∧ bits w 9 0 < 64 then some 0x42
    else if (op = 0x20 ∨ op = 0x21) ∧ (bits w 15 0 ≤ addr ∨ len ≤ bits w 15 0) then some 0x43
    else none

/-- The fault of a program: DETAIL and address. -/
def progFault (ws : List Nat) : Option (Nat × Nat) :=
  let n := ws.length
  match (ws.zipIdx.findSome? (fun v => (instrFault n v.2 v.1).map (fun f => (f, v.2)))) with
  | some r => some r
  | none => if bits (ws.getLastD 0) 31 26 = 0x3F then none else some (0x44, n - 1)

/-- CLE_PROG_CRC of a program (R316). -/
def progCrc (ws : List Nat) : Nat := crc32c (ws.flatMap (leBytes 4))

/-! ### Changes (R315) -/

/-- A MOVK or CMPK with a new constant. -/
def patchWord (w : Nat) (v : Int) : Nat :=
  if bits w 31 26 = 0x1B then putBits w 25 10 (enc 16 v) else putBits w 22 10 (enc 13 v)

/-- One change is applied and its command completes with the time base of the tick. -/
def applyChange (d : Dev) : LogicChange → Dev
  | .word cmd w v =>
    complete cmd (ok (lo32 (now d)) (hi32 (now d)) 0 0) (bump 9 3 1 { d with cle := setLword w v d.cle })
  | .patch cmd a v =>
    let ws := d.cle.prog.set a (patchWord (d.cle.prog.getD a 0) (sx 32 v))
    complete cmd (ok (lo32 (now d)) (hi32 (now d)) 0 0)
      (bump 9 4 1 (setP Reg.cleProgCrc (progCrc ws) { d with cle.prog := ws }))

/-- Every waiting change is applied, in ring order. -/
def flushChanges (d : Dev) : Dev := d.cle.queue.foldl applyChange { d with cle.queue := [] }

/-- A change: queued while scans are due, else applied at once. -/
def logicChange (id : Nat) (c : LogicChange) (d : Dev) : Dev :=
  if scansRun d then
    (if 64 ≤ d.cle.queue.length then complete id (refuse stBusy 2) d else { d with cle.queue := d.cle.queue ++ [c] })
  else applyChange d c

/-- No room for a change. -/
def changeFull (d : Dev) : Option Res := if scansRun d ∧ 64 ≤ d.cle.queue.length then some (refuse stBusy 2) else none

/-! ### Commands of group 0x09 (R316–R318) -/

def specLogicLoad : OpSpec :=
  { opBase 0x0901 0x48 with
    bufUse := .read
    bufOk := fun p _ => decide (bufL p = 4 * param p 0)
    params := fun p _ => (firstBad [(decide (param p 0 = 0 ∨ 65536 < param p 0), 0x20)]).or (zeroFrom p 1)
    resources := fun p d => (progFault (bufWords p d (param p 0))).map (fun f => bad1 f.1 f.2) }

/-- LOGIC_LOAD (R316). -/
def effLogicLoad : Nat → Pkt → Dev → Dev :=
  immediate fun p d =>
    let ws := bufWords p d (param p 0)
    let crc := progCrc ws
    (ok crc 0 0 0, setP Reg.cleProgCrc crc { d with cle.prog := ws, cle.timers := [], cle.counters := [], cle.firstScan := true })

def specLogicWordWrite : OpSpec :=
  { opBase 0x0902 0xE8 with
    launch := fun _ => true
    params := fun p _ => (firstBad [(decide (param p 0 < 64 ∨ 1023 < param p 0), 0x20)]).or (zeroFrom p 2)
    resources := fun _ d => changeFull d }

/-- LOGIC_WORD_WRITE. -/
def effLogicWordWrite (id : Nat) (p : Pkt) (d : Dev) : Dev := logicChange id (.word id (param p 0) (param p 1)) d

/-- LOGIC_PATCH at an address that is no MOVK or CMPK, or out of its constant's range (R318). -/
def patchBad (p : Pkt) (d : Dev) : Bool :=
  let op := bits (d.cle.prog.getD (param p 0) 0) 31 26
  let v := sx 32 (param p 1)
  if op = 0x1B then decide (v < -32768 ∨ 32767 < v) else if op = 0x19 then decide (v < -4096 ∨ 4095 < v) else true

def specLogicPatch : OpSpec :=
  { opBase 0x0903 0xE8 with
    launch := fun _ => true
    params := fun p _ => (firstBad [(decide (65535 < param p 0), 0x20)]).or (zeroFrom p 2)
    resources := fun p d => if patchBad p d then some (badParam 0x45) else changeFull d }

/-- LOGIC_PATCH. -/
def effLogicPatch (id : Nat) (p : Pkt) (d : Dev) : Dev := logicChange id (.patch id (param p 0) (param p 1)) d

/-- A write to an input variable, or a bit value other than 0 or 1. -/
def varsBad (p : Pkt) (d : Dev) : Bool :=
  if param p 0 = 0 then
    decide (param p 1 < 256) || (rdBytes d (bufA p) (bufL p)).any (fun b => decide (1 < b.toNat))
  else decide (param p 1 < 64)

def specLogicVarsWrite : OpSpec :=
  { opBase 0x0904 0x48 with
    bufUse := .read
    bufOk := fun p _ => decide (bufL p = (if param p 0 = 0 then 1 else 4) * param p 2)
    params := fun p _ =>
      let n := if param p 0 = 0 then 4096 else 1024
      (firstBad [(decide (1 < param p 0), 0x20), (decide (n ≤ param p 1), 0x24), (decide (n < param p 1 + param p 2), 0x28)]).or
        (zeroFrom p 3)
    resources := fun p d => if varsBad p d then some (badParam 0x46) else none }

/-- LOGIC_VARS_WRITE. -/
def effLogicVarsWrite : Nat → Pkt → Dev → Dev :=
  immediate fun p d =>
    let b := rdBytes d (bufA p) (bufL p)
    let e := (List.range (param p 2)).foldl (fun e i =>
      if param p 0 = 0 then setLbit (param p 1 + i) (decide (fieldLE b i 1 = 1)) e
      else setLword (param p 1 + i) (fieldLE b (4 * i) 4) e) d.cle
    (ok 0 0 0 0, { d with cle := e })

def specLogicClear : OpSpec := opBase 0x0905 0x48
/-- LOGIC_CLEAR (log 126). -/
def effLogicClear : Nat → Pkt → Dev → Dev :=
  immediate fun _ d =>
    (ok 0 0 0 0, { d with cle.bits_ := d.cle.bits_.filter (fun kv => kv.1 < 256),
                          cle.words := d.cle.words.filter (fun kv => kv.1 < 64), cle.timers := [], cle.counters := [] })

def specLogicAck : OpSpec := opBase 0x0906 0xE8
/-- LOGIC_ACK (R314). -/
def effLogicAck : Nat → Pkt → Dev → Dev :=
  immediate fun _ d =>
    let f := regP d Reg.cleFault
    (ok f 0 0 0, bump 9 5 (f % 2 + f / 2 % 2) (setP Reg.cleFault 0 d))

def specLogicRead : OpSpec :=
  { opBase 0x0907 0xF8 with
    bufUse := .write
    bufOk := fun p _ => decide (bufL p = 4 * param p 1)
    params := fun p _ =>
      (firstBad [(decide (65535 < param p 0), 0x20), (decide (65536 < param p 0 + param p 1), 0x24)]).or (zeroFrom p 2) }

/-- LOGIC_READ. -/
def effLogicRead : Nat → Pkt → Dev → Dev :=
  immediate fun p d =>
    let ws := (d.cle.prog.drop (param p 0)).take (param p 1)
    (ok ws.length 0 0 0, wrBytes (bufA p) (ws.flatMap (leBytes 4)) d)

/-! ### Faults and state readback (R314, R319) -/

/-- A fault is latched: its bit, its counters by n events; the first latched one raises vector 71 and an event. Answers whether
the bit is new. -/
def latchLogicFault (bit n : Nat) (d : Dev) : Bool × Dev :=
  let f := regP d Reg.cleFault
  let d1 := orP Reg.cleFault (1 <<< bit) d
  let d2 := if bit = 0 then bump 9 1 n (addF Reg.cleOverrunCnt 31 0 n d1) else bump 9 2 n (addF Reg.cleStackCnt 31 0 n d1)
  (!bitAt f bit, if f = 0 then event 0x09 1 [bit] (raiseVec 71 d2) else d2)

/-- CLE_STAT as it reads. -/
def cleStat (d : Dev) : Nat :=
  let st := match d.cle.scans with
    | s :: _ => (match s.stage with
      | .due => 0
      | _ => 2)
    | [] => 0
  st <<< 18 + d.cle.prog.length

/-- READ_STATE 0x0900_0000. -/
def logicState (d : Dev) : List Byte :=
  let e := d.cle
  (List.range 512).map (fun i => u8 ((List.range 8).foldl (fun a k => a + b2n (lbit e (8 * i + k)) <<< k) 0)) ++
  (List.range 1024).flatMap (fun w => leBytes 4 (lword e w)) ++
  (List.range 256).flatMap (fun n =>
    let t := timerOf e n
    leBytes 4 t.et ++ leBytes 1 (b2n t.q + 2 * b2n t.inPrev + 4 * b2n t.ran) ++ List.replicate 11 (0 : Byte)) ++
  (List.range 256).flatMap (fun n =>
    let c := counterOf e n
    leBytes 4 (enc 32 c.cv) ++ leBytes 1 (b2n c.prev) ++ List.replicate 3 (0 : Byte)) ++
  leBytes 8 e.lastFrame ++ leBytes 4 e.prog.length ++ leBytes 4 (regP d Reg.cleProgCrc) ++ leBytes 4 (regP d Reg.cleLastDur) ++
  leBytes 1 (regP d Reg.cleFault % 4) ++ leBytes 1 e.queue.length

end Sys2Proof.Machine
end

