-- ==== Sys2Proof/Machine/Iox.lean ====
section
/-!
DEFINITION. The converters, the output latches, the pulse inputs and group 0x0A
(spec/15_measurement_io.md R346–R361; spec/23_electrical_package.md R502, R511).
-/

namespace Sys2Proof.Machine

/-! ### Converters (R346–R350) -/

/-- A converter. -/
def convOf (d : Dev) (c : Nat) : AdcConv := d.adc.convs.getD c AdcConv.idle
/-- It is replaced; ADC_STAT.BUSY follows. -/
def setConv (c : Nat) (x : AdcConv) (d : Dev) : Dev :=
  setF Reg.adcStat c c (b2n x.running.isSome) { d with adc.convs := d.adc.convs.set c x }

/-- The converter runs (R346). -/
def adcOn (d : Dev) (c : Nat) : Bool := bitAt (regA d Reg.adcCtl) c && decide (3 ≤ d.sys.mode.code)

/-- The configuration of sequence 4c + s. -/
def seqCfg (d : Dev) (q : Nat) : Nat := regA d (Reg.adcSeqCfg q)
/-- URGENT. -/
def seqUrgent (d : Dev) (q : Nat) : Bool := bitAt (seqCfg d q) 30
/-- The channel of an entry of a sequence. -/
def seqChannel (d : Dev) (q e : Nat) : Nat :=
  16 * (q / 4) + bits (regA d (if e < 8 then Reg.adcSeqCh0 q else Reg.adcSeqCh1 q)) (4 * (e % 8) + 3) (4 * (e % 8))

/-- A trigger tick: every enabled sequence of that trigger will raise its request (R347). -/
def adcTrigger (trig : Nat) (d : Dev) : Dev :=
  let rs := ((List.range 8).filter (fun q => bitAt (seqCfg d q) 31 && decide (bits (seqCfg d q) 29 24 = trig))).map
    (fun q => (⟨q, d.tim.ticks + bits (seqCfg d q) 15 0, none⟩ : AdcReq))
  { d with adc.reqs := d.adc.reqs ++ rs }

/-- The three outcomes ADC_START reports for a request. -/
inductive ReqOut
  | started | pending | dropped
  deriving DecidableEq, Repr

/-- A sequence's outcome enters its ADC_START, which completes with the last one (R358). -/
def reportReq (r : AdcReq) (o : ReqOut) (d : Dev) : Dev :=
  match r.cmd with
  | none => d
  | some id =>
    match d.adc.cmds.find? (fun x => x.cmd = id) with
    | none => d
    | some x =>
      let m := 1 <<< r.seq
      let y := match o with
        | .started => { x with left := x.left - 1, started := x.started ||| m }
        | .pending => { x with left := x.left - 1, pending := x.pending ||| m }
        | .dropped => { x with left := x.left - 1, dropped := x.dropped ||| m }
      let rest := d.adc.cmds.filter (fun z => z.cmd ≠ id)
      if y.left = 0 then complete id (ok y.started y.pending y.dropped 0) { d with adc.cmds := rest }
      else { d with adc.cmds := rest ++ [y] }

/-- The first conversion of a sequence starts. -/
def startSeq (c s : Nat) (d : Dev) : Dev :=
  setConv c { convOf d c with running := some (s, 0, d.tim.ticks, now d) } d

/-- One request is served (R348). -/
def serveReq (d : Dev) (r : AdcReq) : Dev :=
  let c := r.seq / 4
  let s := r.seq % 4
  let x := convOf d c
  let same := x.pending.contains s || (match x.running with
    | some v => decide (v.1 = s)
    | none => false)
  if !adcOn d c then reportReq r .dropped d
  else if same then reportReq r .dropped (bump 0xA 3 1 (addF Reg.adcStat 15 4 1 d))
  else if x.running.isNone then reportReq r .started (startSeq c s d)
  else if seqUrgent d r.seq then reportReq r .dropped (bump 0xA 2 1 (addF Reg.adcStat 31 16 1 d))
  else reportReq r .pending (setConv c { x with pending := x.pending ++ [s] } d)

/-- A free converter starts its lowest pending sequence. -/
def startPending (c : Nat) (d : Dev) : Dev :=
  let x := convOf d c
  if x.running.isSome ∨ x.pending.isEmpty ∨ !adcOn d c then d
  else
    let s := x.pending.foldl min 3
    startSeq c s (setConv c { x with pending := x.pending.filter (fun y => y ≠ s) } d)

/-- ADC_SEQUENCE_REQUEST: the requests of the earliest due tick: urgent ones first in ascending s, then the pending sequences of a
converter still free, then normal ones (R348) (log 149). -/
def adcRequests (d : Dev) : Dev :=
  match d.adc.reqs.map (·.due) with
  | [] => d
  | t :: ts =>
    let due := ts.foldl min t
    let d1 := advanceTicks due d
    let rs := d1.adc.reqs.filter (fun r => r.due = due)
    let d2 := { d1 with adc.reqs := d1.adc.reqs.filter (fun r => r.due ≠ due) }
    let order := (List.range 8).flatMap (fun q => rs.filter (fun r => r.seq = q))
    let urg := order.filter (fun r => seqUrgent d2 r.seq)
    let nor := order.filter (fun r => !seqUrgent d2 r.seq)
    nor.foldl serveReq (startPending 1 (startPending 0 (urg.foldl serveReq d2)))

/-- A window comparator's state after a code (R350). -/
def windowOut (d : Dev) (n code : Nat) (was : Bool) : Bool :=
  let lo := fldA d (Reg.adcWinLim n) 15 0
  let hi := fldA d (Reg.adcWinLim n) 31 16
  let hy := fldA d (Reg.adcWinHyst n) 15 0
  if !bitAt (regA d (Reg.adcWinHyst n)) 31 then false
  else if was then !(decide (lo + hy ≤ code ∧ code + hy ≤ hi)) else decide (code < lo ∨ hi < code)

/-- The newest result of a channel. -/
def resOf (d : Dev) (n : Nat) : AdcRes := smGet AdcRes.zero d.adc.res n

/-- Comparator n left its band: waiting WINDOW_ARM commands of its mask complete (R350, R359). -/
def windowLeft (n sample : Nat) (d : Dev) : Dev :=
  let d1 := bump 0xA 4 1 (orP Reg.adcWinEvt (1 <<< n) d)
  let hit := d1.adc.arms.filter (fun a => bitAt a.2 n)
  hit.foldl (fun d a => complete a.1 (ok (1 <<< n) n (lo32 sample) (hi32 sample)) d)
    { d1 with adc.arms := d1.adc.arms.filter (fun a => !bitAt a.2 n) }

/-- A result of a channel (R349, R350). -/
def adcResult (n code sample : Nat) (d : Dev) : Dev :=
  let old := resOf d n
  let was := bitAt (regP d Reg.adcWinStat) n
  let out := windowOut d n code was
  let r : AdcRes := ⟨code, d.tim.ticks, sample, old.count + 1, out⟩
  let d1 := { d with adc.res := smSet AdcRes.zero d.adc.res n r, adc.prev := smSet AdcRes.zero d.adc.prev n old }
  let d2 := setF Reg.adcWinStat n n (b2n out) (bump 0xA (n / 16) 1 d1)
  if out && !was then windowLeft n sample d2 else d2

/-- The code of an input voltage against a reference, both in µV (R502); outside the reference's range the spec relates
no code to the input (R511) (log 117). -/
def adcCode (n count : Nat) (vin : Int) (vref : Nat) (refOk : Bool) : Nat :=
  if refOk ∧ 0 < vref then (clampI 0 65535 (vin * 65536 / (vref : Int))).toNat else (Config.openCode n count).toNat

/-- ADC_CONVERSION_COMPLETE: converter c ends its conversion of an input of `vin` µV against `vref` µV (R349) (log 79). -/
def adcComplete (c : Nat) (vin : Int) (vref : Nat) (refOk : Bool) (d : Dev) : Dev :=
  match (convOf d c).running with
  | none => d
  | some (s, e, tick, time) =>
    let d1 := advanceTicks (tick + 250) d
    let n := seqChannel d1 (4 * c + s) e
    let d2 := adcResult n (adcCode n (resOf d1 n).count vin vref refOk) (time + 250) d1
    let x := convOf d2 c
    let free := { x with running := none, last := false }
    if x.last then startPending c (setConv c free d2)
    else if e < bits (seqCfg d2 (4 * c + s)) 23 20 then setConv c { x with running := some (s, e + 1, d2.tim.ticks, now d2) } d2
    else
      let d3 := setConv c free d2
      if d3.adc.reqs.any (fun r => decide (r.seq / 4 = c ∧ r.due ≤ d3.tim.ticks) && seqUrgent d3 r.seq) then d3
      else startPending c d3

/-- A converter that has just stopped: the conversion in progress will be its last, what is pending is discarded
(R346). -/
def adcStops (d : Dev) : Dev :=
  [0, 1].foldl (fun d c =>
    let x := convOf d c
    if adcOn d c then d
    else setConv c { x with pending := [], last := x.running.isSome } d) d

/-- ADC_TRIGGER_TIMER: timer t fires at its next instant in the frame (R347). -/
def adcTimer (t : Nat) (d : Dev) : Dev :=
  let cfg := regA d (Reg.adcTimerCfg t)
  let per := fldA d (Reg.adcTimerPeriod t) 23 0
  let start := d.sys.lastBoundary.getD 0
  let ofs := match smGet none (d.adc.timerLast.map (fun kv => (kv.1, some kv.2))) t with
    | none => bits cfg 23 0
    | some l => l - 1 + per
  let again := (smGet none (d.adc.timerLast.map (fun kv => (kv.1, some kv.2))) t).isSome
  if !bitAt cfg 31 ∨ (again ∧ per = 0) ∨ d.sys.frameLen ≤ 4 * ofs then d
  else
    let d1 := advanceTo (start + 4 * ofs) d
    adcTrigger t { d1 with adc.timerLast := smSet 0 d1.adc.timerLast t (ofs + 1) }

/-- ADC_START by register: enabled software-triggered sequences of the mask (R347). -/
def adcStartReg (mask : Nat) (d : Dev) : Dev :=
  let rs := ((List.range 8).filter (fun q => bitAt mask q && bitAt (seqCfg d q) 31 && decide (bits (seqCfg d q) 29 24 = 25))).map
    (fun q => (⟨q, d.tim.ticks + bits (seqCfg d q) 15 0, none⟩ : AdcReq))
  { d with adc.reqs := d.adc.reqs ++ rs }

/-- The result a capture on the present tick latches: the newest that completed before it (R349). -/
def capturedRes (d : Dev) (n : Nat) : AdcRes :=
  let r := resOf d n
  if r.count ≠ 0 ∧ d.tim.ticks ≤ r.done then smGet AdcRes.zero d.adc.prev n else r

/-! ### Latches (R351–R355) -/

/-- The device pulls HOLD_N low: outside RUN, and while released for a handover, but not in BACKUP, whose banks are unpowered
(R105, R414, R424). -/
def holdOut (d : Dev) : Bool := decide (d.sys.mode ≠ .backup) && (decide (d.sys.mode ≠ .run) || d.trl.released || !d.trl.lease)

/-- HOLD_N reads low: the device pulls it low, or another circuit does (R352). -/
def holdLow (d : Dev) : Bool := d.iox.holdExt || holdOut d

/-- The latches are frozen (R352). -/
def frozen (d : Dev) : Bool :=
  (decide (d.sys.mode = .run ∨ d.sys.mode = .hold ∨ d.sys.mode = .service)) &&
  (holdLow d || (d.iox.sense && decide (fldA d Reg.ioxCtl 0 0 = 1)))

/-- The pins follow the latches (R351). -/
def pinsLive (d : Dev) : Bool := decide (d.sys.mode = .run ∨ d.sys.mode = .hold ∨ d.sys.mode = .service)

/-- The code a DAC channel drives, its latch or its park register; none in BACKUP (R105, R351). -/
def dacPin (d : Dev) (n : Nat) : Option Nat :=
  if d.sys.mode = .backup then none
  else some (if pinsLive d then smGet 0 d.iox.dac n else fldA d (Reg.ioxDacPark n) 15 0)

/-- A value that a frozen latch discards (R352). -/
def frozenDiscard (d : Dev) : Dev := bump 0xA 5 1 (addF Reg.ioxFrozenCnt 31 0 1 d)

/-- OWNER of a GPIO pin. -/
def gpioOwner (d : Dev) (g : Nat) : Nat := fldA d (Reg.ioxGpioCfg g) 7 6

/-- A PWM channel. -/
def pwmOf (d : Dev) (n : Nat) : Pwm := smGet Pwm.reset d.iox.pwm n
/-- It is replaced. -/
def setPwm (n : Nat) (x : Pwm) (d : Dev) : Dev := { d with iox.pwm := smSet Pwm.reset d.iox.pwm n x }
/-- PERIOD applied, at least 16 (R353). -/
def pwmPeriod (d : Dev) (n : Nat) : Nat := max 16 (fldA d (Reg.ioxPwmCfg n) 23 0)
/-- The counter runs. -/
def pwmOn (d : Dev) (n : Nat) : Bool := bitAt (regA d (Reg.ioxPwmCfg n)) 31

/-- The level of a PWM pin: its counter's, by POL, or its park level; undriven in BACKUP (R105, R351, R353). -/
def pwmPin (d : Dev) (n : Nat) : Option Bool :=
  let x := pwmOf d n
  if d.sys.mode = .backup then none
  else if pinsLive d then
    some ((pwmOn d n && decide ((d.tim.ticks - x.start) % max 1 x.period < x.h)) != bitAt (regA d (Reg.ioxPwmCfg n)) 30)
  else some (bitAt (regA d (Reg.ioxPwmCfg n)) 28)

/-- The level that a GPIO pin is driven to, if any: its latch, or its park level where PARK_DRIVE is set; OPEN_DRAIN drives low only,
and an input is never driven (R105, R351, R354). -/
def gpioPin (d : Dev) (g : Nat) : Option Bool :=
  let cfg := regA d (Reg.ioxGpioCfg g)
  let v := if pinsLive d then some (smGet false d.iox.gpio g) else if bitAt cfg 2 then some (bitAt cfg 1) else none
  if d.sys.mode = .backup ∨ gpioOwner d g = 0 then none
  else if bitAt cfg 5 then v.filter (fun b => !b) else v

/-- A period of channel n starts on the present tick: period and high time are taken up, PWM event n (R347, R353). -/
def pwmStart (n : Nat) (d : Dev) : Dev :=
  let x := pwmOf d n
  adcTrigger (8 + n) (setPwm n { x with h := x.next, period := pwmPeriod d n, start := d.tim.ticks } d)

/-- PWM_PERIOD_START: the counter returns to 0. -/
def pwmPeriodStart (n : Nat) (d : Dev) : Dev :=
  if pwmOn d n then pwmStart n (advanceTicks ((pwmOf d n).start + (pwmOf d n).period) d) else d

/-- FRAME_SYNC channels restart at a boundary tick. -/
def pwmFrameSync (d : Dev) : Dev :=
  (List.range 16).foldl (fun d n =>
    if pwmOn d n && bitAt (regA d (Reg.ioxPwmCfg n)) 29 && decide ((pwmOf d n).start ≠ d.tim.ticks) then pwmStart n d else d) d

/-- A pulse output. -/
def poOf (d : Dev) (n : Nat) : PulseOut := smGet PulseOut.idle d.iox.po n
/-- It is replaced. -/
def setPo (n : Nat) (x : PulseOut) (d : Dev) : Dev := { d with iox.po := smSet PulseOut.idle d.iox.po n x }
/-- Owned by launches. -/
def poLaunch (d : Dev) (n : Nat) : Bool := bitAt (regA d (Reg.ioxPoCfg n)) 31

/-- The metering pulse outputs are driven in this mode (R105). -/
def pulsesDriven (d : Dev) : Bool :=
  match d.sys.mode with
  | .config | .run | .hold | .service => true
  | _ => false

/-- The level of a pulse output, by POL: its pulse while it is driven, else inactive, its parked state; OPEN_DRAIN drives the active
level only; undriven in BACKUP (R105, R351, R355) (log 117). -/
def poPin (d : Dev) (n : Nat) : Option Bool :=
  let cfg := regA d (Reg.ioxPoCfg n)
  let on := (poOf d n).active && (if poLaunch d n then pinsLive d else pulsesDriven d)
  if d.sys.mode = .backup ∨ (bitAt cfg 29 ∧ !on) then none else some (on != bitAt cfg 30)

/-- A pulse starts on the present tick (R355). -/
def pulseStart (n : Nat) (d : Dev) : Dev :=
  let x := poOf d n
  let w := d.tim.ticks + 2500 * fldA d (Reg.ioxPoTime n) 31 16
  setPo n { x with active := true, endActive := w, endGap := w + 2500 * fldA d (Reg.ioxPoTime n) 15 0 } d

/-- The output is idle: no pulse in progress and its gap over. -/
def poIdle (d : Dev) (n : Nat) : Bool := !(poOf d n).active && decide ((poOf d n).endGap ≤ d.tim.ticks)

/-- A launch-owned output with pulses left starts one, when idle. -/
def pulseTrain (n : Nat) (d : Dev) : Dev :=
  let x := poOf d n
  if x.remaining ≠ 0 ∧ poIdle d n then pulseStart n (setPo n { x with remaining := x.remaining - 1 } d) else d

/-- PULSE_OUTPUT_PULSE: the pulse in progress ends, or the next one starts once the gap is over (R355). -/
def pulseOutput (n : Nat) (d : Dev) : Dev :=
  let x := poOf d n
  if x.active then
    (let d1 := advanceTicks x.endActive d
     setPo n { poOf d1 n with active := false } d1)
  else if poLaunch d n ∧ x.remaining ≠ 0 then pulseTrain n (advanceTicks x.endGap d)
  else d

/-- Remaining pulses of launch-owned outputs are discarded (R355). -/
def discardPulses (d : Dev) : Dev :=
  (List.range 8).foldl (fun d n =>
    let x := poOf d n
    if poLaunch d n ∧ x.remaining ≠ 0 then
      bump 0xA 6 x.remaining (addF (Reg.ioxPoStat n) 31 16 x.remaining (setPo n { x with remaining := 0 } d))
    else d) d

/-- A value of a launch of kinds 0–3 reaches its latch (R340, R352–R355). -/
def latchValue (kind i v : Nat) (d : Dev) : Dev :=
  match kind with
  | 0 => if frozen d then frozenDiscard d else { d with iox.dac := smSet 0 d.iox.dac i (v % 65536) }
  | 1 =>
    if frozen d then frozenDiscard d
    else
      let x := { pwmOf d i with next := v }
      setPwm i (if pwmOn d i ∧ x.start = d.tim.ticks then { x with h := v } else x) d
  | 2 =>
    if gpioOwner d i ≠ 3 then d
    else if frozen d then frozenDiscard d
    else { d with iox.gpio := smSet false d.iox.gpio i (bitAt v 0) }
  | 3 =>
    if !poLaunch d i then d
    else if frozen d then frozenDiscard d
    else
      let x := poOf d i
      pulseTrain i (setPo i { x with remaining := if v = 0 then 0 else x.remaining + v } d)
  | _ => d

/-- The logic output image reaches the logic-owned pins (R312, R354). -/
def latchLogic (out : SMap Bool) (d : Dev) : Dev :=
  (List.range 96).foldl (fun d g =>
    if gpioOwner d g ≠ 2 then d
    else if frozen d then frozenDiscard d
    else { d with iox.gpio := smSet false d.iox.gpio g (smGet false out g) }) d

/-- Register-owned pins of word w take IOX_GPIO_OUT in RUN (R352). -/
def latchGpioOut (w : Nat) (d : Dev) : Dev :=
  (List.range 32).foldl (fun d b =>
    if gpioOwner d (32 * w + b) ≠ 1 then d
    else if frozen d then frozenDiscard d
    else { d with iox.gpio := smSet false d.iox.gpio (32 * w + b) (bitAt (regP d (Reg.ioxGpioOut w)) b) }) d

/-- GPIO_OUT_WRITE: IOX_GPIO_OUT_w is written; outside RUN it waits for the entry to RUN. -/
def gpioOutWrite (w : Nat) (v : Word) (d : Dev) : Dev :=
  let d1 := writePlain (Reg.ioxGpioOut w) v.toNat d
  if d1.sys.mode = .run then latchGpioOut w d1 else d1

/-- The tick of entry to RUN (R352). -/
def latchOnRun (d : Dev) : Dev := (List.range 3).foldl (fun d w => latchGpioOut w d) d

/-- HOLD_N_CHANGE: the levels another circuit gives HOLD_N and HOLD_SENSE_N (R352, R355) (log 7). -/
def holdChange (ext sense : Bool) (d : Dev) : Dev :=
  let d1 := { d with iox.holdExt := ext, iox.sense := sense }
  if frozen d1 && !frozen d then discardPulses d1 else d1

/-! ### Pulse inputs (R356) -/

/-- A pulse input. -/
def piOf (d : Dev) (n : Nat) : PulseIn := smGet PulseIn.reset d.iox.pi n

/-- PULSE_INPUT_EDGE: a filtered edge; it counts when enabled and selected, in the modes in which capture runs (log 7). -/
def pulseEdge (n : Nat) (rising : Bool) (d : Dev) : Dev :=
  let cfg := regA d (Reg.ioxPiCfg n)
  let d1 := { d with iox.piLevel := putBits d.iox.piLevel n n (b2n rising) }
  let sel := match bits cfg 9 8 with
    | 0 => rising
    | 1 => !rising
    | _ => true
  if bitAt cfg 31 && sel && decide (3 ≤ d.sys.mode.code) then
    { d1 with iox.pi := smSet PulseIn.reset d1.iox.pi n { piOf d1 n with count := ((piOf d1 n).count + 1) % 2 ^ 32, at_ := d1.tim.ticks } }
  else d1

/-- The counter as a capture on the present tick latches it: an edge of this tick belongs to the next frame (R25) (log 6). -/
def piLatched (d : Dev) (n : Nat) : Nat :=
  let x := piOf d n
  if x.count ≠ x.latched ∧ x.at_ = d.tim.ticks then (x.count + 2 ^ 32 - 1) % 2 ^ 32 else x.count

/-! ### Capture (R23, R349, R350, R354, R356) -/

/-- The capture image of the boundary at T, and its new samples of sources 1 and 4. -/
def captureIO (t : Nat) (d : Dev) : Capture × List Sample × Dev :=
  let rs := (List.range 32).map (fun n => (n, capturedRes d n))
  let ps := (List.range 16).map (fun n => (n, piLatched d n, (piLatched d n + 2 ^ 32 - (piOf d n).latched) % 2 ^ 32))
  let cap : Capture :=
    { t := t, frame := t / d.sys.frameLen,
      adc := rs.foldl (fun m v => smSet 0 m v.1 v.2.code) [],
      gpio := d.iox.gpioIn,
      win := rs.foldl (fun a v => if v.2.out && bitAt (regA d (Reg.adcWinHyst v.1)) 31 then a + 2 ^ v.1 else a) 0,
      piLevel := d.iox.piLevel,
      piCount := ps.foldl (fun m v => smSet 0 m v.1 v.2.2) [],
      degraded := d.sys.degraded, pfail := d.sys.pfail, lost := refLost d, mode := d.sys.mode.code, band := d.thr.band }
  let s1 := (rs.filter (fun v => v.2.count ≠ smGet 0 d.adc.capCount v.1)).map (fun v =>
    (⟨1, v.1, fOfInt f64 (v.2.code : Nat), v.2.sample, decide (v.2.code = 0 ∨ v.2.code = 65535)⟩ : Sample))
  let s4 := ps.map (fun v => (⟨4, v.1, fOfInt f64 (v.2.2 : Nat), t, false⟩ : Sample))
  let d1 := { d with adc.capCount := rs.foldl (fun m v => smSet 0 m v.1 v.2.count) d.adc.capCount,
                     iox.pi := ps.foldl (fun m v => smSet PulseIn.reset m v.1 { smGet PulseIn.reset m v.1 with latched := v.2.1 }) d.iox.pi }
  (cap, s1 ++ s4, d1)

/-! ### Commands of group 0x0A (R357–R359) -/

/-- The lowest named sequence that is not enabled or not software-triggered. -/
def adcStartBad (p : Pkt) (d : Dev) : Option Nat :=
  (List.range 8).find? (fun q => bitAt (param p 0) q && !(bitAt (seqCfg d q) 31 && decide (bits (seqCfg d q) 29 24 = 25)))

def specAdcStart : OpSpec :=
  { opBase 0x0A01 0xF8 with
    launch := fun _ => true
    params := fun p _ => (firstBad [(decide (0xFF < param p 0), 0x20)]).or (zeroFrom p 1)
    resources := fun p d => (adcStartBad p d).map (bad1 0x40) }

/-- ADC_START (R358). -/
def effAdcStart (id : Nat) (p : Pkt) (d : Dev) : Dev :=
  let qs := (List.range 8).filter (fun q => bitAt (param p 0) q)
  if qs.isEmpty then complete id (ok 0 0 0 0) d
  else
    { d with adc.cmds := d.adc.cmds ++ [⟨id, qs.length, 0, 0, 0⟩],
             adc.reqs := d.adc.reqs ++ qs.map (fun q => ⟨q, d.tim.ticks + bits (seqCfg d q) 15 0, some id⟩) }

/-- The comparators of a mask that are out of band. -/
def outOfBand (d : Dev) (mask : Nat) : Nat := regP d Reg.adcWinStat &&& mask

/-- The lowest set bit of a 32-bit mask. -/
def lowBit (m : Nat) : Nat := ((List.range 32).find? (fun b => bitAt m b)).getD 0

def specWindowArm : OpSpec :=
  { opBase 0x0A02 0xF8 with
    params := fun p _ => (firstBad [(decide (1 < param p 1), 0x24)]).or (zeroFrom p 2)
    resources := fun p d =>
      if param p 0 = 0 ∨ (List.range 32).any (fun n => bitAt (param p 0) n && !bitAt (regA d (Reg.adcWinHyst n)) 31) then
        some (badParam 0x41)
      else if 16 ≤ d.adc.arms.length && !(bitAt (param p 1) 0 && decide (outOfBand d (param p 0) ≠ 0)) then some (refuse stBusy 2)
      else none }

/-- WINDOW_ARM (R359). -/
def effWindowArm (id : Nat) (p : Pkt) (d : Dev) : Dev :=
  let m := outOfBand d (param p 0)
  if bitAt (param p 1) 0 && decide (m ≠ 0) then
    (let n := lowBit m
     let t := (resOf d n).sample
     complete id (ok m n (lo32 t) (hi32 t)) d)
  else { d with adc.arms := d.adc.arms ++ [(id, param p 0)] }

/-- The command fetched first that an opcode's TAG and ring name, among the ids given (R507). -/
def namedAmong (d : Dev) (ids : List Nat) (tag ring : Nat) : Option Nat :=
  (d.cmd.cmds.find? (fun c => ids.contains c.id && decide (c.pkt.tag.toNat = tag ∧ c.pkt.ring.val = ring))).map (·.id)

def specWindowDisarm : OpSpec :=
  { opBase 0x0A03 0xF8 with
    params := tagParams
    object := fun p d =>
      if (namedAmong d (d.adc.arms.map (·.1)) (param p 0) (param p 1)).isSome then none else some (conflictObj d 0xF8 1) }

/-- WINDOW_DISARM. -/
def effWindowDisarm : Nat → Pkt → Dev → Dev :=
  immediate fun p d =>
    match namedAmong d (d.adc.arms.map (·.1)) (param p 0) (param p 1) with
    | none => (conflictObj d 0xF8 1, d)
    | some a => (ok 0 0 0 0, complete a (refuse stCancelled 0) { d with adc.arms := d.adc.arms.filter (fun x => x.1 ≠ a) })

/-! ### State readback (R360) -/

/-- PINS of R360. -/
def ioPins (d : Dev) : Nat := b2n (holdLow d) + 2 * b2n d.iox.sense + 4 * b2n (frozen d)

/-- READ_STATE 0x0A00_0000. -/
def ioState (d : Dev) : List Byte :=
  (List.range 8).flatMap (fun n => leBytes 2 (smGet 0 d.iox.dac n) ++ leBytes 2 (fldA d (Reg.ioxDacPark n) 15 0)) ++
  (List.range 16).flatMap (fun n =>
    let x := pwmOf d n
    leBytes 4 x.period ++ leBytes 4 x.h ++ leBytes 4 x.next ++ leBytes 1 (fldA d (Reg.ioxPwmCfg n) 28 28) ++ leBytes 3 0) ++
  (List.range 96).flatMap (fun g =>
    leBytes 1 (gpioOwner d g) ++ leBytes 1 (b2n (smGet false d.iox.gpio g)) ++
    leBytes 1 (fldA d (Reg.ioxGpioCfg g) 1 1 + 2 * fldA d (Reg.ioxGpioCfg g) 2 2) ++ leBytes 1 (b2n (bitAt d.cap.gpio g))) ++
  (List.range 8).flatMap (fun n => leBytes 4 (poOf d n).remaining ++ leBytes 4 (fld d (Reg.ioxPoStat n) 31 16)) ++
  (List.range 16).flatMap (fun n => leBytes 4 (piOf d n).latched) ++ leBytes 1 (ioPins d)

end Sys2Proof.Machine
end

