-- ==== Sys2Proof/Machine/MeterCore.lean ====
section
/-!
DEFINITION. The electrical and heat meter: samples, cycles, bands, accumulators, pulses, events and saves
(spec/16_metering.md R362–R381).
-/

namespace Sys2Proof.Machine

/-! ### Numbers -/

/-- A binary32 register word as binary64. -/
def f32to64 (w : Nat) : Nat := fconv f32 f64 w
/-- A binary64 value as a binary32 word. -/
def f64to32 (x : Nat) : Nat := fconv f64 f32 x
/-- A UQ2.30 word. -/
def uq30 (w : Nat) : Nat := fOfRat f64 (w : Nat) (2 ^ 30)
/-- An integer as binary64. -/
def fnat (n : Nat) : Nat := fOfInt f64 (n : Nat)

/-- A sum of products in binary64 (log 112). -/
def sumProd (xs : List (Nat × Nat)) : Nat :=
  if xs.any (fun v => !fIsFin f64 v.1 || !fIsFin f64 v.2) || exactSum f64 0 xs then
    xs.foldl (fun s v => fadd f64 s (fmul f64 v.1 v.2)) 0
  else (Config.sum64 xs).toNat

/-- The mean of products. -/
def meanProd (xs : List (Nat × Nat)) : Nat := fdiv f64 (sumProd xs) (fnat xs.length)

/-- The value at num / den of the way from a to b (log 112). -/
def lerp (a b : Nat) (num : Int) (den : Nat) : Nat :=
  if num = 0 ∨ a = b then a else (Config.lerp64 a b num den).toNat

/-- A duration in ns as seconds. -/
def seconds (ns : Nat) : Nat := fOfRat f64 (ns : Nat) (10 ^ 9)

/-! ### Running, registers -/

/-- The electrical meter runs. -/
def elecOn (d : Dev) : Bool := bitAt (regA d Reg.mtrCtl) 0 && decide (3 ≤ d.sys.mode.code)
/-- The heat circuits run. -/
def heatOn (d : Dev) : Bool := bitAt (regA d Reg.mtrCtl) 1 && decide (3 ≤ d.sys.mode.code)
/-- The nominal frequency (MTR_CTL.FNOM). -/
def nomHz (d : Dev) : Nat := if bitAt (regA d Reg.mtrCtl) 2 then 60 else 50
/-- One nominal period in ns. -/
def nomPeriod (d : Dev) : Nat := (openQuot (10 ^ 9) (nomHz d)).toNat

/-- A phase. -/
def phaseOf (d : Dev) (p : Nat) : Phase := d.mtr.phases.getD p Phase.reset
/-- It is replaced; MTR_STAT shows its band. -/
def setPhase3 (p : Nat) (x : Phase) (d : Dev) : Dev :=
  setF Reg.mtrStat (3 * p + 2) (3 * p) x.band { d with mtr.phases := d.mtr.phases.set p x }

/-- The band target (MTR_TEMP). -/
def bandTarget (d : Dev) : Nat := fld d Reg.mtrTemp 18 16

/-- The correction that the registers give a channel in a band. -/
def calRegs (d : Dev) (n b : Nat) : ChanCal :=
  { offset := fldA d (Reg.mtrChOffset n) 23 0, scale := regA d (Reg.mtrChScale n),
    phcal := fldA d (Reg.mtrChPhcal n) 15 0, gain := regA d (Reg.mtrChGain n b) }

/-- The correction in force on a channel at a time. -/
def calAt (d : Dev) (n t : Nat) : ChanCal :=
  let h := smGet [] d.mtr.cal n
  match h.find? (fun c => decide (c.1 ≤ t)) with
  | some c => c.2
  | none => (h.getLast?.map (·.2)).getD default

/-- The newest correction of a channel: that of its open cycle. -/
def calNow (d : Dev) (n : Nat) : ChanCal := ((smGet [] d.mtr.cal n).head?.map (·.2)).getD default

/-- A channel takes up its registers at a time (R368). -/
def takeCal (n b t : Nat) (d : Dev) : Dev :=
  let c := calRegs d n b
  let h := smGet [] d.mtr.cal n
  if (h.head?.map (·.2)) = some c then d
  else { d with mtr.cal := smSet [] d.mtr.cal n (((t, c) :: h).take 4) }

/-- The channels of a phase (R362, R368). -/
def phaseChannels (p : Nat) : List Nat := if p = 0 then [0, 3, 6, 7] else [p, p + 3]

/-! ### Samples (R363) -/

/-- x of R363. -/
def corrected (c : ChanCal) (code : Int) : Nat :=
  fmul f64 (fmul f64 (fOfInt f64 (code - sx 24 c.offset)) (uq30 c.gain)) (f32to64 c.scale)

/-- The corrected sample delayed by PHCAL. -/
def delayedSample (c : ChanCal) (prev cur next : Int) : Nat :=
  let ph := sx 16 c.phcal
  let x := corrected c cur
  if 0 ≤ ph then lerp x (corrected c prev) ph (2 ^ 16) else lerp x (corrected c next) (-ph) (2 ^ 16)

/-- The code of a channel in a sample. -/
def codeOf (h : Nat × List Int) (n : Nat) : Int := h.2.getD n 0

/-- A channel's series with its neighbours, oldest first. -/
def series3 (f : Nat → ChanCal) (n : Nat) : List (Nat × List Int) → Option Int → List (Nat × Nat)
  | [], _ => []
  | [h], prev => [(h.1, delayedSample (f h.1) (prev.getD (codeOf h n)) (codeOf h n) (codeOf h n))]
  | h :: g :: l, prev =>
    (h.1, delayedSample (f h.1) (prev.getD (codeOf h n)) (codeOf h n) (codeOf g n)) ::
      series3 f n (g :: l) (some (codeOf h n))

/-- The corrected and delayed values of a channel over the history, oldest first: with the correction of its open
cycle, or with that of each sample's own time. -/
def series (own : Bool) (n : Nat) (d : Dev) : List (Nat × Nat) :=
  series3 (fun t => if own then calNow d n else calAt d n t) n d.mtr.hist.reverse none

/-- The values within [t, t + len). -/
def within (xs : List (Nat × Nat)) (t len : Nat) : List (Nat × Nat) := xs.filter (fun v => decide (t ≤ v.1 ∧ v.1 < t + len))

/-- The value a quarter of `len` before time t, interpolated linearly. -/
def quarterBefore (xs : List (Nat × Nat)) (len t : Nat) : Nat :=
  let at4 : Int := 4 * (t : Int) - len
  match xs.reverse.find? (fun v => decide (4 * (v.1 : Int) ≤ at4)), xs.find? (fun v => decide (at4 < 4 * (v.1 : Int))) with
  | some a, some b => lerp a.2 b.2 (at4 - 4 * a.1) (4 * (b.1 - a.1))
  | some a, none => a.2
  | none, some b => b.2
  | none, none => 0

/-! ### Accumulators and pulses (R370, R377) -/

/-- An accumulator. -/
def accOf (d : Dev) (a : Nat) : Accum := smGet Accum.zero d.mtr.accs a

/-- One increment of an accumulator. -/
def accAdd (x : Accum) (e : Nat) : Accum :=
  let r := fadd f64 x.residue e
  match fToRat f64 r with
  | none => { x with value := (Config.openFloor x.value r).toNat, residue := r }
  | some v =>
    let n := (v.1 / (v.2 : Int)).toNat
    let w := x.value + n
    { value := w % 2 ^ 64, wraps := (x.wraps + w / 2 ^ 64) % 2 ^ 32, residue := fsub f64 r (fnat n) }

/-- A metering pulse output. -/
def mpOf (d : Dev) (n : Nat) : MtrPulse := smGet MtrPulse.zero d.mtr.po n
/-- It is replaced; MTR_PO_n_PENDING follows. -/
def setMp (n : Nat) (x : MtrPulse) (d : Dev) : Dev :=
  setP (Reg.mtrPoPending n) (x.queue.length + x.restored) { d with mtr.po := smSet MtrPulse.zero d.mtr.po n x }
/-- The accumulator an output follows: 96–127 act as 0. -/
def poAcc (d : Dev) (n : Nat) : Nat := let a := fldA d (Reg.mtrPoSrc n) 6 0; if 96 ≤ a then 0 else a
/-- C: 0 acts as 1. -/
def poConst (d : Dev) (n : Nat) : Nat := max 1 (regA d (Reg.mtrPoConst n))

/-- The pulses of an increment E over [t0, t1] on an output (R377). -/
def pulsesOf (x : MtrPulse) (c e t0 t1 : Nat) : MtrPulse :=
  let s := fadd f64 x.r e
  match fToRat f64 s, fToRat f64 x.r, fToRat f64 e with
  | some sv, some rv, some ev =>
    let n := (sv.1 / ((c * sv.2 : Nat) : Int)).toNat
    let dues := (List.range n).map fun i =>
      let m : Int := (i : Int) + 1
      let num := (m * c * rv.2 - rv.1) * ev.2 * ((t1 - t0 : Nat) : Int)
      let den := rv.2 * ev.1.toNat
      ((t0 : Int) + (if den = 0 then 0 else openQuot num den) + 50000000).toNat
    { x with r := fsub f64 s (fmul f64 (fnat n) (fnat c)), queue := x.queue ++ dues }
  | _, _, _ => { x with r := s }

/-- An increment of accumulator a over [t0, t1]: the count, and the pulse outputs owned by metering that follow it. -/
def increment (a e t0 t1 : Nat) (d : Dev) : Dev :=
  let d1 := { d with mtr.accs := smSet Accum.zero d.mtr.accs a (accAdd (accOf d a) e) }
  (List.range 8).foldl (fun d n =>
    if poLaunch d n ∨ poAcc d n ≠ a then d else setMp n (pulsesOf (mpOf d n) (poConst d n) e t0 t1) d) d1

/-- The time base at a tick, past or present. -/
def timeAtTick (d : Dev) (k : Nat) : Int :=
  ((d.tim.acc : Int) + ((k : Int) - d.tim.ticks) * incr d.tim.rate) / 2 ^ 32

/-- METERING_PULSE_DUE: the next queued pulse of output n starts, at its instant or once the gap of the one before it
is over (R377, R378); restored pulses go first (R381). -/
def pulseDue (n : Nat) (d : Dev) : Dev :=
  let x := mpOf d n
  let gap := (poOf d n).endGap
  if poLaunch d n ∨ !pulsesDriven d then d
  else if x.restored ≠ 0 then
    bump 0xB 9 1 (pulseStart n (setMp n { x with restored := x.restored - 1 } (advanceTicks gap d)))
  else
    match x.queue with
    | [] => d
    | due :: rest =>
      let lag := decide ((due : Int) < timeAtTick d gap)
      let d1 := pulseStart n (setMp n { x with queue := rest } (advanceTo due (advanceTicks gap d)))
      let d2 := bump 0xB 9 1 d1
      if lag then bump 0xB 10 1 (addF (Reg.mtrPoLagged n) 31 0 1 d2) else d2

/-! ### Power-quality events (R375, R376) -/

/-- A record enters the FIFO and the recorder, and completes the waits it meets (R376, R382). -/
def pqRecord (e : PqOpen) (p until_ : Nat) (byPfail : Bool) (d : Dev) : Dev :=
  let r : PqRec := ⟨e.kind, p, byPfail, d.mtr.evSeq, e.start, until_ - e.start, if e.kind = 4 then 0 else f64to32 e.extreme⟩
  let drop := decide (64 ≤ d.mtr.fifo.length)
  let d1 := { d with mtr.fifo := (if drop then d.mtr.fifo.drop 1 else d.mtr.fifo) ++ [r],
                     mtr.evSeq := (d.mtr.evSeq + 1) % 2 ^ 32 }
  let d2 := bump 0xB (4 + e.kind) 1 (if drop then bump 0xB 11 1 d1 else d1)
  let d3 := event 0x0B 1 [r.kind, r.phase, b2n byPfail, r.seq, r.start, r.duration, r.extreme] d2
  let hit := d3.mtr.waits.filter (fun w => bitAt w.2.1 p && bitAt w.2.2 (e.kind - 1))
  hit.foldl (fun d w => complete w.1 (ok r.seq (256 * r.kind + r.phase) 0 0) d)
    { d3 with mtr.waits := d3.mtr.waits.filter (fun w => !(bitAt w.2.1 p && bitAt w.2.2 (e.kind - 1))) }

/-- The event mode of a phase. -/
def evMode (d : Dev) (p : Nat) : Nat := fldA d (Reg.mtrEvtCfg p) 31 30

/-- A level in UQ2.14 of UREF. -/
def level (d : Dev) (p th : Nat) : Nat := fmul f64 (fOfRat f64 (th : Nat) (2 ^ 14)) (f32to64 (regA d (Reg.mtrEvtUref p)))

/-- An RMS window of phase p has ended (R375). -/
def rmsWindow (p u e : Nat) (d : Dev) : Dev :=
  let x := phaseOf d p
  if evMode d p ≠ 1 then setPhase3 p { x with dip := none, dipOver := false, swell := none } d
  else
    let hy := fldA d (Reg.mtrEvtTh2 p) 15 0
    let sag := fldA d (Reg.mtrEvtTh1 p) 31 16
    let swl := fldA d (Reg.mtrEvtTh1 p) 15 0
    let int := fldA d (Reg.mtrEvtTh2 p) 31 16
    let belowSag := flt f64 u (level d p sag)
    let belowInt := flt f64 u (level d p int)
    let dip : Option PqOpen := match x.dip with
      | some o => some { o with kind := if belowInt then 3 else o.kind, extreme := if flt f64 u o.extreme then u else o.extreme }
      | none =>
        if belowInt then some ⟨3, e, u⟩ else if belowSag && !x.dipOver then some ⟨1, e, u⟩ else none
    let dipEnd := match dip with
      | some o => fle f64 (level d p ((if o.kind = 3 then int else sag) + hy)) u
      | none => false
    let over_ := if dipEnd then belowSag else x.dipOver && belowSag
    let sw : Option PqOpen := match x.swell with
      | some o => some { o with extreme := if flt f64 o.extreme u then u else o.extreme }
      | none => if flt f64 (level d p swl) u then some ⟨2, e, u⟩ else none
    let swEnd := sw.isSome && fle f64 u
      (fmul f64 (fOfRat f64 ((swl : Int) - hy) (2 ^ 14)) (f32to64 (regA d (Reg.mtrEvtUref p))))
    let d1 := setPhase3 p { x with dip := if dipEnd then none else dip, dipOver := over_,
                                   swell := if swEnd then none else sw } d
    let d2 := match dip with
      | some o => if dipEnd then pqRecord o p e false d1 else d1
      | none => d1
    match sw with
    | some o => if swEnd then pqRecord o p e false d2 else d2
    | none => d2

/-- ZERO_CROSSING_LOSS of phase p: ZX_TIMEOUT without an accepted crossing (R375) (log 113). -/
def zxLoss (p : Nat) (d : Dev) : Dev :=
  let x := phaseOf d p
  if !elecOn d ∨ !d.mtr.on ∨ evMode d p ≠ 2 ∨ x.zx.isSome then d
  else
    let t := (x.lastCross.getD x.start) + 1000000 * fldA d (Reg.mtrEvtCfg p) 15 0
    setPhase3 p { phaseOf (advanceTo t d) p with zx := some ⟨4, t, 0⟩ } (advanceTo t d)

/-- An accepted crossing ends a zero-crossing loss. -/
def zxEnd (p t : Nat) (d : Dev) : Dev :=
  let x := phaseOf d p
  match x.zx with
  | none => d
  | some o =>
    let d1 := setPhase3 p { x with zx := none } d
    if evMode d p = 2 then pqRecord o p t false d1 else d1

/-! ### Cycles (R364–R368, R371) -/

/-- The quantities of one cycle of a phase before correction: P, Q, S, P1, Q1, S1, then Vrms and Irms; none without a
sample. -/
def cycleRaw (p start len : Nat) (d : Dev) : Option (List Nat × Nat × Nat) :=
  let vAll := series true p d
  let v := within vAll start len
  let i := within (series true (p + 3) d) start len
  if v.isEmpty then none
  else
    let vi := v.zip i
    let pw := meanProd (vi.map (fun z => (z.1.2, z.2.2)))
    let qw := meanProd (vi.map (fun z => (quarterBefore vAll len z.1.1, z.2.2)))
    let vr := fsqrt f64 (meanProd (v.map (fun z => (z.2, z.2))))
    let ir := fsqrt f64 (meanProd (i.map (fun z => (z.2, z.2))))
    let vd := (Config.dft64 (v.map (fun z => (z.2, z.1 - start))) len).toNat
    let id := (Config.dft64 (i.map (fun z => (z.2, z.1 - start))) len).toNat
    let a := bits vd 63 0
    let b := bits vd 127 64
    let c := bits id 63 0
    let e := bits id 127 64
    let half := fOfRat f64 1 2
    let m (x y : Nat) := fmul f64 x y
    -- (a + jb)(c − je)
    let p1 := m half (fadd f64 (m a c) (m b e))
    let q1 := m half (fsub f64 (m b c) (m a e))
    let mag (x y : Nat) := fsqrt f64 (fadd f64 (m x x) (m y y))
    let s1 := m (m half (mag a b)) (mag c e)
    some ([pw, qw, m vr ir, p1, q1, s1], vr, ir)

/-- R366 for kind k of phase p (log 112). -/
def corrQ (d : Dev) (p k x : Nat) : Nat :=
  fadd f64 (fmul f64 x (uq30 (regA d (Reg.mtrQGain (6 * p + k))))) (f32to64 (regA d (Reg.mtrQOfs (6 * p + k))))

/-- The total set over a cycle of phase A (R366). -/
def totalSet (start len : Nat) (d : Dev) : List Nat :=
  let one (q : Bool) (p : Nat) : Nat :=
    let vAll := series false p d
    let vi := (within vAll start len).zip (within (series false (p + 3) d) start len)
    corrQ d p (b2n q) (meanProd (vi.map (fun z => (if q then quarterBefore vAll len z.1.1 else z.1.2, z.2.2))))
  let sum (f : Nat → Nat) := fadd f64 (fadd f64 (f 0) (f 1)) (f 2)
  let ph (k p : Nat) := (phaseOf d p).q.getD k 0
  [sum (one false), sum (one true), sum (ph 2), sum (ph 3), sum (ph 4), sum (ph 5)]

/-- The increments of a set at the close of its cycle (R371), in ascending index. -/
def energy (s : Nat) (q : List Nat) (t0 t1 : Nat) (d : Dev) : Dev :=
  let x (k : Nat) := q.getD k 0
  (List.range 6).foldl (fun d j =>
    let k := j
    let f := j / 3
    let imp := fle f64 0 (if j % 3 = 2 then x (3 * f) else x k)
    let e := fdiv f64 (fmul f64 (fabs f64 (x k)) (seconds (t1 - t0))) (fOfRat f64 36 10)
    increment (12 * s + 6 * f + 2 * (j % 3) + (if imp then 0 else 1)) e t0 t1 d) d

/-- Values of a set for the measurement list (R372). -/
def setVals (s : Nat) (q : List Nat) (t : Nat) : List MtrVal :=
  (List.range 6).map (fun k => ⟨2, 16 * s + k, q.getD k 0, t⟩)

/-- A cycle of phase p closes at tc (R365, R366, R371): quantities, increments, RMS registers and values. -/
def closeCycle (p tc : Nat) (d : Dev) : Dev :=
  let x := phaseOf d p
  let len := tc - x.start
  match cycleRaw p x.start len d with
  | none => setPhase3 p { x with start := tc, genuine := false, halfDone := false } d
  | some (raw, vr, ir) =>
    let q := (List.range 6).map (fun k => corrQ d p k (raw.getD k 0))
    let d1 := setPhase3 p { x with start := tc, genuine := false, halfDone := false, lastT := len, q := q } d
    let d2 := setP (Reg.mtrChRms p) (f64to32 vr) (setP (Reg.mtrChRms (p + 3)) (f64to32 ir) d1)
    let d3 := { d2 with mtr.vals := d2.mtr.vals ++ setVals p q tc ++ [⟨2, 16 * p + 6, vr, tc⟩, ⟨2, 16 * p + 7, ir, tc⟩] }
    rmsWindow p vr tc (energy p q x.start tc d3)

/-- What the closing of a cycle of phase A adds: the total set, channels 6 and 7 (R365, R366). -/
def closeTotal (start tc : Nat) (d : Dev) : Dev :=
  let q := totalSet start (tc - start) d
  let rms (n : Nat) := fsqrt f64 (meanProd ((within (series true n d) start (tc - start)).map (fun z => (z.2, z.2))))
  let n6 := rms 6
  let n7 := rms 7
  let d1 := setP (Reg.mtrChRms 6) (f64to32 n6) (setP (Reg.mtrChRms 7) (f64to32 n7) d)
  energy 3 q start tc { d1 with mtr.total := q, mtr.vals := d1.mtr.vals ++ setVals 3 q tc ++ [⟨2, 55, n6, tc⟩, ⟨2, 64, n7, tc⟩] }

/-- The line frequency is f Hz = 10⁹ / T (R364, R372). -/
def setFreq (t num den : Nat) (d : Dev) : Dev :=
  let d1 := setP Reg.mtrFreq (openQuot (2 ^ 24 * (num : Int)) den).toNat d
  { d1 with mtr.vals := d1.mtr.vals ++ [⟨2, 54, fOfRat f64 (num : Nat) den, t⟩] }

/-- The phase takes up its band target and its registers at the close of a cycle (R368) (log 111). -/
def switchBand (p tc : Nat) (d : Dev) : Dev :=
  let x := phaseOf d p
  let b := bandTarget d
  let d1 := if x.band = b then d else bump 0xB 3 1 (setPhase3 p { x with band := b } d)
  (phaseChannels p).foldl (fun d n => takeCal n b tc d) d1

/-- Cycles of the phases named end at their instants, the total set with phase A's (log 111). -/
def endCycles (cs : List (Nat × Nat)) (d : Dev) : Dev :=
  let startA := (phaseOf d 0).start
  let d1 := cs.foldl (fun d c => closeCycle c.1 c.2 d) d
  match cs.find? (fun c => c.1 = 0) with
  | some c => if (within (series true 0 d) startA (c.2 - startA)).isEmpty then d1 else closeTotal startA c.2 d1
  | none => d1

/-- Cycles close at crossings or as pseudo-cycles; then their phases switch (R368) (log 111). -/
def closeCycles (cs : List (Nat × Nat)) (d : Dev) : Dev := cs.foldl (fun d c => switchBand c.1 c.2 d) (endCycles cs d)

/-- History older than what the open cycles need is dropped. -/
def trimHist (d : Dev) : Dev :=
  let s := ([1, 2].map (fun p => (phaseOf d p).start)).foldl min (phaseOf d 0).start
  { d with mtr.hist := d.mtr.hist.filter (fun h => decide (s ≤ h.1 + 40000000)) }

/-- The sample that crossings of phase p are looked for in: the newest, or the one before it when a negative PHCAL
needs the sample after it. -/
def crossSample (p : Nat) (d : Dev) : Option (Nat × Nat) :=
  let xs := (series true p d).reverse
  if 0 ≤ sx 16 (calNow d p).phcal then xs.head? else (xs.drop 1).head?

/-- One look for a positive zero crossing of phase p (R364); the instant of an accepted one (log 111). -/
def lookCross (p : Nat) (d : Dev) : Option Nat × Dev :=
  let x := phaseOf d p
  match crossSample p d with
  | none => (none, d)
  | some (t, y) =>
    let neg := flt f64 y 0
    let pos := fle f64 0 y
    let x1 := { x with negRun := if neg then x.negRun + 1 else 0, prevT := t, prevX := y }
    let tc : Nat := match fToRat f64 x.prevX, fToRat f64 y with
      | some a, some b =>
        let na := (-a.1) * b.2
        x.prevT + (openQuot (((t - x.prevT : Nat) : Int) * na) ((b.1 * a.2 + na).toNat)).toNat
      | _, _ => t
    let early := match x.lastCross with
      | some l => decide (69 * (tc - l) < 10 ^ 9)
      | none => false
    if pos ∧ 40 ≤ x.negRun ∧ !early then (some tc, setPhase3 p { x1 with lastCross := some tc } d)
    else (none, setPhase3 p x1 d)

/-- The half-cycle RMS window of phase p, once its instant has passed (R375) (log 111). -/
def halfWindow (p : Nat) (d : Dev) : Dev :=
  let x := phaseOf d p
  let len := if x.lastT = 0 then nomPeriod d else x.lastT
  let e := x.start + len / 2
  if x.halfDone ∨ now d < e then d
  else
    let w := within (series true p d) (e - len) len
    let d1 := setPhase3 p { x with halfDone := true } d
    if w.isEmpty then d1 else rmsWindow p (fsqrt f64 (meanProd (w.map (fun z => (z.2, z.2))))) e d1

/-- Metering starts with a sample: no cycle has ended, the registers are in force. -/
def meterStart (t : Nat) (d : Dev) : Dev :=
  let d1 := { d with mtr.on := true, mtr.hist := [], mtr.cal := [] }
  [0, 1, 2].foldl (fun d p =>
    let x := phaseOf d p
    (phaseChannels p).foldl (fun d n => takeCal n x.band t d)
      (setPhase3 p { Phase.reset with start := t, band := x.band, q := x.q, prevT := t } d)) d1

/-- MTR_SAMPLE: the eight channels are sampled on their next tick (R362) (log 79). -/
def meterSample (codes : List Int) (d : Dev) : Dev :=
  if !elecOn d then d
  else
    let k := max (d.mtr.lastTick / 31250 + 1) (ceilDiv d.tim.ticks 31250) * 31250
    let d1 := advanceTicks k d
    let t := now d1
    let d2 := if d1.mtr.on then d1 else meterStart t d1
    let d3 := { d2 with mtr.lastTick := k, mtr.hist := (t, codes.map (fun c => sx 24 (enc 24 c))) :: d2.mtr.hist }
    let d4 := [0, 1, 2].foldl (fun d p => halfWindow p d) d3
    let r := [0, 1, 2].foldl (fun (r : List (Nat × Nat) × Dev) p =>
      let c := lookCross p r.2
      match c.1 with
      | some tc => (r.1 ++ [(p, tc)], c.2)
      | none => (r.1, c.2)) (([] : List (Nat × Nat)), d4)
    let wasA := phaseOf d4 0
    let d5 := closeCycles r.1 r.2
    let d6 := r.1.foldl (fun d c => zxEnd c.1 c.2 (setPhase3 c.1 { phaseOf d c.1 with genuine := true } d)) d5
    let d7 := match r.1.find? (fun c => c.1 = 0) with
      | some c =>
        if wasA.genuine ∧ wasA.start < c.2 then setFreq c.2 (10 ^ 9) (c.2 - wasA.start) (setF Reg.mtrStat 31 31 0 d6)
        else setF Reg.mtrStat 31 31 0 d6
      | none => d6
    trimHist d7

/-- PSEUDO_CYCLE of phase p: no crossing for 1.5 nominal periods after its last cycle (R364) (log 113). -/
def pseudoCycle (p : Nat) (d : Dev) : Dev :=
  if !elecOn d ∨ !d.mtr.on then d
  else
    let x := phaseOf d p
    let d1 := advanceTo (x.start + (openQuot (3 * 10 ^ 9) (2 * nomHz d)).toNat) d
    let tc := x.start + nomPeriod d1
    let d2 := bump 0xB 4 1 (closeCycles [(p, tc)] d1)
    let d3 := setPhase3 p { phaseOf d2 p with start := tc } d2
    trimHist (if p = 0 then setFreq tc (nomHz d3) 1 (setF Reg.mtrStat 31 31 1 d3) else d3)

/-- The threshold TB_k reached by a temperature; 0x7FFF never is. -/
def tbReached (d : Dev) (k : Nat) (temp : Int) : Bool :=
  let th := fldA d (Reg.mtrTb (k - 1)) 15 0
  decide (th ≠ 0x7FFF) && decide (sx 16 th ≤ temp)

/-- The band target from the band b in force (R367). -/
def targetOf (d : Dev) (b : Nat) (temp : Int) : Nat :=
  match [7, 6, 5, 4, 3, 2, 1].find? (fun j => decide (b < j) && tbReached d j temp) with
  | some j => j
  | none =>
    match (List.range 7).find? (fun j => decide (j < b) && decide (temp < sx 16 (fldA d (Reg.mtrTb j) 15 0) - 16)) with
    | some j => j
    | none => b

/-- MTR_TEMP_READ: the sensor is read 100 ms after its last reading (R367). -/
def meterTemp (temp : Int) (d : Dev) : Dev :=
  if !elecOn d then d
  else
    let d1 := advanceTicks (if d.mtr.tempTick = 0 then d.tim.ticks else d.mtr.tempTick + 25000000) d
    let t := sx 16 (enc 16 temp)
    let b := targetOf d1 (phaseOf d1 0).band t
    setP Reg.mtrTemp (b * 65536 + enc 16 t) { d1 with mtr.tempTick := d1.tim.ticks }

/-! ### Heat circuits (R373) -/

/-- The bilinear coefficient of a table at two temperatures, and whether one was clamped. -/
def heatK (d : Dev) (tb ts tr : Nat) : Nat × Bool :=
  match smGet none d.mtr.tables tb, fToRat f64 ts, fToRat f64 tr with
  | some h, some _, some _ =>
    let pos (x : Nat) : Nat × Nat × Nat × Bool :=   -- cell, numerator, denominator, clamped
      match fToRat f64 x, fToRat f64 (f32to64 h.theta0), fToRat f64 (f32to64 h.step) with
      | some a, some o, some s =>
        let num : Int := (a.1 * o.2 - o.1 * a.2) * s.2
        let den : Nat := a.2 * o.2 * s.1.toNat
        if num < 0 then (0, 0, 1, true)
        else if 15 * (den : Int) < num then (15, 0, 1, true)
        else (num.toNat / den, num.toNat % den, den, false)
      | _, _, _ => (0, 0, 1, true)
    let u := pos ts
    let v := pos tr
    let k (i j : Nat) := f32to64 (h.k.getD (16 * i + j) 0)
    let i1 := min 15 (u.1 + 1)
    let j1 := min 15 (v.1 + 1)
    let a := lerp (k u.1 v.1) (k u.1 j1) (v.2.1 : Nat) v.2.2.1
    let b := lerp (k i1 v.1) (k i1 j1) (v.2.1 : Nat) v.2.2.1
    (lerp a b (u.2.1 : Nat) u.2.2.1, u.2.2.2 || v.2.2.2)
  | some _, _, _ => ((Config.noTable tb ts tr).toNat, true)
  | none, _, _ => ((Config.noTable tb ts tr).toNat, false)

/-- One captured frame of a circuit is computed (R373). -/
def heatOne (j : HeatJob) (d : Dev) : Dev :=
  let cfg := regA d (Reg.mtrHcCfg j.c)
  let r (o : Nat) := f32to64 (regA d o)
  let temp (code : Nat) := fadd f64 (fmul f64 (fnat code) (r (Reg.mtrHcTscale j.c))) (r (Reg.mtrHcTofs j.c))
  let bad := decide (j.sup = 0 ∨ j.sup = 65535 ∨ j.ret = 0 ∨ j.ret = 65535)
  let old := smGet (0, 0) d.mtr.temps j.c
  let ts := if bad then old.1 else temp j.sup
  let tr := if bad then old.2 else temp j.ret
  let dv := fmul f64 (fnat j.pulses) (r (Reg.mtrHcVpp j.c))
  let dt := fsub f64 ts tr
  let k := heatK d (bits cfg 25 24) ts tr
  let low := flt f64 (fabs f64 dt) (r (Reg.mtrHcDtMin j.c))
  let q := if low then 0 else fmul f64 (fmul f64 dv k.1) dt
  let st := b2n bad + 2 * b2n k.2 + 4 * b2n low
  let d1 := orP (Reg.mtrHcStat j.c) st { d with mtr.temps := smSet (0, 0) d.mtr.temps j.c (ts, tr) }
  let d2 := if k.2 then bump 0xB 12 1 d1 else d1
  let eh := fdiv f64 (fabs f64 q) (fOfRat f64 36 10)
  let ev := fmul f64 (fnat 1000000) dv
  let d3 := increment (50 + 3 * j.c) ev j.tp j.t
    (increment (48 + 3 * j.c + (if fle f64 0 q then 0 else 1)) eh j.tp j.t d2)
  let sec := seconds (j.t - j.tp)
  { d3 with mtr.vals := d3.mtr.vals ++
    [⟨3, 4 * j.c, fdiv f64 q sec, j.t⟩, ⟨3, 4 * j.c + 1, fdiv f64 dv sec, j.t⟩,
     ⟨3, 4 * j.c + 2, ts, j.t⟩, ⟨3, 4 * j.c + 3, tr, j.t⟩] }

/-- HEAT_CIRCUIT_COMPUTE: the oldest captured frame of circuit c, unless class 6 is paused (R373). -/
def heatCompute (c : Nat) (d : Dev) : Dev :=
  match d.mtr.jobs.find? (fun j => j.c = c) with
  | none => d
  | some j =>
    if classStops d 6 then meetCeil 6 d
    else charge 6 .mgmt (Config.meterUs 0).toNat (heatOne j { d with mtr.jobs := d.mtr.jobs.erase j })

/-- The circuits computed each frame. -/
def heatCircuits (d : Dev) : List Nat :=
  (List.range 16).filter (fun c => heatOn d && bitAt (regA d (Reg.mtrHcCfg c)) 31)

/-- At a boundary: staged tables apply, and the circuits' frame is captured (R373, R382). -/
def meterBoundary (cap : Capture) (tp : Nat) (d : Dev) : Dev :=
  let d1 := { d with mtr.tables := d.mtr.staged.foldl (fun m kv => smSet none m kv.1 kv.2) d.mtr.tables, mtr.staged := [] }
  let js := (heatCircuits d1).map fun c =>
    let cfg := regA d1 (Reg.mtrHcCfg c)
    (⟨c, cap.t, tp, smGet 0 cap.piCount (bits cfg 19 16) - smGet 0 d1.mtr.taken c, smGet 0 cap.adc (bits cfg 12 8),
      smGet 0 cap.adc (bits cfg 4 0)⟩ : HeatJob)
  { d1 with mtr.jobs := d1.mtr.jobs ++ js, mtr.taken := [] }

/-- The values that wait for the capture (R372). -/
def meterVals (d : Dev) : List Sample × Dev :=
  (d.mtr.vals.map (fun v => (⟨v.source, v.index, v.raw, v.ts, false⟩ : Sample)), { d with mtr.vals := [] })

/-! ### Saves (R379–R381) -/

/-- The whole-unit pulse residue ⌊R⌋. -/
def wholeR (x : MtrPulse) : Nat :=
  match fToRat f64 x.r with
  | some v => (v.1 / (v.2 : Int)).toNat
  | none => (Config.openFloor 0 x.r).toNat

/-- SAVE_S in force: 0 acts as 1, above 60 as 60. -/
def saveS (d : Dev) : Nat := min 60 (max 1 (fldA d Reg.mtrSaveCfg 5 0))

/-- A metering journal item (R381), its wrap counts last; the save interval and the accumulators as given. -/
def saveItem (kind every : Nat) (values : List Nat) (d : Dev) : List Nat :=
  [kind, every, d.mtr.seq, if timeValid d then now d else 0, d.rtc.secs, if kind = 4 then d.mtr.lastRtc else 0] ++ values ++
  (if kind = 4 then List.replicate 16 0
   else (List.range 8).map (fun n => (mpOf d n).queue.length + (mpOf d n).restored) ++ (List.range 8).map (fun n => wholeR (mpOf d n))) ++
  (if kind = 1 ∨ kind = 3 then (List.range 96).map (fun a => (accOf d a).wraps) else [])

/-- The journal key of an item: the newest save, the newest gap, each final delta. -/
def saveKey (kind seq : Nat) : Nat := if kind = 2 then 2 + seq % 0xF0000 else if kind = 4 then 1 else 0

/-- An item is handed to the Granary; MTR_SAVE and MTR_PRESET complete with its commit. -/
def handSave (item : List Nat) (kind : Nat) (cmd : Option Nat) (d : Dev) : Dev :=
  let d1 := journal 2 (saveKey kind d.mtr.seq) item 0x380 (cmd.map (fun c => ⟨c, stOk, d.mtr.seq, 0, 0, 0⟩))
    (decide (kind = 2 ∨ kind = 3)) d
  charge 6 .mgmt (Config.meterUs 1).toNat { d1 with mtr.seq := (d.mtr.seq + 1) % 2 ^ 32 }

/-- An item of the interval in force is handed over. -/
def takeSave (kind : Nat) (values : List Nat) (cmd : Option Nat) (d : Dev) : Dev := handSave (saveItem kind (saveS d) values d) kind cmd d

/-- A gap record carries the save interval that was in force before the loss, as the newest record has it (R381) (log 150). -/
def takeGap (last : List Nat) (d : Dev) : Dev :=
  handSave (saveItem 4 (if last = [] then saveS d else last.getD 1 0) (List.replicate 96 0) d) 4 none d

/-- Every accumulator's value. -/
def accValues (d : Dev) : List Nat := (List.range 96).map (fun a => (accOf d a).value)

/-- A save is in flight. -/
def saveInFlight (d : Dev) : Bool :=
  d.grn.queue.any (fun r => decide (r.type = 2) && decide (r.data.head? = some 1 ∨ r.data.head? = some 3))

/-- PERIODIC_SAVE: SAVE_S seconds of pace-domain ticks after the last (R379); none between a final delta and the release
of PFAIL_N (R380). -/
def periodicSave (d : Dev) : Dev :=
  if d.sys.mode.code < 3 ∨ d.mtr.pfailed then d
  else
    let d1 := advanceTicks (d.mtr.saveTick + saveS d * 250000000) d
    takeSave 1 (accValues d1) none { d1 with mtr.saveTick := d1.tim.ticks }

/-- A metering item has committed. -/
def saveCommitted (item : List Nat) (d : Dev) : Dev :=
  let kind := item.getD 0 0
  let vals := (item.drop 6).take 96
  let put (f : Nat → Nat → Nat) : SMap Nat :=
    (List.range 96).foldl (fun m a => smSet 0 m a (f a (vals.getD a 0))) d.mtr.lastSave
  if kind = 4 then bump 0xB 2 1 d
  else
    let m := if kind = 2 then put (fun a v => (smGet 0 d.mtr.lastSave a + v) % 2 ^ 64) else put (fun _ v => v)
    bump 0xB (if kind = 1 then 0 else 1) 1
      { d with mtr.lastSave := m, mtr.lastSeq := item.getD 2 0, mtr.lastRtc := item.getD 4 0 }

/-- Open events are closed at the PFAIL_N tick (R376). -/
def closeEvents (d : Dev) : Dev :=
  [0, 1, 2].foldl (fun d p =>
    let x := phaseOf d p
    let d1 := setPhase3 p { x with dip := none, swell := none, zx := none } d
    [x.dip, x.swell, x.zx].foldl (fun d o => match o with
      | some e => pqRecord e p (now d) true d
      | none => d) d1) d

/-- The open frame of the circuits is computed on the PFAIL_N tick from the samples so far (R380). -/
def closeHeat (d : Dev) : Dev :=
  let d1 := d.mtr.jobs.foldl (fun d j => heatOne j d) { d with mtr.jobs := [] }
  (heatCircuits d1).foldl (fun d c =>
    let cfg := regA d (Reg.mtrHcCfg c)
    let pi := bits cfg 19 16
    let all := ((piOf d pi).count + 2 ^ 32 - (piOf d pi).latched) % 2 ^ 32
    let j : HeatJob := ⟨c, now d, d.sys.lastBoundary.getD (now d), all - smGet 0 d.mtr.taken c,
      (capturedRes d (bits cfg 12 8)).code, (capturedRes d (bits cfg 4 0)).code⟩
    if j.t ≤ j.tp then d else { heatOne j d with mtr.taken := smSet 0 d.mtr.taken c all }) d1

/-- PFAIL_N is latched: cycles and frames close, and the final delta goes to the Granary; a periodic save in flight is
abandoned (R380) (log 98). -/
def finalDelta (d : Dev) : Dev :=
  let d0 := if d.mtr.on ∧ elecOn d then endCycles [(0, now d), (1, now d), (2, now d)] d else d
  let d1 := closeEvents (closeHeat d0)
  let vals := (List.range 96).map (fun a => ((accOf d1 a).value + 2 ^ 64 - smGet 0 d1.mtr.lastSave a) % 2 ^ 64)
  let d2 := { d1 with grn.queue := d1.grn.queue.filter (fun r =>
    !(decide (r.type = 2) && decide (r.data.head? = some 1) && r.done.isNone)) }
  { takeSave 2 vals none d2 with mtr.pfailed := true }

/-- PFAIL_N releases without a reset: periodic saves resume from the final delta. -/
def meterResume (d : Dev) : Dev :=
  if d.mtr.pfailed then { d with mtr.pfailed := false, mtr.saveTick := d.tim.ticks } else d

/-- The accumulators resume at a start, and a gap record is written where the newest record is not in final form
(R381). `items` are the metering items of the journal by key. -/
def meterRestore (items : SMap (List Nat)) (d : Dev) : Dev :=
  let save := smGet [] items 0
  let saveSeq := save.getD 2 0
  let deltas := (items.filter (fun kv => decide (2 ≤ kv.1 ∧ saveSeq < kv.2.getD 2 0 ∨ 2 ≤ kv.1 ∧ save = []))).map (·.2)
  let dSorted := deltas.foldl (fun acc x =>
    acc.filter (fun y => decide (y.getD 2 0 ≤ x.getD 2 0)) ++ [x] ++ acc.filter (fun y => decide (x.getD 2 0 < y.getD 2 0))) []
  let base (a : Nat) : Accum := ⟨save.getD (6 + a) 0, save.getD (118 + a) 0, 0⟩
  let plus (x : Accum) (v : Nat) : Accum :=
    { x with value := (x.value + v) % 2 ^ 64, wraps := (x.wraps + (x.value + v) / 2 ^ 64) % 2 ^ 32 }
  let accs := (List.range 96).foldl (fun m a =>
    smSet Accum.zero m a (dSorted.foldl (fun x it => plus x (it.getD (6 + a) 0)) (base a))) []
  let last := (dSorted.getLast?).getD save
  let gap := smGet [] items 1
  let newest := ([save, last, gap].map (fun it => it.getD 2 0)).foldl max 0
  let final := decide (gap.getD 2 0 < newest ∨ gap = []) && decide (last.getD 0 0 = 2 ∨ last.getD 0 0 = 3)
  let none_ := decide (save = [] ∧ dSorted = [] ∧ gap = [])
  let po := (List.range 8).foldl (fun m n =>
    smSet MtrPulse.zero m n ⟨fnat (last.getD (110 + n) 0), [], last.getD (102 + n) 0, poAcc d n⟩) []
  let d1 := { d with
    mtr.accs := accs
    mtr.po := po
    mtr.seq := if none_ then 0 else (newest + 1) % 2 ^ 32
    mtr.lastSave := accs.foldl (fun m kv => smSet 0 m kv.1 kv.2.value) []
    mtr.lastSeq := last.getD 2 0
    mtr.lastRtc := last.getD 4 0
    mtr.saveTick := d.tim.ticks }
  let d2 := (List.range 8).foldl (fun d n => setMp n (mpOf d n) d) d1
  if none_ ∨ final then d2 else setF Reg.mtrStat 30 30 1 (takeGap last d2)

/-- The pulses that R owes once CONST has become smaller: they follow at once (R377) (log 150). -/
def owedPulses (n : Nat) (d : Dev) : Dev :=
  let x := mpOf d n
  let k := wholeR x / poConst d n
  setMp n { x with r := fsub f64 x.r (fmul f64 (fnat k) (fnat (poConst d n))), queue := x.queue ++ List.replicate k (now d) } d

/-- A strobe or a commit has changed applied registers: R is 0 after a change of ACC and stays after one of CONST, and a meter that
is switched off drops its open cycles (R377). -/
def meterStrobe (old d : Dev) : Dev :=
  let d1 := (List.range 8).foldl (fun d n =>
    let x := mpOf d n
    if x.acc ≠ poAcc d n then setMp n { x with acc := poAcc d n, r := 0 } d
    else if poConst d n = poConst old n ∨ poLaunch d n then d
    else owedPulses n d) d
  if elecOn d1 then d1 else { d1 with mtr.on := false }

end Sys2Proof.Machine
end

