-- ==== Sys2Proof/Machine/Meter.lean ====
section
/-!
DEFINITION. Group 0x0B and the metering state record (spec/16_metering.md R374, R382–R384).
-/

namespace Sys2Proof.Machine

/-- The accumulators a preset names are beyond 95 (R383). -/
def presetBad (p : Pkt) : Bool := decide (96 < param p 0 + param p 1)

def specMtrPreset : OpSpec :=
  { opBase 0x0B01 0x08 with
    bufUse := .read
    params := fun p _ => zeroFrom p 2
    bufOk := fun p _ => decide (bufL p = 8 * param p 1)
    resources := fun p _ => if presetBad p then some (badParam 0x42) else none }

/-- Accumulators from a0 on take values, and the pulse outputs they feed restart. -/
def presetApply (a0 : Nat) (vs : List Nat) (d : Dev) : Dev :=
  let n := vs.length
  let d1 := (List.range n).foldl (fun d i =>
    { d with mtr.accs := smSet Accum.zero d.mtr.accs (a0 + i) ⟨vs.getD i 0, 0, 0⟩ }) d
  (List.range 8).foldl (fun d k =>
    if a0 ≤ poAcc d k ∧ poAcc d k < a0 + n then setMp k { mpOf d k with r := 0 } d else d) d1

/-- The save of an MTR_PRESET has committed: its values are in force (R431). -/
def presetCommit (cmd : Nat) (d : Dev) : Dev :=
  match d.mtr.presets.find? (fun x => x.1 = cmd) with
  | some x => presetApply x.2.1 x.2.2 { d with mtr.presets := d.mtr.presets.filter (fun y => y.1 ≠ cmd) }
  | none => d

/-- MTR_PRESET (R382): values set, wrap counts, residues and R cleared, then a periodic save. -/
def effMtrPreset (id : Nat) (p : Pkt) (d : Dev) : Dev :=
  let a0 := param p 0
  let n := param p 1
  let vs := (List.range n).map (fun i => rdLE d (bufA p + 8 * i) 8)
  let d1 := presetApply a0 vs d
  let d2 := takeSave 1 (accValues d1) (some id) d1
  { d2 with mtr.accs := d.mtr.accs, mtr.po := d.mtr.po, mtr.presets := d.mtr.presets ++ [(id, a0, vs)] }

/-- A finite binary32 word above 0. -/
def f32Pos (w : Nat) : Bool := fIsFin f32 w && flt f32 0 w

/-- The first offset of a heat coefficient table that R374 forbids. -/
def heatBad (b : List Byte) : Option Nat :=
  if !fIsFin f32 (fieldLE b 0 4) then some 0
  else if !f32Pos (fieldLE b 4 4) then some 4
  else if fieldLE b 8 8 ≠ 0 then some 8
  else ((List.range 256).find? (fun i => !f32Pos (fieldLE b (0x10 + 4 * i) 4))).map (fun i => 0x10 + 4 * i)

def specMtrHeatTable : OpSpec :=
  { opBase 0x0B02 0xF8 with
    bufUse := .read
    params := fun p _ => (firstBad [(decide (3 < param p 0), 0x20)]).or (zeroFrom p 1)
    bufOk := fun p _ => decide (bufL p = 1040)
    resources := fun p d => (heatBad (rdBytes d (bufA p) 1040)).map (fun o => { badParam 0x40 with r0 := o }) }

/-- MTR_HEAT_TABLE: the table applies from the next frame boundary. -/
def effMtrHeatTable : Nat → Pkt → Dev → Dev :=
  immediate fun p d =>
    let b := rdBytes d (bufA p) 1040
    let h : HeatTable := ⟨fieldLE b 0 4, fieldLE b 4 4, (List.range 256).map (fun i => fieldLE b (0x10 + 4 * i) 4)⟩
    let t := nextBoundary d
    (ok (lo32 t) (hi32 t) 0 0, { d with mtr.staged := smSet none d.mtr.staged (param p 0) (some h) })

def specMtrSave : OpSpec :=
  { opBase 0x0B03 0xF8 with
    params := fun p _ => (firstBad [(decide (1 < param p 0), 0x20)]).or (zeroFrom p 1)
    resources := fun _ d => if saveInFlight d then some (refuse stBusy 1) else none }

/-- MTR_SAVE completes with its record's commit (R382, R431). -/
def effMtrSave (id : Nat) (p : Pkt) (d : Dev) : Dev :=
  takeSave (if bitAt (param p 0) 0 then 3 else 1) (accValues d) (some id) d

def specMtrEventWait : OpSpec :=
  { opBase 0x0B04 0xF8 with
    params := fun p _ => (firstBad [(decide (0xFF < param p 0) || bitAt (param p 0) 3, 0x20)]).or (zeroFrom p 1)
    resources := fun p d =>
      if bits (param p 0) 2 0 = 0 ∨ bits (param p 0) 7 4 = 0 then some (badParam 0x41)
      else if 16 ≤ d.mtr.waits.length then some (refuse stBusy 2) else none }

/-- MTR_EVENT_WAIT waits for a record of its masks. -/
def effMtrEventWait (id : Nat) (p : Pkt) (d : Dev) : Dev :=
  { d with mtr.waits := d.mtr.waits ++ [(id, bits (param p 0) 2 0, bits (param p 0) 7 4)] }

/-- The 32 bytes of an event record (R376). -/
def pqBytes (r : PqRec) : List Byte :=
  leBytes 1 r.kind ++ leBytes 1 r.phase ++ leBytes 2 (b2n r.byPfail) ++ leBytes 4 r.seq ++ leBytes 8 r.start ++
  leBytes 8 r.duration ++ leBytes 4 r.extreme ++ leBytes 4 0

def specMtrEventRead : OpSpec :=
  { opBase 0x0B05 0xF8 with
    bufUse := .write
    params := fun p _ => zeroFrom p 1
    bufOk := fun p _ => decide (32 ≤ bufL p) }

/-- MTR_EVENT_READ: records whose SEQ is not older than PARAM_0, oldest first. -/
def effMtrEventRead : Nat → Pkt → Dev → Dev :=
  immediate fun p d =>
    let rs := d.mtr.fifo.filter (fun r => decide ((r.seq + 2 ^ 32 - param p 0) % 2 ^ 32 < 2 ^ 31))
    let fit := rs.take (bufL p / 32)
    let oldest := match d.mtr.fifo.head? with
      | some r => r.seq
      | none => (Config.openResult 1).toNat
    (⟨if fit.length < rs.length then stPartial else stOk, 0, fit.length, oldest, 0, 0⟩,
      wrBytes (bufA p) (fit.flatMap pqBytes) d)

def specMtrEventDisarm : OpSpec :=
  { opBase 0x0B06 0xF8 with
    params := tagParams
    object := fun p d =>
      if (namedAmong d (d.mtr.waits.map (·.1)) (param p 0) (param p 1)).isSome then none else some (conflictObj d 0xF8 1) }

/-- MTR_EVENT_DISARM (R383). -/
def effMtrEventDisarm : Nat → Pkt → Dev → Dev :=
  immediate fun p d =>
    match namedAmong d (d.mtr.waits.map (·.1)) (param p 0) (param p 1) with
    | none => (conflictObj d 0xF8 1, d)
    | some a => (ok 0 0 0 0, complete a (refuse stCancelled 0) { d with mtr.waits := d.mtr.waits.filter (fun x => x.1 ≠ a) })

/-- READ_STATE 0x0B00_0000 (R384). -/
def meterState (d : Dev) : List Byte :=
  (List.range 96).flatMap (fun a =>
    let x := accOf d a
    leBytes 8 x.value ++ leBytes 4 x.wraps ++ leBytes 4 (f64to32 x.residue)) ++
  (List.range 3).flatMap (fun p => leBytes 8 ((phaseOf d p).lastCross.getD 0)) ++
  leBytes 8 (now d) ++ leBytes 4 d.mtr.lastSeq ++
  (List.range 3).flatMap (fun p => leBytes 1 (phaseOf d p).band) ++ leBytes 1 (bandTarget d) ++
  (List.range 8).flatMap (fun n =>
    leBytes 4 ((mpOf d n).queue.length + (mpOf d n).restored) ++ leBytes 4 0 ++ leBytes 8 (mpOf d n).r)

end Sys2Proof.Machine
end

