-- ==== Sys2Proof/Machine/Silo.lean ====
section
/-!
DEFINITION. The Silo: slots, services, signatures, re-masking, and group 0x10 (spec/20_silo_security.md R446–R461).
-/

namespace Sys2Proof.Machine

/-! ### Slots (R446–R451) -/

/-- The key of a slot as two shares under a fresh mask (R450). -/
def withShares (key : BitVec 512) (x : Slot) (d : Dev) : Slot × Dev :=
  let r := drbgDraw d
  let m : BitVec 512 := BitVec.ofNat 512 (r.1 % 2 ^ 512)
  ({ x with share0 := key ^^^ m, share1 := m }, r.2)

/-- A slot as a journal record of type 0x03 carries it (R451): the key stands in it as typed data. -/
def slotData (x : Slot) : List Nat :=
  [x.attr, x.expiry, x.next, x.height, (slotKey x).toNat, x.pub.length, leNat x.pub, x.image.length, leNat x.image]

/-- The slot that such a record restores, in state READY; TYPE 0 is an empty slot. -/
def slotOfData (l : List Nat) : Slot :=
  if attrType (l.getD 0 0) = 0 then Slot.none
  else
    { attr := l.getD 0 0, expiry := l.getD 1 0, state := .ready, share0 := BitVec.ofNat 512 (l.getD 4 0), share1 := 0,
      next := l.getD 2 0, height := l.getD 3 0, uses := 0, pub := leBytes (l.getD 5 0) (l.getD 6 0),
      image := leBytes (l.getD 7 0) (l.getD 8 0) }

/-- A slot enters the store under a fresh mask; a COMPAT slot keeps the static one. -/
def putSlot (s : Nat) (x : Slot) (d : Dev) : Dev :=
  if attrCompat x.attr ∨ x.state = .empty then setSlot s x d
  else
    let r := withShares (slotKey x) x d
    setSlot s r.1 r.2

/-- A change of the slot waits for its record. -/
def slotPending (d : Dev) (s : Nat) : Bool := d.grn.queue.any (fun r => decide (r.type = 3 ∧ r.key = s))

/-- The slot can take a new key. -/
def slotFree (d : Dev) (s : Nat) : Bool :=
  decide (2 ≤ s ∧ s < 256) && decide ((slotOf d s).state = .empty) && !slotPending d s

/-- A change of a slot: journaled and in force with its record, or at once for a volatile slot. `n` is the counter. -/
def changeSlot (id s n : Nat) (x : Slot) (life : Nat) (d : Dev) : Dev :=
  if life = 1 then complete id (ok 0 0 0 0) (bump 0x10 n 1 (putSlot s x d))
  else journal 3 s (slotData x ++ [n]) 80 (some ⟨id, stOk, 0, 0, 0, 0⟩) false d

/-- The record of a slot change has committed. -/
def slotCommitted (s : Nat) (data : List Nat) (d : Dev) : Dev :=
  bump 0x10 (data.getD 9 0) 1 (putSlot s (slotOfData data) d)

/-- Expiry: from the first RTC second at or after EXPIRY the slot is EXPIRED (R448). -/
def siloSecond (d : Dev) : Dev :=
  { d with sec.slots := smMap Slot.none (fun _ x =>
      if x.state = .ready ∧ attrLife x.attr = 2 ∧ x.expiry ≤ d.rtc.secs then { x with state := .expired } else x) d.sec.slots }

/-- The work of an operation is charged to the class of its command (R452). -/
def siloCharge (p : Pkt) (d : Dev) : Dev :=
  charge (pktClass p d) .beats (beatsOf (bufL p)) (charge (pktClass p d) .mgmt (Config.siloUs p.opcode.toNat).toNat d)

/-- An effect with refusals of its own: the refusal of a slot whose check fails also marks the slot (R450) (log 106). -/
def siloEff (slots : Pkt → List Nat) (f : Nat → Pkt → Dev → Res ⊕ Dev) (id : Nat) (p : Pkt) (d : Dev) : Dev :=
  match f id p d with
  | .inl x => complete id x (if x.status = stIntegrity ∧ x.detail = 1 then (slots p).foldl (fun d s => failCompat s d) d else d)
  | .inr d1 => siloCharge p d1

/-- The first refusal of several tests. -/
def firstRes : List (Option Res) → Option Res
  | [] => none
  | some x :: _ => some x
  | none :: l => firstRes l

/-- A test by condition. -/
def resIf (b : Bool) (x : Res) : Option Res := if b then some x else none

/-- Randomness is not to be had (R453). -/
def noRandom (mask : Nat) (d : Dev) : Option Res := resIf d.sec.trngFail (conflictObj d mask 4)

/-- EXPIRY of a packet that names one. -/
def expiryOf (p : Pkt) (attr k : Nat) : Nat := if attrLife attr = 2 then param64 p k else 0

/-! ### Keys in and out (R457) -/

def specSecGenerate : OpSpec :=
  { opBase 0x1001 0x88 with
    params := fun p _ => (firstBad [(decide (255 < param p 0), 0x20), (decide (2 < param p 4), 0x30)]).or (zeroFrom p 5)
    object := fun _ d => noRandom 0x88 d }

/-- SEC_GENERATE. -/
def effSecGenerate : Nat → Pkt → Dev → Dev :=
  siloEff (fun _ => []) fun id p d =>
    let s := param p 0
    let a := param p 1
    if !slotFree d s || !attrOk a || decide (attrType a = 4) then .inl (badParam 0x40)
    else
      let r := drbgDraw d
      let key := if attrType a = 3 then r.1 % 2 ^ 384 else r.1 % 2 ^ 256
      let x : Slot :=
        { attr := a, expiry := expiryOf p a 2, state := .ready, share0 := BitVec.ofNat 512 key, share1 := 0, next := 0,
          height := if attrType a = 3 then 5 * (param p 4 + 1) else 0, uses := 0, pub := [], image := [] }
      .inr (changeSlot id s 0 x (attrLife a) r.2)

def specSecImport : OpSpec :=
  { opBase 0x1002 0x88 with
    bufUse := .read
    params := fun p _ => (firstBad [(decide (0x1FFFF < param p 0), 0x20)]).or (zeroFrom p 4) }

/-- SEC_IMPORT: a wrapped key, an ISV-7100 image, or a plain public key. -/
def effSecImport : Nat → Pkt → Dev → Dev :=
  siloEff (fun p => [bits (param p 0) 15 8]) fun id p d =>
    let s := bits (param p 0) 7 0
    let w := bits (param p 0) 15 8
    let compat := bitAt (param p 0) 16
    let a := param p 1
    let t := attrType a
    let b := rdBytes d (bufA p) (bufL p)
    let pub := !compat && decide (t = 4)
    let want := if compat then 56 else if t = 4 then 60 else 40
    let un := kwUnwrap (keyBytes (slotOf d w)) b
    match firstRes
      [ resIf (!slotFree d s || (!compat && !attrOk a)) (badParam 0x40),
        resIf ((!compat && decide (t = 3)) || decide (bufL p ≠ want)) (badParam 0x41),
        (if pub then none else slotRefusal d w [1] 6 (pktClass p d) none),
        resIf (!pub && un.isNone) (refuse stSignature 0x11) ] with
    | some x => .inl x
    | none =>
      let base : Slot := { Slot.none with attr := a, expiry := expiryOf p a 2, state := .ready }
      if pub then .inr (changeSlot id s 1 { base with pub := b } (attrLife a) d)
      else
        let d1 := countUse w d
        if compat then
          let img := un.getD []
          let ca := (Config.isvAttr (fieldLE img 0 2) (fieldLE img 2 2) 0).toNat ||| 0x800
          let x : Slot := { Slot.none with attr := ca, expiry := expiryOf p ca 2, state := .ready, image := img,
                                           share0 := BitVec.ofNat 512 (fieldLE img 4 32) }
          if compatOk x then .inr (changeSlot id s 1 x (attrLife ca) d1) else .inl (refuse stIntegrity 0x02)
        else .inr (changeSlot id s 1 { base with share0 := BitVec.ofNat 512 (leNat (un.getD [])) } (attrLife a) d1)

/-- The bytes of a key as SEC_EXPORT wraps them: key wrap takes whole 8-byte blocks, so a public key ends in 4 zero bytes (log 107). -/
def exportBytes (x : Slot) : List Byte :=
  match attrType x.attr with
  | 3 => leBytes 48 (slotKey x).toNat
  | 4 => sliceB x.pub 0 64
  | _ => keyBytes x

def specSecExport : OpSpec :=
  { opBase 0x1003 0x88 with
    bufUse := .write
    bufOk := fun p _ => decide (48 ≤ bufL p)
    params := fun p _ => (firstBad [(decide (0xFFFF < param p 0), 0x20)]).or (zeroFrom p 1) }

/-- SEC_EXPORT. -/
def effSecExport : Nat → Pkt → Dev → Dev :=
  siloEff (fun p => [bits (param p 0) 7 0, bits (param p 0) 15 8]) fun id p d =>
    let s := bits (param p 0) 7 0
    let w := bits (param p 0) 15 8
    let x := slotOf d s
    let n := (exportBytes x).length + 8
    let c := pktClass p d
    match firstRes
      [ resIf (decide (bufL p < n)) (badParam 0x41),
        slotRefusalBy d s (fun _ => true) c (resIf (!bitAt x.attr 9) (refuse stNotPermitted 0x04)),
        slotRefusal d w [1] 6 c none ] with
    | some r => .inl r
    | none =>
      let blob := kwWrap (keyBytes (slotOf d w)) (exportBytes x)
      .inr (complete id (ok n 0 0 0) (bump 0x10 2 1 (countUse w (wrBytes (bufA p) blob d))))

def specSecDelete : OpSpec :=
  { opBase 0x1004 0x88 with params := fun p _ => (firstBad [(decide (255 < param p 0), 0x20)]).or (zeroFrom p 1) }

/-- An operation uses the slot. -/
def keyBusy (d : Dev) (s : Nat) : Bool := d.sec.signq.any (fun r => r.slot = s) || slotPending d s

/-- A slot is emptied: with its record, or at once. -/
def deleteSlot (id s : Nat) (d : Dev) : Dev := changeSlot id s 3 Slot.none (attrLife (slotOf d s).attr) d

/-- SEC_DELETE waits for the operations that use the slot. -/
def effSecDelete : Nat → Pkt → Dev → Dev :=
  siloEff (fun _ => []) fun id p d =>
    let s := param p 0
    if s < 2 then .inl (badParam 0x40)
    else if (slotOf d s).state = .empty then .inl (refuse stNotAuth 0x01)
    else if keyBusy d s then .inr { d with sec.deletes := d.sec.deletes ++ [(id, s)] }
    else .inr (deleteSlot id s d)

/-- Deletions whose slot is free of operations go on. -/
def releaseDeletes (d : Dev) : Dev :=
  d.sec.deletes.foldl (fun d x =>
    if keyBusy d x.2 then d
    else
      let d1 := { d with sec.deletes := d.sec.deletes.filter (fun y => y.1 ≠ x.1) }
      if (slotOf d1 x.2).state = .empty then complete x.1 (refuse stNotAuth 0x01) d1 else deleteSlot x.1 x.2 d1) d

def specSecDerive : OpSpec :=
  { opBase 0x1005 0x88 with
    bufUse := .read
    bufOk := fun p _ => decide (1 ≤ bufL p ∧ bufL p ≤ 64)
    params := fun p _ => (firstBad [(decide (0xFFFF < param p 0), 0x20)]).or (zeroFrom p 2) }

/-- SEC_DERIVE. -/
def effSecDerive : Nat → Pkt → Dev → Dev :=
  siloEff (fun p => [bits (param p 0) 7 0]) fun id p d =>
    let s := bits (param p 0) 7 0
    let t := bits (param p 0) 15 8
    let a := param p 1
    match firstRes
      [ resIf (!slotFree d t || !attrOk a || decide (2 < attrType a)) (badParam 0x40),
        slotRefusal d s [2, 5] 5 (pktClass p d) none ] with
    | some x => .inl x
    | none =>
      let a1 := if s = 0 then putBits a 9 9 0 else a
      let src := if s = 0 then leBytes 32 (d.sec.rootShare0 ^^^ d.sec.rootShare1).toNat else keyBytes (slotOf d s)
      let x : Slot := { Slot.none with attr := a1, state := .ready,
                                       share0 := BitVec.ofNat 512 (leNat (kdf src (rdBytes d (bufA p) (bufL p)) 32)) }
      .inr (changeSlot id t 0 x (attrLife a1) (countUse s d))

/-! ### Ciphers, tags and digests (R452, R458) -/

def specSecCipher : OpSpec :=
  { opBase 0x1006 0xF8 with
    bufUse := .write
    params := fun p _ => (firstBad [(decide (0x7FF < param p 0 ∨ bits (param p 0) 10 8 = 7), 0x20)]).or (zeroFrom p 1)
    object := fun p d =>
      if bits (param p 0) 10 8 = 0 ∧ (rdBytes d (bufA p + 8) 12).all (fun b => b = 0) then noRandom 0xF8 d else none }

/-- Type and usage bit of an operation. -/
def cipherNeeds : Nat → Nat × Nat
  | 0 => (1, 0) | 1 => (1, 1) | 2 => (1, 2) | 3 => (1, 2) | _ => (2, 2)

/-- Length of the AAD in a cipher buffer. -/
def cAadLen (p : Pkt) (d : Dev) : Nat := rdLE d (bufA p) 4
/-- Length of the data in a cipher buffer. -/
def cDataLen (p : Pkt) (d : Dev) : Nat := rdLE d (bufA p + 4) 4
/-- The IV of a cipher buffer. -/
def cIv (p : Pkt) (d : Dev) : List Byte := rdBytes d (bufA p + 8) 12
/-- The tag of a cipher buffer. -/
def cTag (p : Pkt) (d : Dev) : List Byte := rdBytes d (bufA p + 0x18) 32
/-- Where the data of a cipher buffer stands. -/
def cDataAt (p : Pkt) (d : Dev) : Nat := bufA p + 64 + cAadLen p d
/-- The AAD of a cipher buffer. -/
def cAad (p : Pkt) (d : Dev) : List Byte := rdBytes d (bufA p + 64) (cAadLen p d)
/-- The data of a cipher buffer. -/
def cData (p : Pkt) (d : Dev) : List Byte := rdBytes d (cDataAt p d) (cDataLen p d)
/-- The key that the operation names. -/
def cKey (p : Pkt) (d : Dev) : List Byte := keyBytes (slotOf d (bits (param p 0) 7 0))

/-- The buffer holds what its header says: lengths that fit it and 16 MiB, zero bytes where the layout has none. -/
def cipherFits (p : Pkt) (d : Dev) : Bool :=
  decide (64 ≤ bufL p) && decide (64 + cAadLen p d + cDataLen p d ≤ bufL p) &&
  decide (cAadLen p d + cDataLen p d ≤ 2 ^ 24) &&
  (rdBytes d (bufA p + 20) 4 ++ rdBytes d (bufA p + 0x38) 8).all (fun b => b = 0)

/-- The checks of a cipher operation; SHA-256 uses no slot. -/
def cipherRefusal (p : Pkt) (d : Dev) : Option Res :=
  let op := bits (param p 0) 10 8
  if !cipherFits p d then some (badParam 0x41)
  else if op = 6 then none
  else slotRefusal d (bits (param p 0) 7 0) [(cipherNeeds op).1] (cipherNeeds op).2 (pktClass p d) none

/-- Encryption under an IV: the ciphertext over the data, the tag and the IV. -/
def cipherSeal (id n : Nat) (iv : List Byte) (p : Pkt) (d e : Dev) : Dev :=
  let ct := gcmCrypt (cKey p d) iv (cData p d)
  complete id (ok n 0 0 0)
    (wrBytes (bufA p + 8) iv
      (wrBytes (bufA p + 0x18) (gcmTag (cKey p d) iv (cAad p d) ct) (wrBytes (cDataAt p d) ct e)))

/-- Decryption: the plaintext over the data, or zeros when the tag does not agree. -/
def cipherOpen (id : Nat) (p : Pkt) (d e : Dev) : Dev :=
  if gcmTag (cKey p d) (cIv p d) (cAad p d) (cData p d) = (cTag p d).take 16 then
    complete id (ok (cDataLen p d) 0 0 0) (bump 0x10 7 1
      (wrBytes (cDataAt p d) (gcmCrypt (cKey p d) (cIv p d) (cData p d)) e))
  else complete id (refuse stSignature 0x10) (bump 0x10 8 1 (wrBytes (cDataAt p d) (List.replicate (cDataLen p d) (0 : Byte)) e))

/-- The outcome of a comparison with the tag. -/
def cipherVerdict (id : Nat) (good : Bool) (e : Dev) : Dev :=
  if good then complete id (ok 0 0 0 0) (bump 0x10 7 1 e) else complete id (refuse stSignature 0x10) (bump 0x10 8 1 e)

/-- A tag or digest is written to the tag field. -/
def cipherTag (id : Nat) (tag : List Byte) (p : Pkt) (e : Dev) : Dev :=
  complete id (ok tag.length 0 0 0) (wrBytes (bufA p + 0x18) tag e)

/-- The operation. RESULT_0 counts the data, tag and IV bytes written (log 107). -/
def cipherRun (id : Nat) (p : Pkt) (d : Dev) : Dev :=
  let op := bits (param p 0) 10 8
  let e := bump 0x10 4 1 (if op = 6 then d else countUse (bits (param p 0) 7 0) d)
  let all := cAad p d ++ cData p d
  match op with
  | 0 =>
    if (cIv p d).all (fun b => b = 0) then
      cipherSeal id (cDataLen p d + 28) (leBytes 12 (drbgDraw e).1) p d (drbgDraw e).2
    else cipherSeal id (cDataLen p d + 16) (cIv p d) p d e
  | 1 => cipherOpen id p d e
  | 2 => cipherTag id (cmac (cKey p d) all) p e
  | 3 => cipherVerdict id (cmac (cKey p d) all == (cTag p d).take 16) e
  | 4 => cipherTag id (hmac256 (cKey p d) all) p e
  | 5 => cipherVerdict id (hmac256 (cKey p d) all == cTag p d) e
  | _ => cipherTag id (sha256 all) p e

/-- SEC_CIPHER. -/
def effSecCipher : Nat → Pkt → Dev → Dev :=
  siloEff (fun p => [bits (param p 0) 7 0]) fun id p d =>
    match cipherRefusal p d with
    | some x => .inl x
    | none => .inr (cipherRun id p d)

/-! ### Signatures (R455, R456) -/

/-- The last index of an LMS key. -/
def lastIndex (x : Slot) : Nat := 2 ^ x.height - 1
/-- Bytes of a signature: index, LMOTS signature, type, path. -/
def sigLen (x : Slot) : Nat := 1132 + 32 * x.height

/-- Steps 1–3 of R455 for the signing command in front: NEXT is taken and its record appended. -/
def signFront : Nat → Dev → Dev
  | 0, d => d
  | n + 1, d =>
    match d.sec.signq with
    | [] => d
    | r :: rest =>
      let x := slotOf d r.slot
      if r.index.isSome then d
      else if x.state ≠ .ready then signFront n (complete r.cmd (refuse stNotAuth 0x01) { d with sec.signq := rest })
      else if lastIndex x < x.next then signFront n (complete r.cmd (conflictObj d 0xF8 3) { d with sec.signq := rest })
      else
        let r1 := { r with index := some x.next,
                           data := if r.attest then overlay r.data 0x94 (leBytes 4 x.next) else r.data }
        journal 4 r.slot [r.slot, x.next + 1] 8 (some ⟨r.cmd, stOk, 0, 0, 0, 0⟩) false { d with sec.signq := r1 :: rest }

/-- The record of an index has committed: NEXT stands, and the signature is computed (R455 steps 4 and 5) (log 55). -/
def indexCommitted (s next : Nat) (d : Dev) : Dev :=
  let d0 := setSlot s { slotOf d s with next := next } d
  match d0.sec.signq with
  | r :: rest =>
    if r.slot ≠ s ∨ r.index ≠ some (next - 1) then d0
    else { d0 with sec.signq := { r with committed := true } :: rest }
  | [] => d0

/-- The signature whose index record has committed is released to its command's buffer, and the next command goes on
(R455 step 6) (log 53). -/
def releaseSignature (d : Dev) : Dev :=
  match d.sec.signq with
  | r :: rest =>
    if !r.committed then d
    else
      let x := slotOf d r.slot
      let q := r.index.getD 0
      let c := leBytes 32 (Config.lmsRandom (slotKey x) q r.data).toNat
      let sig := lmsSign (lmsIdent x) (lmsSeed x) x.height q c r.data
      let out := if r.attest then r.data ++ leBytes 4 (sigLen x) ++ sig else sig
      let d1 := bump 0x10 5 1 (countUse r.slot (wrBytes r.buf out { d with sec.signq := rest }))
      releaseDeletes (signFront 16 (complete r.cmd (ok q 0 0 0) d1))
  | [] => d

/-- PFAIL_N latches: signing commands whose record has not committed are cancelled and their index stays unused (log 98). -/
def cancelSigning (d : Dev) : Dev :=
  let d1 := { d with grn.queue := d.grn.queue.filter (fun r => r.type ≠ 4), sec.signq := d.sec.signq.filter (·.committed) }
  (d.sec.signq.filter (fun r => !r.committed)).foldl (fun d r => complete r.cmd (refuse stCancelled 0) d) d1

/-- At most one signature is in progress and 8 wait. -/
def signFull (d : Dev) : Option Res := resIf (decide (9 ≤ d.sec.signq.length)) (refuse stBusy 0x02)

def specSecSign : OpSpec :=
  { opBase 0x1007 0xF8 with
    bufUse := .write
    params := fun p _ => (firstBad [(decide (255 < param p 0), 0x20)]).or (zeroFrom p 1) }

/-- SEC_SIGN. -/
def effSecSign : Nat → Pkt → Dev → Dev :=
  siloEff (fun p => [param p 0]) fun id p d =>
    let s := param p 0
    match firstRes
      [ resIf (decide (bufL p < 32) || decide (attrType (slotOf d s).attr = 3 ∧ bufL p < sigLen (slotOf d s))) (badParam 0x41),
        slotRefusal d s [3] 3 (pktClass p d) none, signFull d ] with
    | some x => .inl x
    | none => .inr (signFront 1 { d with sec.signq := d.sec.signq ++ [⟨id, s, bufA p, false, rdBytes d (bufA p) 32, none, false⟩] })

def specSecVerify : OpSpec :=
  { opBase 0x1008 0xF8 with
    bufUse := .read
    params := fun p _ => (firstBad [(decide (255 < param p 0), 0x20)]).or (zeroFrom p 1) }

/-- SEC_VERIFY. -/
def effSecVerify : Nat → Pkt → Dev → Dev :=
  siloEff (fun p => [param p 0]) fun id p d =>
    let s := param p 0
    let n := rdLE d (bufA p + 32) 4
    match firstRes
      [ resIf (decide (bufL p < 36) || decide (bufL p < 36 + n)) (badParam 0x41),
        slotRefusal d s [4] 4 (pktClass p d) none ] with
    | some x => .inl x
    | none =>
      let good := hssVerify (slotOf d s).pub (rdBytes d (bufA p) 32) (rdBytes d (bufA p + 36) n)
      let d1 := countUse s d
      .inr (if good then complete id (ok 0 0 0 0) (bump 0x10 7 1 d1)
        else complete id (refuse stSignature 0x00) (bump 0x10 8 1 d1))

/-- The report of R456 but for LEAF, which is taken later, and the signature. -/
def attestReport (nonce : List Byte) (d : Dev) : List Byte :=
  let st := regP d Reg.sysBootStat
  let slots := (List.range 8).flatMap (fun s => match planIn d s with
    | some pl => leBytes 8 pl.planId ++ leBytes 8 pl.structSig
    | none => List.replicate 16 (0 : Byte))
  [0x49, 0x53, 0x56, 0x41] ++ leBytes 4 1 ++ leBytes 16 Config.serial.toNat ++ sliceB nonce 0 32 ++ leBytes 4 0xB1 ++
  leBytes 4 d.sys.fwVersion ++ leBytes 4 Config.romVersion.toNat ++ leBytes 4 d.sys.secVersion ++ leBytes 4 d.sys.rollback ++
  leBytes 4 (d.sys.mode.code + 8 * b2n d.sys.degraded + 16 * ownAddr d + 512 * bits st 31 29) ++
  sliceB d.sys.fwBody 0 32 ++ sha256 (smRange 0 d.sys.prot 0 2048) ++ leBytes 4 (regP d Reg.cfgCrcActive) ++ leBytes 4 0 ++
  leBytes 8 d.mdl.com.sig ++ leBytes 8 (plcDigest d) ++ leBytes 8 (if timeValid d then now d else 0) ++ leBytes 8 d.rtc.secs ++
  sha256 slots ++ List.replicate 40 (0 : Byte)

def specSecAttest : OpSpec :=
  { opBase 0x1009 0xF8 with bufUse := .write, bufOk := fun p _ => decide (1872 ≤ bufL p) }

/-- SEC_ATTEST. -/
def effSecAttest : Nat → Pkt → Dev → Dev :=
  siloEff (fun _ => [1]) fun id p d =>
    match firstRes [slotRefusal d 1 [3] 3 (pktClass p d) none, signFull d] with
    | some x => .inl x
    | none =>
      let rep := attestReport (rdBytes d (bufA p + 0x18) 32) d
      .inr (signFront 1 { d with sec.signq := d.sec.signq ++ [⟨id, 1, bufA p, true, rep, none, false⟩] })

def specSecPubkey : OpSpec :=
  { opBase 0x100A 0xF8 with
    bufUse := .write
    bufOk := fun p _ => decide (60 ≤ bufL p)
    params := fun p _ => (firstBad [(decide (255 < param p 0), 0x20)]).or (zeroFrom p 1) }

/-- SEC_PUBKEY. -/
def effSecPubkey : Nat → Pkt → Dev → Dev :=
  siloEff (fun p => [param p 0]) fun id p d =>
    let x := slotOf d (param p 0)
    match slotRefusalBy d (param p 0) (fun x => decide (attrType x.attr = 3 ∨ attrType x.attr = 4)) (pktClass p d) none with
    | some r => .inl r
    | none => .inr (complete id (ok (slotPublic x).length 0 0 0) (wrBytes (bufA p) (slotPublic x) d))

def specSecRandom : OpSpec :=
  { opBase 0x100B 0xF8 with
    bufUse := .write
    bufOk := fun p _ => decide (param p 0 ≤ bufL p)
    params := fun p _ => (firstBad [(decide (param p 0 = 0 ∨ 4096 < param p 0), 0x20)]).or (zeroFrom p 1)
    object := fun _ d => noRandom 0xF8 d }

/-- SEC_RANDOM. -/
def effSecRandom : Nat → Pkt → Dev → Dev :=
  siloEff (fun _ => []) fun id p d =>
    let r := drbgDraw d
    .inr (complete id (ok 0 0 0 0) (wrBytes (bufA p) (leBytes (param p 0) r.1) r.2))

/-! ### Masks and entropy (R450, R453) -/

/-- Shares under a new mask; slot 0 is the root itself. -/
def remask (m : BitVec 512) (x : Slot) : Slot :=
  if x.state = .empty ∨ attrCompat x.attr ∨ attrType x.attr = 5 then x else { x with share0 := x.share0 ^^^ m, share1 := x.share1 ^^^ m }

/-- REMASK_PASS: in BACKUP the root alone, with a mask of the noise source; else the root and every native slot, each
with a fresh mask. -/
def remaskPass (d : Dev) : Dev :=
  if d.sys.mode = .backup then
    (if d.sec.noiseFlag then d
     else
       let m := Config.noiseMask d.sec.noise
       { d with sec.noise := d.sec.noise + 1, sec.rootShare0 := d.sec.rootShare0 ^^^ m, sec.rootShare1 := d.sec.rootShare1 ^^^ m })
  else if d.sec.trngFail ∨ !d.sec.rootOk then d
  else
    let mask (n : Nat) : BitVec 512 := BitVec.ofNat 512 (n % 2 ^ 512)
    let r := drbgDraw d
    let d1 := { r.2 with sec.rootShare0 := r.2.sec.rootShare0 ^^^ mask r.1, sec.rootShare1 := r.2.sec.rootShare1 ^^^ mask r.1 }
    let d2 := d1.sec.slots.foldl (fun d kv =>
      let q := drbgDraw d
      setSlot kv.1 (remask (mask q.1) (slotOf q.2 kv.1)) q.2) d1
    bump 0x10 10 1 (addF Reg.secRemaskCnt 31 0 1 d2)

/-- ENTROPY_TEST_FAILURE: the entropy source, or in BACKUP the noise source, fails a test (log 108). -/
def entropyFailure (d : Dev) : Dev :=
  if d.sys.mode = .backup then { d with sec.noiseFlag := true }
  else event 0x10 2 [] (raiseVec 69 (bump 0x10 11 1 { d with sec.trngFail := true }))

/-- DRBG_RESEED: after 2²⁰ requests, and to end a failure (log 108). -/
def drbgReseed (d : Dev) : Dev :=
  if d.sys.mode = .backup ∨ !(decide (2 ^ 20 ≤ d.sec.requests) || d.sec.trngFail) then d
  else { d with sec.requests := 0, sec.trngFail := false }

/-! ### Views and readback (R460) -/

/-- Slots not EMPTY. -/
def slotsUsed (d : Dev) : Nat := (d.sec.slots.filter (fun kv => kv.2.state ≠ .empty)).length

/-- SEC_STAT as it reads. -/
def secStat (d : Dev) : Nat :=
  b2n d.sec.rootOk <<< 31 + b2n d.sec.trngFail <<< 30 + b2n (decide (32768 ≤ (slotOf d 1).next)) <<< 29 +
  b2n (!d.sec.signq.isEmpty) <<< 28 + slotsUsed d

/-- READ_STATE 0x1000_0000 + s. -/
def keyState (d : Dev) (s : Nat) : List Byte :=
  let x := slotOf d s
  let t := attrType x.attr
  leBytes 1 s ++ leBytes 1 x.state.code ++ leBytes 2 0 ++ leBytes 4 x.attr ++ leBytes 8 x.expiry ++
  leBytes 4 (if t = 3 then x.next else 0) ++ leBytes 4 x.uses ++
  (if t = 3 ∨ t = 4 then (sha256 (slotPublic x)).take 8 else List.replicate 8 (0 : Byte))

end Sys2Proof.Machine
end

