-- ==== Sys2Proof/Machine/Granary.lean ====
section
/-!
DEFINITION. The Granary journal, its checkpoints, the event recorder, and group 0x0F
(spec/19_granary_recorder.md R428–R445).
-/

namespace Sys2Proof.Machine

/-! ### The recorder (R437–R441) -/

/-- The 64 bytes of an event record. -/
def evBytes (r : EvRec) : List Byte :=
  let b := leBytes 4 r.number ++ leBytes 2 r.source ++ leBytes 1 r.code ++ leBytes 1 r.form ++ leBytes 8 r.time ++
    leBytes 8 r.rtc ++ leBytes 1 r.mode ++ leBytes 3 0 ++ sliceB r.data 0 32
  b ++ (if r.form = 1 then leBytes 3 0 ++ leBytes 1 0x5A else leBytes 4 (crc32c b))

/-- The NUMBER that the newest record has, or 0xFFFF_FFFF when the event was lost. -/
def evNumber (before after : Dev) : Nat :=
  if before.grn.evr.length < after.grn.evr.length then before.grn.evr.length else 0xFFFFFFFF

/-- The event that has waited longest is written, or is lost when the recorder is full; its EVR_LOG completes. -/
def recordNext (d : Dev) : Dev :=
  match d.grn.evq with
  | [] => d
  | e :: rest =>
    let d1 := evWrite e { d with grn.evq := rest }
    match e.cmd with
    | some id => complete id (ok (evNumber d d1) 0 0 0) d1
    | none => d1

/-- EVENT_RECORD: the class of the recorder and a clear permitting, the oldest waiting event becomes a record (R439, R441). -/
def eventRecord (d : Dev) : Dev := if recorderPaused d ∨ clearing d then d else recordNext d

/-- The recorder state: LOST and CLEARS. -/
def recorderState (d : Dev) : List Nat := [regP d Reg.evrLost, regP d Reg.evrClears]

/-- The recorder state is handed to the journal. -/
def appendRecorder (d : Dev) : Dev :=
  journal 13 0 (recorderState d) 8 none true { d with grn.recDirty := false, grn.recTime := some (now d) }

/-- RECORDER_STATE_APPEND: a changed recorder state, once the second since its last append has run out (R430). -/
def recorderStateAppend (d : Dev) : Dev :=
  if !d.grn.recDirty ∨ d.grn.refuse then d
  else appendRecorder (match d.grn.recTime with
    | some t => advanceTo (t + 10 ^ 9) d
    | none => d)

/-- Steps 2–4 of a clear (R441): old COUNT, old LOST, slot. -/
def clearRecorder (count lost slot : Nat) (d : Dev) : Dev :=
  let clears := (regP d Reg.evrClears + 1) % 2 ^ 32
  let r : EvRec :=
    { number := 0, source := 0x0F, code := 0x01, form := evForm d, time := if timeValid d then now d else 0, rtc := d.rtc.secs,
      mode := d.sys.mode.code, data := leBytes 4 count ++ leBytes 4 lost ++ leBytes 4 clears ++ leBytes 20 slot }
  let d1 := { d with grn.evr := [r], grn.evFull := false,
                     grn.mramWrites := smSet 0 d.grn.mramWrites 1 (smGet 0 d.grn.mramWrites 1 + 0x200040) }
  appendRecorder (bump 0xF 11 1 (bump 0xF 9 1 (setP Reg.evrClears clears (setP Reg.evrLost 0 d1))))

/-- The record of a clear has committed: [old COUNT, old LOST, slot, command, COUNT and CLEARS of the order]. An order
that an earlier clear has made stale clears nothing (R440) (log 102). -/
def clearCommitted (data : List Nat) (d : Dev) : Dev :=
  let g := fun k => data.getD k 0
  if g 4 ≠ d.grn.evr.length ∨ g 5 ≠ regP d Reg.evrClears then
    complete (g 3) ⟨stNotAuth, 0x03, d.grn.evr.length, regP d Reg.evrClears, 0, 0⟩ d
  else complete (g 3) (ok (g 0) (g 1) 0 0) (clearRecorder (g 0) (g 1) (g 2) d)

/-! ### Checkpoints (R434, R435) -/

/-- The blocks of the checkpoint pool with the lowest erase counts, outside a set: n of them. -/
def poolBlocks (d : Dev) (n : Nat) (used : List Nat) : List Nat :=
  let free := ((List.range 3968).map (· + 64)).filter (fun b => !used.contains b && decide (smGet 0 d.grn.retired b = 0))
  (sortBy (fun (a b : Nat) => decide (smGet 0 d.grn.erase a < smGet 0 d.grn.erase b)) free).take n

/-- Blocks of a checkpoint slot (log 101). -/
def ckBlocks (c : Option Ckpt) : List Nat := (c.map (·.blocks)).getD []

/-- The highest generation of a valid checkpoint, and none. -/
def newestCkpt (g : GranSt) : Option Ckpt :=
  match g.ckA.filter (·.valid), g.ckB.filter (·.valid) with
  | some a, some b => if a.gen < b.gen then some b else some a
  | some a, none => some a
  | none, x => x

/-- NAND blocks are erased. -/
def eraseBlocks (bs : List Nat) (d : Dev) : Dev :=
  bs.foldl (fun d b => { d with grn.erase := smSet 0 d.grn.erase b (smGet 0 d.grn.erase b + 1) }) d

/-- A checkpoint into the slot of its generation. -/
def setCkpt (gen : Nat) (c : Option Ckpt) (d : Dev) : Dev :=
  if gen % 2 = 0 then { d with grn.ckA := c } else { d with grn.ckB := c }

/-- A checkpoint starts (R434). -/
def startCkpt (cmd : Option Nat) (d : Dev) : Dev :=
  let gen := match newestCkpt d.grn with
    | some c => c.gen + 1
    | none => 0
  let bs := poolBlocks d (Config.ckptBlocks gen).toNat (ckBlocks d.grn.ckA ++ ckBlocks d.grn.ckB)
  let c : Ckpt := { gen := gen, sc := d.grn.nextSeq - 1, pos := d.grn.nextPos, valid := false, items := d.grn.items, time := 0,
                    blocks := bs }
  charge 10 .mgmt (Config.appendUs 1).toNat
    (setCkpt gen (some c) (eraseBlocks bs { d with grn.ckRun := some ⟨c, false, cmd⟩, grn.lastCkptStart := d.tim.ticks }))

/-- CHECKPOINT_DUE: the ring is filled past 75 %, or 10 minutes of pace-domain ticks have passed (R434); it waits while class 10 is
paused. -/
def checkpointDue (d : Dev) : Dev :=
  if d.grn.ckRun.isSome ∨ !d.grn.formatted ∨ d.grn.refuse ∨ d.sys.mode = .backup ∨ d.sys.mode = .boot then d
  else if classStops d 10 then meetCeil 10 d
  else if jRing * 75 < retainedBytes d.grn * 100 then startCkpt none d
  else startCkpt none (advanceTicks (d.grn.lastCkptStart + 600 * 250000000) d)

/-- CHECKPOINT_COMPLETE: the trailer has been read back; the checkpoint is valid and its marker is appended. -/
def checkpointComplete (d : Dev) : Dev :=
  match d.grn.ckRun with
  | none => d
  | some r =>
    if r.marker ∨ d.grn.refuse then d
    else
      let c := { r.ck with valid := true, time := now d }
      journal 1 0 [c.gen, c.sc] 16 none true
        (bump 0xF 2 1 (setCkpt c.gen (some c) { d with grn.ckRun := some { r with ck := c, marker := true }, grn.fallback := false }))

/-- The marker has committed: the ring releases records up to the new older S_c (R435). -/
def markerCommitted (d : Dev) : Dev :=
  match d.grn.ckRun with
  | none => d
  | some r =>
    let d1 := { d with grn.ckRun := none, grn.recs := d.grn.recs.filter (fun x => decide (olderSc d.grn ≤ x.seq)) }
    match r.cmd with
    | some id => complete id (ok (lo32 r.ck.gen) (hi32 r.ck.gen) (lo32 r.ck.sc) (hi32 r.ck.sc)) d1
    | none => d1

/-- PFAIL_N abandons a checkpoint that is being written (R433); the GRN_COMPACT that asked for it is cancelled (log 99, 103). -/
def abandonCkpt (d : Dev) : Dev :=
  match d.grn.ckRun with
  | none => d
  | some r =>
    if r.marker then d
    else
      let d1 := bump 0xF 3 1 { d with grn.ckRun := none }
      match r.cmd with
      | some id => complete id (refuse stCancelled 0) d1
      | none => d1

/-! ### Append and commit (R429, R431, R432) -/

/-- One record is written: a PAD record first where it does not fit before the end of the ring. -/
def putRecord (type key : Nat) (data : List Nat) (len : Nat) (d : Dev) : Dev :=
  let size := jSize len
  let t := if timeValid d then now d else 0
  let d0 :=
    if jRing < d.grn.nextPos + size then
      bump 0xF 1 (jRing - d.grn.nextPos) (bump 0xF 0 1
        { d with grn.recs := d.grn.recs ++ [⟨d.grn.nextSeq, d.grn.nextPos, jRing - d.grn.nextPos, t, 0, 0, []⟩],
                 grn.nextSeq := d.grn.nextSeq + 1, grn.nextPos := 0 })
    else d
  bump 0xF 1 size (bump 0xF 0 1
    { d0 with grn.recs := d0.grn.recs ++ [⟨d0.grn.nextSeq, d0.grn.nextPos, size, t, type, key, data⟩],
              grn.nextSeq := d0.grn.nextSeq + 1, grn.nextPos := (d0.grn.nextPos + size) % jRing,
              grn.mramWrites := smSet 0 d0.grn.mramWrites 2 (smGet 0 d0.grn.mramWrites 2 + size) })

/-- The key of a persistent item (log 96). -/
def itemKey (type key : Nat) : Nat := 0x100000 * type + key

/-- The records of an item are written; the item takes effect with the last. A snapshot keeps its last SEQ (log 96). -/
def putItem (r : JReq) (d : Dev) : Dev :=
  let cs := jChunks r.type r.len
  let d1 := cs.dropLast.foldl (fun d l => putRecord r.type r.key [] l d) d
  let d2 := putRecord r.type r.key r.data (cs.getLastD 0) d1
  let data := if r.type = 5 ∨ r.type = 6 then r.data ++ [d2.grn.nextSeq - 1] else r.data
  let seqR := d2.grn.nextSeq - 1
  let d3 := { d2 with grn.recs := d2.grn.recs.map (fun x => if x.seq = seqR then { x with data := data } else x) }
  if r.type = 0 ∨ r.type = 1 then d3
  else { d3 with grn.items := smSet [] d3.grn.items (itemKey r.type r.key) data }

/-- The record of a PAV_STRESS_PRESET has committed: its counters are in force, their residues 0 (R473). -/
def stressCommitted (cmd : Nat) (d : Dev) : Dev :=
  match d.pav.presets.find? (fun x => x.1 = cmd) with
  | none => d
  | some x =>
    (List.range x.2.2.length).foldl (fun d i =>
      { d with pav.stress := smSet 0 d.pav.stress (x.2.1 + i) (x.2.2.getD i 0), pav.residue := smSet 0 d.pav.residue (x.2.1 + i) 0 })
      { d with pav.presets := d.pav.presets.filter (fun y => y.1 ≠ cmd) }

/-- What the owner of a TYPE does with a committed record (R430) (log 97). -/
def ownerCommit (r : JReq) (d : Dev) : Dev :=
  match r.type with
  | 1 => markerCommitted d
  | 2 =>
    let d1 := saveCommitted r.data d
    match r.done with
    | some j => presetCommit j.cmd d1
    | none => d1
  | 3 => releaseDeletes (slotCommitted r.key r.data d)
  | 4 => indexCommitted (r.data.getD 0 0) (r.data.getD 1 0) d
  | 10 => { d with pln.requireSigned := r.data.getD 0 0 = 1, pln.lock := r.data.getD 1 0 = 1, pln.policySlot := r.data.getD 2 0 }
  | 11 => match r.done with
    | some j => stressCommitted j.cmd d
    | none => d
  | 12 => clearCommitted r.data d
  | _ => d

/-- A record as it commits: a policy record keeps LOCK and REQUIRE_SIGNED once LOCK is set (R160). -/
def atCommit (d : Dev) (r : JReq) : JReq :=
  if r.type = 10 ∧ d.pln.lock then { r with data := [1, 1, r.data.getD 2 0] } else r

/-- A record of the queue commits, and the command that waits for it completes (R431) (log 9, 97). -/
def commitItem (r : JReq) (d : Dev) : Dev :=
  let d1 := ownerCommit (atCommit d r) (putItem (atCommit d r) { d with grn.queue := d.grn.queue.erase r })
  match r.done with
  | none => d1
  | some j =>
    let s := if r.type = 5 ∨ r.type = 6 ∨ r.type = 11 then d1.grn.nextSeq - 1 else 0
    complete j.cmd ⟨j.status, 0, j.r0, j.r1, j.r2 + lo32 s, j.r3 + hi32 s⟩ d1

/-- An append has room: it does not enter the reserve, or may use it (R432) (log 99). -/
def hasRoom (r : JReq) (d : Dev) : Bool :=
  r.reserve || decide (retainedBytes d.grn + jBytes r.type r.len ≤ jRing - jReserve)

/-- JOURNAL_APPEND_COMMIT: the oldest append that has room is written and commits, charged to class 10 (log 97). -/
def appendCommit (d : Dev) : Dev :=
  if d.grn.refuse then d
  else if classStops d 10 then (if d.grn.queue.isEmpty then d else meetCeil 10 d)
  else match d.grn.queue.find? (fun r => hasRoom r d) with
  | none => d
  | some r => charge 10 .beats (beatsOf r.len) (charge 10 .mgmt (Config.appendUs r.type).toNat (commitItem r d))

/-- APPEND_WAIT_TIMEOUT: a command whose append has waited 1 s completes BUSY_RETRY, and its change is not made. -/
def appendTimeout (d : Dev) : Dev :=
  match d.grn.queue.find? (fun r => r.since.isSome && r.done.isSome) with
  | none => d
  | some r =>
    let d1 := advanceTo (r.since.getD 0 + 10 ^ 9) { d with grn.queue := d.grn.queue.erase r }
    let c := (r.done.map (·.cmd)).getD 0
    let d2 := complete c (refuse stBusy 0x01)
      { d1 with mtr.presets := d1.mtr.presets.filter (fun x => x.1 ≠ c), sec.signq := d1.sec.signq.filter (fun x => x.cmd ≠ c) }
    releaseDeletes (signFront 16 d2)

/-! ### The power-fail commit (R433) -/

/-- Every queued append that has room commits, oldest first. -/
def commitAll : Nat → Dev → Dev
  | 0, d => d
  | n + 1, d =>
    match d.grn.queue.find? (fun r => hasRoom r d) with
    | some r => commitAll n (commitItem r d)
    | none => d

/-- Every event that waits is written, whatever the ceiling of class 11 (R433). -/
def recordAll : Nat → Dev → Dev
  | 0, d => d
  | n + 1, d => recordAll n (recordNext d)

/-- Steps 1–4: signing commands are cancelled, the queue, the final delta, the recorder state and the event of the power
failure are written out, and appends are refused from then on (log 98). -/
def pfailCommit (d : Dev) : Dev :=
  let d1 := commitAll 4096 (abandonCkpt (cancelSigning d))
  let d2 := commitAll 4096 (finalDelta d1)
  let d3 := recordAll 65 (event 0x0F 2 [d2.sys.mode.code] (recordAll 64 (commitAll 4096 (appendRecorder d2))))
  bump 0xF 8 1 { d3 with grn.pfailCommit := true, grn.refuse := true }

/-- PFAIL_N releases without a reset: appends resume. -/
def granaryResume (d : Dev) : Dev := { d with grn.pfailCommit := false, grn.refuse := false }

/-- NAND_BLOCK_RETIREMENT: a block whose program or erase failed (R428) (log 100). -/
def nandRetire (b : Nat) (d : Dev) : Dev :=
  if 4032 ≤ b ∨ smGet 0 d.grn.retired b ≠ 0 ∨ d.sys.mode = .backup then d
  else
    let spare := ((List.range 64).map (· + 4032)).find? (fun s => d.grn.retired.all (fun kv => kv.2 ≠ 1 + s))
    let d1 := { d with grn.retired := smSet 0 d.grn.retired b ((spare.map (· + 1)).getD 1) }
    bump 0xF 6 1 (addF Reg.grnMedia 31 16 1 (journal 8 (0x100 + b) [b, (spare.getD 0)] 8 none false d1))

/-! ### Views -/

/-- GRN_STAT as it reads. -/
def grnStat (d : Dev) : Nat :=
  let g := d.grn
  b2n (g.queue.any (fun r => r.since.isSome)) <<< 31 + b2n g.ckRun.isSome <<< 30 + b2n g.fallback <<< 29 +
  b2n g.pfailCommit <<< 28 + b2n g.fwBusy.isSome <<< 27 + retainedBytes g * 100 / jRing

/-- EVR_STAT as it reads. -/
def evrStat (d : Dev) : Nat := b2n d.grn.evFull <<< 31 + b2n (clearing d) <<< 30 + d.grn.evr.length

/-- The last committed SEQ. -/
def lastSeq (d : Dev) : Nat := d.grn.nextSeq - 1

/-- The journal position record (R444). -/
def grnState (d : Dev) : List Byte :=
  let c := newestCkpt d.grn
  leBytes 8 (lastSeq d) ++ leBytes 8 ((c.map (·.gen)).getD 0) ++ leBytes 8 ((c.map (·.sc)).getD 0) ++
  leBytes 4 (retainedBytes d.grn) ++ leBytes 4 d.grn.nextPos ++ leBytes 4 d.grn.evr.length ++ leBytes 4 (regP d Reg.evrLost) ++
  leBytes 4 (regP d Reg.evrClears) ++ leBytes 1 (grnStat d >>> 27) ++ leBytes 3 0 ++ leBytes 8 ((c.map (·.time)).getD 0) ++
  leBytes 8 0

/-! ### Commands of group 0x0F (R442, R443) -/

def specGrnQuery : OpSpec :=
  { opBase 0x0F01 0xF8 with bufUse := .write, bufOk := fun p _ => decide (bufL p = 0 ∨ 64 ≤ bufL p) }

/-- GRN_QUERY. -/
def effGrnQuery : Nat → Pkt → Dev → Dev :=
  immediate fun p d =>
    (ok (grnStat d) 0 (lo32 (lastSeq d)) (hi32 (lastSeq d)), if bufL p = 0 then d else wrBytes (bufA p) (grnState d) d)

def specGrnCompact : OpSpec :=
  { opBase 0x0F02 0xF8 with
    resources := fun _ d => resIf d.grn.ckRun.isSome (refuse stBusy 0x02) }

/-- GRN_COMPACT: a checkpoint starts; the command completes when its marker commits (log 103). -/
def effGrnCompact (id : Nat) (_ : Pkt) (d : Dev) : Dev := startCkpt (some id) d

/-- The configuration registers of R89 in ascending offset, over a range of pages. -/
def configOffsets (lo hi : Nat) : List Nat :=
  (List.range ((hi - lo) / 4)).map (fun i => lo + 4 * i) |>.filter isConfigReg

/-- The words of a snapshot: offset and applied value of each register, then CFG_CRC_ACTIVE. -/
def snapshotWords (kind : Nat) (d : Dev) : List Nat :=
  let os := if kind = 0 then configOffsets 0 0x1B0000
    else configOffsets 0x0D0000 0x0E0000 ++ (List.range 4).map Reg.ethLat
  os.flatMap (fun o => [o, regA d o]) ++ [regP d Reg.cfgCrcActive]

/-- The newest complete snapshot of a kind, with its last SEQ at the end. -/
def snapshotOf (kind : Nat) (d : Dev) : List Nat := smGet [] d.grn.items (itemKey (5 + kind) 0)

def specGrnSnapshot : OpSpec :=
  { opBase 0x0F03 0xF8 with
    bufUse := .write
    params := fun p _ => (firstBad [(decide (3 < param p 0), 0x20)]).or (zeroFrom p 1)
    object := fun p d => resIf (bitAt (param p 0) 1 && (snapshotOf (param p 0 % 2) d).isEmpty) (conflictObj d 0xF8 1) }

/-- GRN_SNAPSHOT: a snapshot is journaled, or the newest one is read. -/
def effGrnSnapshot (id : Nat) (p : Pkt) (d : Dev) : Dev :=
  let k := param p 0 % 2
  if bitAt (param p 0) 1 then
    let s := snapshotOf k d
    let ws := s.dropLast
    let seq := s.getLastD 0
    let n := min ws.length (bufL p / 4)
    complete id ⟨if n < ws.length then stPartial else stOk, 0, n, 0, lo32 seq, hi32 seq⟩
      (wrBytes (bufA p) ((ws.take n).flatMap (leBytes 4)) d)
  else
    let ws := snapshotWords k d
    journal (5 + k) 0 ws (4 * ws.length) (some ⟨id, stOk, ws.length, 0, 0, 0⟩) false d

/-- The newest complete model copy of the journal. -/
def modelItem (d : Dev) : List Nat := smGet [] d.grn.items (itemKey 7 0)

/-- Objects of a model item: index, seven fields, six parameters. -/
def itemObjs : Nat → List Nat → SMap NetObj
  | 0, _ => []
  | n + 1, l =>
    let g := fun k => l.getD k 0
    smSet NetObj.empty (itemObjs n (l.drop 14)) (g 0)
      { type := g 1, flags := g 2, link0 := g 3, link1 := g 4, block := g 5, partition := g 6, rsvd := 0, userTag := g 7,
        p := (l.drop 8).take 6 }

/-- Descriptors of a model item: index and eight fields. -/
def itemMeas : Nat → List Nat → SMap MeasDesc
  | 0, _ => []
  | n + 1, l =>
    let g := fun k => l.getD k 0
    smSet MeasDesc.unused (itemMeas n (l.drop 9)) (g 0)
      { object := g 1, quantity := g 2, source := g 3, sourceIndex := g 4, maxAge := g 5, scale := g 6, offset := g 7,
        sigma := g 8, rsvd := 0 }

def specGrnModelRestore : OpSpec :=
  { opBase 0x0F04 0xE8 with
    object := fun _ d => resIf (modelItem d).isEmpty (conflictObj d 0xE8 1)
    resources := busyCommit }

/-- GRN_MODEL_RESTORE: the copy becomes the staged one. -/
def effGrnModelRestore : Nat → Pkt → Dev → Dev :=
  immediate fun _ d =>
    let l := modelItem d
    let n := l.getD 2 0
    let rest := l.drop (3 + 14 * n)
    let sig := l.getD 1 0
    (ok (l.getD 0 0) 0 (lo32 sig) (hi32 sig),
      { d with mdl.stagedObjs := itemObjs n (l.drop 3), mdl.stagedMeas := itemMeas (rest.length / 9) rest })

def specGrnFwWrite : OpSpec :=
  { opBase 0x0F05 0x80 with
    bufUse := .read
    bufOk := fun p _ => decide (bufL p ≤ 8388608)
    params := fun p _ => (firstBad [(decide (1 < param p 0), 0x20)]).or (zeroFrom p 1)
    resources := fun p d =>
      match fwFault d.sys.rollback (rdBytes d (bufA p) (bufL p)) with
      | some n => some (refuse stSignature n)
      | none => resIf d.grn.fwBusy.isSome (refuse stBusy 0x02) }

/-- The rollback floor after an update: raised at most to the SEC_VERSION of the image, by as much as the firmware chooses, and
never lowered (R110) (log 136). -/
def floorAfter (floor sec : Nat) : Nat := floor + (Config.floorRise floor sec).toNat % (sec + 1 - floor)

/-- GRN_FW_WRITE runs from here; fwDone ends it. -/
def effGrnFwWrite (id : Nat) (p : Pkt) (d : Dev) : Dev :=
  { d with grn.fwBusy := some (id, param p 0, rdBytes d (bufA p) (bufL p)) }

/-- A firmware write ends: the slot has been erased, programmed and read back, and the update can raise the rollback floor
(R110, R443) (log 9, 104, 136). -/
def fwDone (d : Dev) : Dev :=
  match d.grn.fwBusy with
  | none => d
  | some (id, slot, img) =>
    let n := ceilDiv img.length 0x40000
    let d1 := eraseBlocks ((List.range n).map (· + 32 * slot)) { d with grn.fwBusy := none, grn.fwWrites := d.grn.fwWrites + 1 }
    let d2 := if slot = 0 then { d1 with grn.fwA := img } else { d1 with grn.fwB := img }
    if Config.readBack d.grn.fwWrites then
      complete id (ok 0 0 0 0) { d2 with sys.rollback := floorAfter d2.sys.rollback (min 32 (fieldLE img 0xC 4)) }
    else complete id (refuse stMedia 0x01) d2

def specEvrRead : OpSpec :=
  { opBase 0x0F06 0xF8 with
    bufUse := .write
    bufOk := fun p _ => decide (64 ≤ bufL p)
    params := fun p _ => zeroFrom p 1 }

/-- EVR_READ. -/
def effEvrRead : Nat → Pkt → Dev → Dev :=
  immediate fun p d =>
    let rs := d.grn.evr.drop (param p 0)
    let n := min rs.length (bufL p / 64)
    (⟨if n < rs.length then stPartial else stOk, 0, n, d.grn.evr.length, 0, 0⟩,
      wrBytes (bufA p) ((rs.take n).flatMap evBytes) d)

def specEvrClear : OpSpec :=
  { opBase 0x0F07 0xF8 with
    bufUse := .read
    params := fun p _ => (firstBad [(decide (255 < param p 0), 0x20)]).or (zeroFrom p 1) }

/-- EVR_CLEAR: a clear order is checked (R440, R443) and its record appended; the clear follows the commit (log 102). -/
def effEvrClear (id : Nat) (p : Pkt) (d : Dev) : Dev :=
  let s := param p 0
  let b := rdBytes d (bufA p) (bufL p)
  let n := fieldLE b 0x40 4
  match firstRes
    [ resIf (decide (bufL p < 0x44) || decide (sliceB b 0 4 ≠ [0x49, 0x53, 0x56, 0x43]) || decide (fieldLE b 4 4 ≠ 1) ||
        !(sliceB b 0x20 32).all (fun x => x = 0) || decide (bufL p < 0x44 + n)) (badParam 0x41),
      slotRefusalBy d s (fun x => decide (attrType x.attr = 4) && attrUse x.attr 4 && bitAt x.attr 10) (pktClass p d) none,
      resIf (!hssVerify (slotOf d s).pub (sliceB b 0 0x40) (sliceB b 0x44 n)) (refuse stSignature 0x00),
      resIf (decide (fieldLE b 8 16 ≠ Config.serial.toNat) || decide (fieldLE b 0x18 4 ≠ d.grn.evr.length) ||
        decide (fieldLE b 0x1C 4 ≠ regP d Reg.evrClears)) ⟨stNotAuth, 0x03, d.grn.evr.length, regP d Reg.evrClears, 0, 0⟩ ] with
  | some x => complete id x (if x.status = stIntegrity then failCompat s d else d)
  | none =>
    let old := [d.grn.evr.length, regP d Reg.evrLost, s, id, fieldLE b 0x18 4, fieldLE b 0x1C 4]
    journal 12 0 (old ++ [leNat (sha256 b)]) 40 (some ⟨id, stOk, 0, 0, 0, 0⟩) false (countUse s d)

def specEvrLog : OpSpec :=
  { opBase 0x0F08 0xF8 with
    params := fun p _ => firstBad [(decide (255 < param p 0), 0x20)]
    resources := fun p _ => resIf (decide (param p 0 < 0x80)) (badParam 0x40) }

/-- EVR_LOG: an event of the host; it completes when it is written or lost. -/
def effEvrLog (id : Nat) (p : Pkt) (d : Dev) : Dev :=
  let data := (List.range 7).flatMap (fun k => leBytes 4 (param p (k + 1))) ++ List.replicate 4 (0 : Byte)
  let d1 := recordEvent 0x0F (param p 0) data (some id) d
  if d.grn.evq.length < d1.grn.evq.length then d1 else complete id (ok (evNumber d d1) 0 0 0) d1

end Sys2Proof.Machine
end

