-- ==== Sys2Proof/Machine/Pavilion.lean ====
section
/-!
DEFINITION. The Pavilion panel driver and group 0x11 (spec/21_pavilion_display.md R462–R474).
-/

namespace Sys2Proof.Machine

/-- Timing as the applied registers give it. -/
def appliedTiming (d : Dev) : PanelTiming :=
  { hTotal := fldA d Reg.pavHTotal 15 0, vTotal := fldA d Reg.pavVTotal 15 0, gateOn := fldA d Reg.pavGate 15 0,
    gateOff := fldA d Reg.pavGate 31 16, phStart := fldA d Reg.pavPhStart 15 0, phT := fldA d Reg.pavPhase 15 0,
    phGuard := fldA d Reg.pavPhase 31 16 }

/-- The rules of R464 hold. -/
def timingOk (t : PanelTiming) : Bool :=
  decide (t.gateOn < t.phStart ∧ t.phGuard < t.phT ∧ t.phStart + 8 * t.phT ≤ t.gateOff ∧ t.gateOff < t.hTotal ∧ 241 ≤ t.vTotal)

/-- The panel is blanked (R464). -/
def blanked (d : Dev) : Bool :=
  decide (fldA d Reg.pavCtl 0 0 = 0) || decide (d.sys.mode.code < 3) || !timingOk d.pav.timing

/-- The front buffer, and the back one. -/
def frontBuf (d : Dev) : SMap Nat := if d.pav.front = 0 then d.pav.buf0 else d.pav.buf1
/-- The back buffer is replaced. -/
def setBack (m : SMap Nat) (d : Dev) : Dev := if d.pav.front = 0 then { d with pav.buf1 := m } else { d with pav.buf0 := m }
/-- The back buffer. -/
def backBuf (d : Dev) : SMap Nat := if d.pav.front = 0 then d.pav.buf1 else d.pav.buf0

/-- PAV_STAT as it reads. -/
def pavStat (d : Dev) : Nat := putBits (regP d Reg.pavStat) 0 0 d.pav.front

/-! ### Draws and flips (R466, R467) -/

/-- The rectangle of a PAV_DRAW: x, y, width, height. -/
def drawRect (p : Pkt) : Nat × Nat × Nat × Nat :=
  (bits (param p 0) 8 0, bits (param p 0) 23 16, bits (param p 1) 8 0, bits (param p 1) 23 16)

/-- Pixel i of the rectangle at fault: outside the panel, or with bits [31:30]. -/
def drawBad (p : Pkt) (d : Dev) : Option Nat :=
  let r := drawRect p
  (List.range (r.2.2.1 * r.2.2.2)).find? (fun i =>
    decide (320 ≤ r.1 + i % r.2.2.1) || decide (240 ≤ r.2.1 + i / r.2.2.1) || decide (2 ^ 30 ≤ rdLE d (bufA p + 4 * i) 4))

def specPavDraw : OpSpec :=
  { opBase 0x1101 0xF8 with
    bufUse := .read
    params := fun p _ =>
      let r := drawRect p
      (firstBad [(decide (param p 0 &&& 0xFF01FF ≠ param p 0), 0x20),
        (decide (param p 1 &&& 0xFF01FF ≠ param p 1 ∨ r.2.2.1 = 0 ∨ 320 < r.2.2.1 ∨ r.2.2.2 = 0 ∨ 240 < r.2.2.2), 0x24)]).or
      (zeroFrom p 2)
    bufOk := fun p _ => decide (bufL p = 4 * (drawRect p).2.2.1 * (drawRect p).2.2.2)
    resources := fun p d => (drawBad p d).map (bad1 0x40) }

/-- The pixels of a draw go into the back buffer. -/
def drawNow (id : Nat) (p : Pkt) (d : Dev) : Dev :=
  let r := drawRect p
  let m := (List.range (r.2.2.1 * r.2.2.2)).foldl (fun m i =>
    smSet 0 m (320 * (r.2.1 + i / r.2.2.1) + r.1 + i % r.2.2.1) (rdLE d (bufA p + 4 * i) 4)) (backBuf d)
  complete id (ok 0 0 0 0) (charge 9 .beats (beatsOf (bufL p)) (setBack m d))

/-- PAV_DRAW: a draw that meets a waiting flip waits for the exchange. -/
def effPavDraw (id : Nat) (p : Pkt) (d : Dev) : Dev :=
  if d.pav.flip.isSome then { d with pav.draws := d.pav.draws ++ [id] } else drawNow id p d

def specPavFlip : OpSpec :=
  { opBase 0x1102 0xF8 with resources := fun _ d => resIf d.pav.flip.isSome (refuse stBusy 0x02) }

/-- PAV_FLIP waits for the next panel frame start. -/
def effPavFlip (id : Nat) (_ : Pkt) (d : Dev) : Dev := { d with pav.flip := some id }

/-- The exchange, and the draws that waited for it. -/
def exchange (d : Dev) : Dev :=
  match d.pav.flip with
  | none => d
  | some id =>
    let t := now d
    let d1 := bump 0x11 1 1 { d with pav.front := 1 - d.pav.front, pav.flip := none, pav.lastFlip := t }
    let d2 := complete id (ok (lo32 t) (hi32 t) 0 0) d1
    d.pav.draws.foldl (fun d c => match findCmd d c with
      | some x => drawNow c x.pkt d
      | none => d) { d2 with pav.draws := [] }

/-! ### Refresh (R463–R470) -/

/-- PANEL_FRAME_START: line 0. The timing and AGE are taken up, then a waiting flip takes place (R465, R467, R470). -/
def panelFrameStart (d : Dev) : Dev :=
  if d.sys.mode = .backup then d
  else
    let d1 := advanceTicks (d.pav.start + d.pav.timing.hTotal * d.pav.timing.vTotal) d
    let t := appliedTiming d1
    let d2 := setF Reg.pavStat 1 1 (b2n (!timingOk t))
      { d1 with pav.timing := t, pav.start := d1.tim.ticks, pav.line := 0, pav.frames := d1.pav.frames + 1,
                pav.ages := (List.range 3).map (fun c => fldA d1 (Reg.pavAge c) 15 0) }
    exchange (bump 0x11 0 (b2n (!blanked d2)) d2)

/-- STRESS_DIV. -/
def stressDiv (d : Dev) : Nat := max 1 (fldA d Reg.pavStressCfg 15 0)

/-- The code driven for a stored value (R470): the code, and whether it was clipped. -/
def driveCode (age s v : Nat) : Nat × Bool :=
  let x := (2 * v * (2 ^ 32 + age * s) + 2 ^ 32) / 2 ^ 33
  (min 1023 x, decide (1023 < x))

/-- Stress of a subpixel that drove code `code` (R469). -/
def addStress (i c code : Nat) (d : Dev) : Dev :=
  let r := smGet 0 d.pav.residue i + stressDiv d * fldA d (Reg.pavWeight c (code / 32)) 15 0
  let s := smGet 0 d.pav.stress i + r / 2 ^ 32
  let d1 := { d with pav.residue := smSet 0 d.pav.residue i (r % 2 ^ 32), pav.stress := smSet 0 d.pav.stress i (min s (2 ^ 24 - 1)) }
  if 2 ^ 24 - 1 ≤ s then orP Reg.pavStat 4 d1 else d1

/-- Beats of a line (R468) (log 51). -/
def lineBeats : Nat := 20

/-- PANEL_LINE: the next active line of the panel frame is fetched and driven, at code 0 when its fetch met the ceiling of
class 9 (R463, R468). -/
def panelLine (d : Dev) : Dev :=
  let r := d.pav.line
  if d.sys.mode = .backup ∨ 240 ≤ r then d
  else
    let d1 := advanceTicks (d.pav.start + r * d.pav.timing.hTotal + d.pav.timing.phStart) { d with pav.line := r + 1 }
    if blanked d1 then { d1 with pav.driven := List.replicate 960 0 }
    else if classStops d1 9 then
      bump 0x11 2 1 (addF Reg.pavUnderrunCnt 31 0 1 { meetCeil 9 d1 with pav.driven := List.replicate 960 0 })
    else
      let d2 := charge 9 .beats lineBeats d1
      let codes := (List.range 960).map fun s =>
        let v := bits (smGet 0 (frontBuf d2) (320 * r + s / 3)) (29 - 10 * (s % 3)) (20 - 10 * (s % 3))
        driveCode (d2.pav.ages.getD (s % 3) 0) (smGet 0 d2.pav.stress (960 * r + s)) v
      let n := (codes.filter (·.2)).length
      let d3 := bump 0x11 3 n (addF Reg.pavClipCnt 31 0 n { d2 with pav.driven := codes.map (·.1) })
      if d3.pav.frames % stressDiv d3 ≠ 0 then d3
      else (List.range 960).foldl (fun d s => addStress (960 * r + s) (s % 3) ((codes.getD s (0, false)).1) d) d3

/-! ### Pins (R462, R463, R464) (log 151) -/

/-- Where the panel frame stands: the line and the ticks from its start. -/
def panelAt (d : Dev) : Nat × Nat :=
  let h := max 1 d.pav.timing.hTotal
  ((d.tim.ticks - d.pav.start) / h, (d.tim.ticks - d.pav.start) % h)

/-- The demultiplexer phase under way: PAV_MUX_p is active (log 151). -/
def pavPhase (d : Dev) : Option Nat :=
  let t := d.pav.timing
  let x := panelAt d
  if blanked d ∨ 240 ≤ x.1 then none
  else (List.range 8).find? (fun p => decide (t.phStart + p * t.phT ≤ x.2 ∧ x.2 < t.phStart + (p + 1) * t.phT - t.phGuard))

/-- The code that column output j drives; none where the spec names none (between phases and in blanking lines) (log 151). -/
def pavColumn (d : Dev) (j : Nat) : Option Nat :=
  if blanked d then some 0 else (pavPhase d).map (fun p => d.pav.driven.getD (8 * j + p) 0)

/-- A gate pulse of the lines that a test names. -/
def gatePulse (d : Dev) (line : Nat → Bool) : Bool :=
  let t := d.pav.timing
  let x := panelAt d
  !blanked d && line x.1 && decide (t.gateOn ≤ x.2 ∧ x.2 < t.gateOff)

/-- The level of PAV_GIP_n (log 151). -/
def pavGip (d : Dev) (n : Nat) : Bool :=
  let x := panelAt d
  match n with
  | 0 => !blanked d && decide (x.1 = 0)
  | 1 | 2 | 3 | 4 => gatePulse d (fun r => decide (r < 240 ∧ r % 4 = n - 1))
  | 5 => !blanked d && decide (x.1 < 240 ∧ x.2 < d.pav.timing.gateOn)
  | 6 => !blanked d && decide (x.1 = 1)
  | 7 => gatePulse d (fun r => decide (1 ≤ r ∧ r ≤ 240))
  | 8 => decide (fldA d Reg.pavCtl 1 1 = 1)
  | 9 => blanked d
  | 10 => decide (fldA d Reg.pavCtl 2 2 = 1)
  | _ => decide (fldA d Reg.pavCtl 3 3 = 1)

/-! ### Stress records (R471, R472) -/

/-- The largest counter of a colour. -/
def stressMax (m : SMap Nat) (c : Nat) : Nat := (m.filter (fun kv => kv.1 % 3 = c)).foldl (fun a kv => max a kv.2) 0

/-- The predicted days (R472) from the maxima now and a day of records ago (log 105). -/
def eolDays (d : Dev) (new old : List Nat) : Nat :=
  let per (c : Nat) : Option Nat :=
    let age := fldA d (Reg.pavAge c) 15 0
    let g := new.getD c 0 - old.getD c 0
    let eol := (fldA d Reg.pavStressCfg 31 16 - 4096) * 2 ^ 20 / max age 1
    if age = 0 then none
    else if eol ≤ new.getD c 0 then some 0
    else if g = 0 then none
    else some ((eol - new.getD c 0) / g)
  if (List.range 3).all (fun c => decide (new.getD c 0 ≤ old.getD c 0)) then 0xFFFFFFFF
  else ((List.range 3).filterMap per).foldl min 0xFFFFFFFF

/-- The counters as the journal takes them: index and value of each that is not 0. -/
def stressItem (m : SMap Nat) : List Nat := m.flatMap (fun kv => [kv.1, kv.2])

/-- Counters of an item. -/
def itemStress : Nat → List Nat → SMap Nat
  | 0, _ => []
  | n + 1, l => smSet 0 (itemStress n (l.drop 2)) (l.getD 0 0) (l.getD 1 0)

/-- Bytes of the counters as a series (R471). -/
def stressLen : Nat := 921600

/-- STRESS_JOURNAL: an hour of pace-domain time has passed. -/
def stressJournal (d : Dev) : Dev :=
  if d.sys.mode.code < 3 then d
  else
    let d1 := advanceTicks (d.pav.stressTick + 3600 * 250000000) d
    let new := (List.range 3).map (stressMax d1.pav.stress)
    let hist := (new :: d1.pav.maxima).take 25
    let d2 := journal 11 0 (stressItem d1.pav.stress) stressLen none false
      { d1 with pav.maxima := hist, pav.stressTick := d1.tim.ticks, pav.lastStress := now d1 }
    setP Reg.pavEolDays (eolDays d2 new (hist.getLastD new)) (bump 0x11 4 1 d2)

/-! ### Commands on counters and readback (R473, R474) -/

def specPavStressRead : OpSpec :=
  { opBase 0x1103 0xF8 with
    bufUse := .write
    params := fun p _ => zeroFrom p 2
    bufOk := fun p _ => decide (bufL p = 4 * param p 1)
    resources := fun p _ => resIf (decide (230400 < param p 0 + param p 1)) (badParam 0x41) }

/-- PAV_STRESS_READ. -/
def effPavStressRead : Nat → Pkt → Dev → Dev :=
  immediate fun p d =>
    (ok (param p 1) 0 0 0,
      wrBytes (bufA p) ((List.range (param p 1)).flatMap (fun i => leBytes 4 (smGet 0 d.pav.stress (param p 0 + i)))) d)

/-- The counters of a preset. -/
def presetVals (p : Pkt) (d : Dev) : List Nat := (List.range (param p 1)).map (fun i => rdLE d (bufA p + 4 * i) 4)

def specPavStressPreset : OpSpec :=
  { opBase 0x1104 0x88 with
    bufUse := .read
    params := fun p _ => zeroFrom p 2
    bufOk := fun p _ => decide (bufL p = 4 * param p 1)
    resources := fun p d => resIf (decide (230400 < param p 0 + param p 1) || (presetVals p d).any (fun v => decide (2 ^ 24 ≤ v))) (badParam 0x41) }

/-- PAV_STRESS_PRESET. -/
def effPavStressPreset (id : Nat) (p : Pkt) (d : Dev) : Dev :=
  let vs := presetVals p d
  let m := (List.range vs.length).foldl (fun m i => smSet 0 m (param p 0 + i) (vs.getD i 0)) d.pav.stress
  journal 11 0 (stressItem m) stressLen (some ⟨id, stOk, 0, 0, 0, 0⟩) false { d with pav.presets := d.pav.presets ++ [(id, param p 0, vs)] }

/-- READ_STATE 0x1100_0000. -/
def pavState (d : Dev) : List Byte :=
  leBytes 1 d.pav.front ++ leBytes 1 (b2n d.pav.flip.isSome) ++ leBytes 6 0 ++ leBytes 8 d.pav.lastFlip ++ leBytes 8 d.pav.lastStress ++
  leBytes 4 (regP d Reg.pavEolDays) ++ (List.range 3).flatMap (fun c => leBytes 4 (stressMax d.pav.stress c)) ++ List.replicate 24 (0 : Byte)

end Sys2Proof.Machine
end

