-- ==== Sys2Proof/Machine/Can.lean ====
section
/-!
DEFINITION. The CAN FD controllers and group 0x0C (spec/17_can.md R386–R402).
-/

namespace Sys2Proof.Machine

/-! ### Registers and modes (R387–R390) -/

/-- A controller. -/
def canOf (d : Dev) (n : Nat) : CanCtl := smGet CanCtl.reset d.can.ctl n
/-- It is replaced. -/
def setCan (n : Nat) (x : CanCtl) (d : Dev) : Dev := { d with can.ctl := smSet CanCtl.reset d.can.ctl n x }
/-- A message buffer's words. -/
def cbufOf (d : Dev) (n m : Nat) : CanBuf := smGet CanBuf.zero (canOf d n).bufs m
/-- They are replaced. -/
def setCbuf (n m : Nat) (b : CanBuf) (d : Dev) : Dev :=
  setCan n { canOf d n with bufs := smSet CanBuf.zero (canOf d n).bufs m b } d

/-- A STAT bit. -/
def canStatBit (d : Dev) (n b : Nat) : Bool := bitAt (regP d (Reg.canStat n)) b
/-- A STAT bit is set or cleared. -/
def setStat (n b : Nat) (v : Bool) (d : Dev) : Dev := setF (Reg.canStat n) b b (b2n v) d
/-- A bit of CAN_n_MB_m_CMD. -/
def mbBit (d : Dev) (n m b : Nat) : Bool := bitAt (regP d (Reg.canMbCmd n m)) b
/-- It is set or cleared. -/
def setMb (n m b : Nat) (v : Bool) (d : Dev) : Dev := setF (Reg.canMbCmd n m) b b (b2n v) d
/-- MODE of a buffer: 0b101–0b111 act as off (R391). -/
def mbMode (d : Dev) (n m : Nat) : Nat :=
  let v := fld d (Reg.canMbCmd n m) 31 29
  if 4 < v then 0 else v

/-- FD formats enabled. -/
def canFd (d : Dev) (n : Nat) : Bool := fldA d (Reg.canCtl n) 1 1 = 1

/-- Whether the applied timing lies outside R387. -/
def timingBad (d : Dev) (n : Nat) : Bool :=
  let w := regA d (Reg.canNbt n)
  let t1 := bits w 15 8 + 1
  let t2 := bits w 22 16 + 1
  let v := regA d (Reg.canDbt n)
  let u1 := bits v 12 8 + 1
  let u2 := bits v 19 16 + 1
  decide (t1 < 2 ∨ t2 < bits w 29 23 + 1 ∨ (1 + t1 + t2) * (bits w 7 0 + 1) < 80) ||
  (canFd d n && decide (u2 < bits v 23 20 + 1 ∨ (1 + u1 + u2) * (bits v 4 0 + 1) < 10))

/-- How a controller acts (R387, R390): 0 off, 1 normal, 2 listen-only, 3 loopback. -/
def canActs (d : Dev) (n : Nat) : Nat :=
  let op := fldA d (Reg.canCtl n) 3 2
  if d.sys.mode.code < 3 ∨ canStatBit d n 27 then 0
  else if op = 3 ∧ d.sys.mode ≠ .service then 0
  else if op ≠ 0 ∧ d.sys.mode = .standby then 2
  else op

/-- The f_can counter (R396): 80 MHz from 250 MHz ticks. -/
def canTsc (d : Dev) : Nat := d.tim.ticks * 8 / 25 % 2 ^ 32

/-- The service of a frame is charged to class 7, which a pause of the class does not hold up: the bus goes on (R30) (log 50). -/
def canServe (len : Nat) (d : Dev) : Dev := charge 7 .mgmt (Config.canUs len).toNat (charge 7 .beats (Config.canBeats len).toNat d)

/-! ### Waits and errors (R398, R399) -/

/-- An event e of controller n at time t completes the waits that name it. -/
def canEvent (n e t : Nat) (d : Dev) : Dev :=
  let hit := d.can.waits.filter (fun w => bitAt w.2.1 n && bitAt w.2.2 e)
  hit.foldl (fun d w => complete w.1 (ok (n + (1 <<< e) <<< 8) (lo32 t) (hi32 t) 0) d)
    { d with can.waits := d.can.waits.filter (fun w => !(bitAt w.2.1 n && bitAt w.2.2 e)) }

/-- An error-state entry: recorded, and its waits complete; 2 warning, 1 error-passive, 0 bus-off. -/
def canStateEntry (n e : Nat) (d : Dev) : Dev := canEvent n e (now d) (event 0x0C 1 [n, e, (canOf d n).tec, (canOf d n).rec_] d)

/-- The error counters take values; the states follow (R398) (log 115). -/
def canErrors (n tec rec_ : Nat) (d : Dev) : Dev :=
  let boff := decide (255 < tec) || canStatBit d n 31
  let was := canOf d n
  let d1 := setCan n { was with tec := min tec 256, rec_ := rec_ } d
  let d2 := setP (Reg.canErr n) (min tec 256 + (if 127 < rec_ then 127 * 65536 + 2 ^ 23 else rec_ * 65536)) d1
  let warn := decide (96 ≤ tec ∨ 96 ≤ rec_)
  let pass := decide (127 < tec ∨ 127 < rec_) && !boff
  let w0 := canStatBit d n 29
  let p0 := canStatBit d n 30
  let b0 := canStatBit d n 31
  let d3 := setStat n 29 warn (setStat n 30 pass (setStat n 31 boff d2))
  let d4 := if warn && !w0 then canStateEntry n 2 d3 else d3
  let d5 := if pass && !p0 then canStateEntry n 1 d4 else d4
  if boff && !b0 then
    canStateEntry n 0 (bump 0xC (9 * n + 3) 1
      (setCan n { canOf d5 n with lastBoff := now d5, run := none } d5))
  else d5

/-- An error of the given LEC. -/
def canLec (n lec : Nat) (d : Dev) : Dev := bump 0xC (9 * n + 2) 1 (setF (Reg.canStat n) 2 0 lec d)

/-! ### Transmission (R394, R395) -/

/-- The arbitration field as it appears on the bus, as a number. -/
def arbKey (b : CanBuf) : Nat :=
  let base := bits b.id 28 18 <<< 21
  let rtr := if bitAt b.format 31 then 0 else bits b.id 30 30
  if bitAt b.id 31 then base + 1 <<< 20 + 1 <<< 19 + bits b.id 17 0 <<< 1 + rtr else base + rtr <<< 20

/-- Pending buffers. -/
def txPending (d : Dev) (n : Nat) : List Nat :=
  (List.range 64).filter (fun m => mbBit d n m 4 && decide (mbMode d n m = 4))

/-- The pending buffer that goes first: lowest arbitration field, then lowest number. -/
def txFirst (d : Dev) (n : Nat) : Option Nat :=
  (txPending d n).foldl (fun (a : Option Nat) m =>
    match a with
    | none => some m
    | some k => if arbKey (cbufOf d n m) < arbKey (cbufOf d n k) then some m else some k) none

/-- A request ends: TX_DONE or TX_ERR. -/
def txEnd (n m : Nat) (good : Bool) (d : Dev) : Dev := setMb n m (if good then 5 else 6) true (setMb n m 4 false d)

/-- The controller may transmit: normal or loopback, integrated, not bus-off, no timing waiting. -/
def canMayTx (d : Dev) (n : Nat) : Bool :=
  decide (canActs d n = 1 ∨ canActs d n = 3) && canStatBit d n 26 && !canStatBit d n 31 && !(canOf d n).take

/-- On an idle bus the first pending buffer starts; a frame of a format that is not enabled fails (log 114). -/
def canKick : Nat → Nat → Dev → Dev
  | 0, _, d => d
  | f + 1, n, d =>
    if !canMayTx d n ∨ (canOf d n).run.isSome then d
    else
      match txFirst d n with
      | none => d
      | some m =>
        if bitAt (cbufOf d n m).format 31 && !canFd d n then canKick f n (txEnd n m false d)
        else setCan n { canOf d n with run := some m } d

/-- Start with fuel for every buffer. -/
def canGo (n : Nat) (d : Dev) : Dev := canKick 65 n d

/-- CAN_TXREQ_WRITE (R390, R394). -/
def canTxreq (n w : Nat) (mask : Word) (d : Dev) : Dev :=
  if mask.toNat = 0 then d
  else if d.sys.mode.code < 3 ∨ d.sys.mode = .standby then setStat n 25 true d
  else
    canGo n ((List.range 32).foldl (fun d b =>
      let m := 32 * w + b
      if bitAt mask.toNat b && decide (mbMode d n m = 4) && !mbBit d n m 4 then setMb n m 7 false (setMb n m 4 true d) else d) d)

/-- CAN_TXABORT_WRITE: requests whose transmission has not started end with TX_ERR. -/
def canTxabort (n w : Nat) (mask : Word) (d : Dev) : Dev :=
  (List.range 32).foldl (fun d b =>
    let m := 32 * w + b
    if bitAt mask.toNat b && mbBit d n m 4 && decide ((canOf d n).run ≠ some m) then txEnd n m false d else d) d

/-- A launch of kind 4 fires (R395). -/
def canLaunch (index : Nat) (d : Dev) : Dev :=
  let n := index / 64 % 8
  let m := index % 64
  if mbMode d n m ≠ 4 ∨ mbBit d n m 4 ∨ canActs d n = 0 ∨ canActs d n = 2 ∨ canStatBit d n 31 then
    bump 0xC (9 * n + 7) 1 (addF (Reg.canLaunchLost n) 31 0 1 d)
  else canGo n (setMb n m 7 true (setMb n m 4 true (canServe 0 d)))

/-- Entry to HOLD: launched requests that have not started are cleared (R395). -/
def canHold (d : Dev) : Dev :=
  (List.range 8).foldl (fun d n => (List.range 64).foldl (fun d m =>
    if mbBit d n m 4 && mbBit d n m 7 && decide ((canOf d n).run ≠ some m) then txEnd n m false d else d) d) d

/-! ### Reception (R391–R393) -/

/-- Data bytes of a DLC (ISO 11898-1). -/
def dlcBytes (format id : Nat) : Nat :=
  let v := bits format 3 0
  if bitAt format 31 then [0, 1, 2, 3, 4, 5, 6, 7, 8, 12, 16, 20, 24, 32, 48, 64].getD v 0
  else if bitAt id 30 then 0 else min v 8

/-- The first buffer that accepts an ID word (R391). -/
def acceptor (d : Dev) (n id : Nat) : Option Nat :=
  (List.range 64).find? (fun m =>
    decide (1 ≤ mbMode d n m ∧ mbMode d n m ≤ 3) &&
    decide ((id ^^^ (cbufOf d n m).id) &&& (cbufOf d n m).mask &&& 0x9FFFFFFF = 0))

/-- An overrun of a buffer. -/
def canOverrun (n m : Nat) (d : Dev) : Dev := bump 0xC (9 * n + 4) 1 (addF (Reg.canOverrun n) 31 0 1 (setMb n m 1 true d))

/-- The contents of a buffer become those of a frame. -/
def cbufTake (b : CanBuf) (f : CanFrame) : CanBuf := { b with id := f.id, format := f.format, stamp := f.stamp, data := f.data }

/-- A receive buffer accepts a frame (R392). -/
def bufAccept (n m : Nat) (f : CanFrame) (d : Dev) : Dev :=
  let b := { cbufOf d n m with fresh := (d.tim.ticks, f) :: (cbufOf d n m).fresh }
  if mbBit d n m 2 then
    (let d1 := if b.shadow.isSome then canOverrun n m d else d
     setMb n m 3 true (setCbuf n m { b with shadow := some f } d1))
  else
    (let d1 := if mbBit d n m 0 then canOverrun n m d else d
     setMb n m 0 true (setCbuf n m (cbufTake b f) d1))

/-- A FIFO of a controller. -/
def fifoOf (d : Dev) (n k : Nat) : List CanFrame := if k = 0 then (canOf d n).fifo0 else (canOf d n).fifo1
/-- It is replaced; CAN_n_FIFO_STAT follows. -/
def setFifo (n k : Nat) (l : List CanFrame) (d : Dev) : Dev :=
  setF (Reg.canFifoStat n) (16 * k + 5) (16 * k) l.length
    (setCan n (if k = 0 then { canOf d n with fifo0 := l } else { canOf d n with fifo1 := l }) d)

/-- A FIFO accepts a frame (R393). -/
def fifoAccept (n k : Nat) (f : CanFrame) (d : Dev) : Dev :=
  let l := fifoOf d n k
  if 32 ≤ l.length then bump 0xC (9 * n + 5) 1 (addF (Reg.canFifoDrop n) (16 * k + 15) (16 * k) 1 d)
  else
    let d1 := setFifo n k (l ++ [f]) d
    if l.isEmpty then
      canEvent n (3 + k) (now d1)
        (setCan n (if k = 0 then { canOf d1 n with since0 := now d1 } else { canOf d1 n with since1 := now d1 }) d1)
    else d1

/-- A good frame reaches its buffer or FIFO, or none (R391). -/
def canDeliver (n : Nat) (f : CanFrame) (d : Dev) : Dev :=
  let d1 := canServe f.data.length (bump 0xC (9 * n) 1 d)
  match acceptor d1 n f.id with
  | none => bump 0xC (9 * n + 6) 1 (addF (Reg.canUnmatched n) 31 0 1 d1)
  | some m =>
    if mbMode d1 n m = 1 then bufAccept n m { f with buf := m } d1
    else fifoAccept n (mbMode d1 n m - 2) { f with buf := m } d1

/-- A transmission attempt of buffer m ended without success: again, unless ONE_SHOT (R394). -/
def txAgain (n m : Nat) (d : Dev) : Dev :=
  let d1 := setCan n { canOf d n with run := none } d
  canGo n (if mbBit d1 n m 28 then txEnd n m false d1 else d1)

/-- A receive error: REC rises by 1, and by 8 for each later dominant bit that ISO 11898-1 names. Listen-only counters do
not change (R390) (log 115). -/
def canRxError (n lec eights : Nat) (d : Dev) : Dev :=
  let d1 := canLec n lec d
  if canActs d1 n = 2 then d1 else canErrors n (canOf d1 n).tec ((canOf d1 n).rec_ + 1 + 8 * eights) d1

/-- CAN_FRAME_RECEIVED: a reception of `dur` f_can periods ends now; `lec` 0 is a good frame, else its error, with
`eights` as above (log 80). -/
def canReceived (n id format : Nat) (data : List Byte) (dur lec eights : Nat) (d : Dev) : Dev :=
  let a := canActs d n
  if (a ≠ 1 ∧ a ≠ 2) ∨ !canStatBit d n 26 ∨ canStatBit d n 31 then d
  else
    let d0 := match (canOf d n).run with
      | some m => if lec = 0 then txAgain n m d else d
      | none => d
    if lec ≠ 0 then canRxError n lec eights d0
    else if bitAt format 31 && !canFd d0 n then
      (if fldA d0 (Reg.canCtl n) 4 4 = 1 then canRxError n 2 eights d0
       else setCan n { canOf d0 n with run := none } (setStat n 26 false d0))
    else
      let len := dlcBytes format id
      let f : CanFrame := ⟨id % 2 ^ 32, format &&& 0xE000000F, (canTsc d0 + 2 ^ 32 - dur % 2 ^ 32) % 2 ^ 32,
        sliceB (data.take len) 0 64, 0⟩
      let x := canOf d0 n
      let d1 := canDeliver n f d0
      if a = 2 then d1
      else canErrors n x.tec (if x.rec_ = 0 then 0 else if x.rec_ ≤ 127 then x.rec_ - 1
        else 119 + min 8 (Config.canRec n (ctr d1 0xC (9 * n)).toNat).toNat) d1

/-- CAN_FRAME_TRANSMITTED: the attempt in progress ends after `dur` f_can periods. `lec` 0 is success, 7 a lost
arbitration, else the error; `exempt` says that ISO 11898-1 leaves TEC unchanged, `eights` its further increments of 8;
`tdcv` is the delay measured in an FD frame (log 80). -/
def canTransmitted (n dur lec : Nat) (exempt : Bool) (eights tdcv : Nat) (d : Dev) : Dev :=
  match (canOf d n).run with
  | none => d
  | some m =>
    if !canMayTx d n ∧ !(canOf d n).take then d
    else
      let b := cbufOf d n m
      let d0 :=
        if lec ≠ 7 ∧ bitAt b.format 31 ∧ bitAt (canOf d n).tdc 31 ∧ bits (canOf d n).tdc 22 16 ≤ tdcv then
          setF (Reg.canStat n) 22 16 tdcv d
        else d
      if lec = 7 then txAgain n m d0
      else if lec ≠ 0 then
        (let d1 := canLec n lec d0
         txAgain n m (canErrors n ((canOf d1 n).tec + (if exempt then 0 else 8) + 8 * eights) (canOf d1 n).rec_ d1))
      else
        let stamp := (canTsc d0 + 2 ^ 32 - dur % 2 ^ 32) % 2 ^ 32
        let d1 := setCbuf n m { b with stamp := stamp } (setCan n { canOf d0 n with run := none } d0)
        let x := canOf d1 n
        let d2 := canErrors n (x.tec - 1) x.rec_ (bump 0xC (9 * n + 1) 1 (txEnd n m true (canServe (dlcBytes b.format b.id) d1)))
        let esi := canStatBit d0 n 30
        let d3 := if canActs d2 n = 3 then
            canDeliver n ⟨b.id, putBits b.format 29 29 (b2n (bitAt b.format 31 && esi)), stamp,
              sliceB (b.data.take (dlcBytes b.format b.id)) 0 64, 0⟩ d2
          else d2
        canGo n d3

/-! ### Locks, FIFOs, recovery, timing -/

/-- CAN_LOCK_BUFFER. -/
def canLock (n m : Nat) (d : Dev) : Dev := setMb n m 2 true d

/-- CAN_RELEASE_BUFFER (R392). -/
def canRelease (n m : Nat) (d : Dev) : Dev :=
  let b := cbufOf d n m
  if !mbBit d n m 2 then setMb n m 0 false d
  else
    match b.shadow with
    | some f => setMb n m 2 false (setMb n m 3 false (setMb n m 0 true (setCbuf n m { cbufTake b f with shadow := none } d)))
    | none => setMb n m 2 false (setMb n m 0 false d)

/-- CAN_FIFO_POP (R393). -/
def canPop (n k : Nat) (d : Dev) : Dev :=
  if (fifoOf d n k).isEmpty then d else setFifo n k ((fifoOf d n k).drop 1) d

/-- Bus-off recovery starts (R398). -/
def canRecover (n : Nat) (d : Dev) : Dev := if canStatBit d n 31 then setStat n 28 true d else d

/-- CAN_BOFF_RECOVER: a write of CAN_n_CTL with BOFF_RECOVER set. -/
def canBoffWrite (n : Nat) (w : Word) (d : Dev) : Dev := canRecover n (writePlain (Reg.canCtl n) w.toNat d)

/-- CAN_RECOVERY_COMPLETE: error-active, both counters 0. -/
def canRecovered (n : Nat) (d : Dev) : Dev :=
  if !canStatBit d n 28 then d
  else
    let d1 := setStat n 28 false (setStat n 31 false d)
    canGo n (canEvent n 5 (now d1) (canErrors n 0 0 d1))

/-- CAN_TIMING_TAKEUP at a bus-idle instant (R389): the engine integrates afresh. -/
def canTakeup (n : Nat) (d : Dev) : Dev :=
  let x := canOf d n
  if !x.take ∨ x.run.isSome then d
  else
    setStat n 26 false (setCan n { x with take := false, nbt := regA d (Reg.canNbt n), dbt := regA d (Reg.canDbt n), tdc := regA d (Reg.canTdc n) } d)

/-- CAN_BUS_INTEGRATION: 11 consecutive recessive bits have passed (log 114). -/
def canIntegrated (n : Nat) (d : Dev) : Dev :=
  if canActs d n = 0 ∨ (canOf d n).take then d else canGo n (setStat n 26 true d)

/-- After a change of mode or of applied registers: TIMING_BAD, timing that waits, and what a controller that may not
transmit leaves (R387, R389, R390). -/
def canFollow (d : Dev) : Dev :=
  (List.range 8).foldl (fun d n =>
    let d1 := if fldA d (Reg.canCtl n) 3 2 = 0 ∧ regA d (Reg.canNbt n) = 0 then d else setStat n 27 (timingBad d n) d
    let x := canOf d1 n
    let differ := decide (x.nbt ≠ regA d1 (Reg.canNbt n) ∨ x.dbt ≠ regA d1 (Reg.canDbt n) ∨ x.tdc ≠ regA d1 (Reg.canTdc n))
    let a := canActs d1 n
    let d2 := setCan n { x with take := differ, run := if a = 0 ∨ a = 2 then none else x.run } d1
    canGo n (if a = 0 then setStat n 26 false d2 else d2)) d

/-! ### Capture (R396, R397) -/

/-- C_p and T are latched at a boundary (log 114). -/
def canPair (t : Nat) (d : Dev) : Dev := { d with can.pairT := t, can.pairC := canTsc d }

/-- TB(s) of R396, by the pair in force. -/
def canTime (d : Dev) (s : Nat) : Nat :=
  let delta : Int := sx 32 ((s + 2 ^ 32 - d.can.pairC) % 2 ^ 32)
  ((d.can.pairT : Int) + divRNE (delta * 25 * (10 ^ 9 + d.tim.rate)) (2 * 10 ^ 9)).toNat

/-- The value of a field of a frame; none when it lies beyond its data. -/
def canFieldVal (x : CanField) (f : CanFrame) : Option Int :=
  if dlcBytes f.format f.id < x.first + x.size then none
  else
    let b := sliceB f.data x.first x.size
    let v := leNat (if bitAt x.ctrl 5 then b.reverse else b)
    some (if bitAt x.ctrl 4 then sx (8 * x.size) v else (v : Int))

/-- The samples of source 5 at a capture, their stamps converted by the pair of the frame they came in, as in the worked example of
R396; a frame completed on the boundary tick stays for the next one (R25) (log 6, 114). -/
def canSamples (d : Dev) : List Sample × Dev :=
  let newest (n m : Nat) : Option CanFrame :=
    ((cbufOf d n m).fresh.find? (fun v => decide (v.1 < d.tim.ticks))).map (·.2)
  let r := d.can.fields.foldl (fun (r : List Sample × Dev) kv =>
    let x := kv.2
    let n := x.ctrl % 8
    if !bitAt x.ctrl 7 ∨ mbMode d n x.buffer ≠ 1 then r
    else
      match newest n x.buffer with
      | none => r
      | some f =>
        match canFieldVal x f with
        | none => (r.1, bump 0xC (9 * n + 8) 1 r.2)
        | some v => (r.1 ++ [(⟨5, kv.1, fOfInt f64 v, canTime d f.stamp, false⟩ : Sample)], r.2)) (([] : List Sample), d)
  let ctl := smMap CanCtl.reset (fun _ c => { c with bufs := smMap CanBuf.zero (fun _ b =>
    { b with fresh := b.fresh.filter (fun v => decide (d.tim.ticks ≤ v.1)) }) c.bufs }) r.2.can.ctl
  (r.1, { r.2 with can.ctl := ctl })

/-! ### Register views -/

/-- A word of the four fixed words and data of a frame. -/
def frameWord (id format stamp mask : Nat) (data : List Byte) (o : Nat) : Nat :=
  if o = 0 then id else if o = 4 then format else if o = 8 then stamp else if o = 12 then mask
  else fieldLE data (o - 16) 4

/-- Registers of controller n that are computed, at instance offset o. -/
def canView (d : Dev) (n o : Nat) : Option Nat :=
  if o = 0x3C then some (canTsc d)
  else if o = 0x40 then some d.can.pairC
  else if 0x400 ≤ o ∧ o < 0x400 + 64 * 0x50 then
    (let b := cbufOf d n ((o - 0x400) / 0x50)
     some (frameWord b.id b.format b.stamp b.mask b.data ((o - 0x400) % 0x50)))
  else if 0x1800 ≤ o ∧ o < 0x1900 ∧ (o - 0x1800) % 0x80 < 0x50 then
    (match (fifoOf d n ((o - 0x1800) / 0x80)).head? with
     | some f => some (frameWord f.id f.format f.stamp f.buf f.data ((o - 0x1800) % 0x80))
     | none => some 0)
  else none

/-- A write to a buffer word of controller n at instance offset o (R394): discarded while TXREQ is set. -/
def canBufWrite (n o : Nat) (w : Word) (d : Dev) : Dev :=
  let m := (o - 0x400) / 0x50
  let k := (o - 0x400) % 0x50
  if mbBit d n m 4 then setStat n 24 true d
  else
    let b := cbufOf d n m
    setCbuf n m
      (if k = 0 then { b with id := w.toNat } else if k = 4 then { b with format := w.toNat }
       else if k = 8 then b else if k = 12 then { b with mask := w.toNat }
       else { b with data := overlay b.data (k - 16) (leBytes 4 w.toNat) }) d

/-! ### Commands of group 0x0C (R399–R401) -/

/-- A field table entry in the buffer. -/
def canFieldAt (p : Pkt) (d : Dev) (i : Nat) : List Byte := rdBytes d (bufA p + 8 * i) 8

/-- Whether an entry breaks R397 or R400 (log 114). -/
def canFieldBad (b : List Byte) : Bool :=
  decide (fieldLE b 0 1 &&& 0x48 ≠ 0 ∨ 63 < fieldLE b 1 1 ∨ 64 < fieldLE b 2 1 + fieldLE b 3 1 ∨ fieldLE b 3 1 = 0 ∨
    8 < fieldLE b 3 1 ∨ fieldLE b 4 4 ≠ 0)

def specCanFields : OpSpec :=
  { opBase 0x0C01 0xE8 with
    bufUse := .read
    params := fun p _ => (firstBad [(decide (param p 1 = 0 ∨ 512 < param p 1), 0x24)]).or (zeroFrom p 2)
    bufOk := fun p _ => decide (bufL p = 8 * param p 1)
    resources := fun p d =>
      if 512 < param p 0 + param p 1 then some (badParam 0x42)
      else ((List.range (param p 1)).find? (fun i => canFieldBad (canFieldAt p d i))).map (fun i => bad1 0x40 (param p 0 + i)) }

/-- CAN_FIELDS (R397). -/
def effCanFields : Nat → Pkt → Dev → Dev :=
  immediate fun p d =>
    (ok 0 0 0 0, (List.range (param p 1)).foldl (fun e i =>
      let b := canFieldAt p d i
      let x : CanField := ⟨fieldLE b 0 1, fieldLE b 1 1, fieldLE b 2 1, fieldLE b 3 1⟩
      { e with can.fields := smSet ⟨0, 0, 0, 0⟩ e.can.fields (param p 0 + i) x }) d)

/-- The lowest controller of a mask with a FIFO event of a mask that holds, and the FIFO bits that hold. -/
def canHolds (d : Dev) (cm em : Nat) : Option (Nat × Nat) :=
  ((List.range 8).map (fun n => (n, (if bitAt em 3 && !(canOf d n).fifo0.isEmpty then 8 else 0) +
    (if bitAt em 4 && !(canOf d n).fifo1.isEmpty then 16 else 0)))).find? (fun v => bitAt cm v.1 && decide (v.2 ≠ 0))

def specCanWait : OpSpec :=
  { opBase 0x0C02 0xF8 with
    params := fun p _ => (firstBad [(decide (0xFF < param p 0), 0x20), (decide (0x3F < param p 1), 0x24)]).or (zeroFrom p 2)
    resources := fun p d =>
      if param p 0 = 0 ∨ param p 1 = 0 then some (badParam 0x41)
      else if 16 ≤ d.can.waits.length && (canHolds d (param p 0) (param p 1)).isNone then some (refuse stBusy 2)
      else none }

/-- CAN_WAIT (R399). -/
def effCanWait (id : Nat) (p : Pkt) (d : Dev) : Dev :=
  match canHolds d (param p 0) (param p 1) with
  | some (n, e) =>
    let t := if bitAt e 3 then (canOf d n).since0 else (canOf d n).since1
    complete id (ok (n + e <<< 8) (lo32 t) (hi32 t) 0) d
  | none => { d with can.waits := d.can.waits ++ [(id, param p 0, param p 1)] }

def specCanDisarm : OpSpec :=
  { opBase 0x0C03 0xF8 with
    params := tagParams
    object := fun p d =>
      if (namedAmong d (d.can.waits.map (·.1)) (param p 0) (param p 1)).isSome then none else some (conflictObj d 0xF8 1) }

/-- CAN_DISARM. -/
def effCanDisarm : Nat → Pkt → Dev → Dev :=
  immediate fun p d =>
    match namedAmong d (d.can.waits.map (·.1)) (param p 0) (param p 1) with
    | none => (conflictObj d 0xF8 1, d)
    | some a => (ok 0 0 0 0, complete a (refuse stCancelled 0) { d with can.waits := d.can.waits.filter (fun x => x.1 ≠ a) })

def specCanRecover : OpSpec :=
  { opBase 0x0C04 0xF8 with params := fun p _ => (firstBad [(decide (7 < param p 0), 0x20)]).or (zeroFrom p 1) }

/-- CAN_RECOVER. -/
def effCanRecover : Nat → Pkt → Dev → Dev :=
  immediate fun p d => (ok (b2n (canStatBit d (param p 0) 31)) 0 0 0, canRecover (param p 0) d)

/-- READ_STATE 0x0C00_0000 + i (R401). -/
def canState (d : Dev) (n : Nat) : List Byte :=
  sliceB
    (leBytes 4 (regP d (Reg.canCtl n)) ++ leBytes 4 (regA d (Reg.canNbt n)) ++ leBytes 4 (regA d (Reg.canDbt n)) ++
     leBytes 4 (regA d (Reg.canTdc n)) ++ leBytes 4 (regP d (Reg.canStat n)) ++ leBytes 4 (regP d (Reg.canErr n)) ++
     leBytes 1 (canOf d n).fifo0.length ++ leBytes 1 (canOf d n).fifo1.length ++ leBytes 6 0 ++ leBytes 8 (canOf d n).lastBoff) 0 0x100 ++
  (List.range 64).flatMap (fun m => leBytes 4 (regP d (Reg.canMbCmd n m))) ++ List.replicate 0x200 (0 : Byte)

end Sys2Proof.Machine
end

