-- ==== Sys2Proof/Machine/Ptp.lean ====
section
/-!
DEFINITION. PTP messages, the Ethernet ports, substation telemetry and the commands on time
(spec/14_time_ethernet_launch.md R322–R337, R343, R510).
-/

namespace Sys2Proof.Machine

/-! ### Ports (R333, R510) -/

/-- ETH_p_CFG applied. -/
def ethCfg (d : Dev) (p : Nat) : Nat := regA d (Reg.ethCfg p)
/-- A port's record. -/
def portOf (d : Dev) (p : Nat) : PtpPort := d.tim.ports.getD p PtpPort.reset
/-- It is replaced. -/
def setPort (p : Nat) (v : PtpPort) (d : Dev) : Dev := { d with tim.ports := d.tim.ports.set p v }

/-- The port supports its IF_MODE. -/
def ifModeOk (d : Dev) (p : Nat) : Bool :=
  let m := bits (ethCfg d p) 3 2
  if p < 2 then decide (m < 2) else decide (2 ≤ m)

/-- The port handles frames: enabled, supported, its link up, the device past its boot. -/
def portUp (d : Dev) (p : Nat) : Bool :=
  bitAt (ethCfg d p) 0 && ifModeOk d p && decide ((portOf d p).speed ≠ 0) && decide (3 ≤ d.sys.mode.code)

/-- CFG_BAD follows the applied configuration. -/
def ethFollow (d : Dev) : Dev :=
  (List.range 4).foldl (fun d p => setF (Reg.ethStat p) 3 3 (b2n (!ifModeOk d p)) d) d

/-- ETHERNET_LINK_CHANGE: a port's link comes up at a speed in Mb/s, or goes down at 0 (log 80). -/
def ethLink (p speed : Nat) (d : Dev) : Dev :=
  let s := if speed < 100 then 0 else if speed < 1000 then 1 else if speed = 1000 then 2 else 3
  setF (Reg.ethStat p) 2 1 s (setF (Reg.ethStat p) 0 0 (b2n (decide (speed ≠ 0))) (setPort p { portOf d p with speed := speed } d))

/-- Receive latency. -/
def latRx (d : Dev) (p : Nat) : Int := sx 16 (fldA d (Reg.ethLat p) 15 0)
/-- Transmit latency. -/
def latTx (d : Dev) (p : Nat) : Int := sx 16 (fldA d (Reg.ethLat p) 31 16)

/-- A frame leaves a port. -/
def sendFrame (f : TxFrame) (d : Dev) : Dev := { d with tim.tx := f :: d.tim.tx }

/-- The applied MAC address of a port. -/
def macOf (d : Dev) (p : Nat) : Nat := regA d (Reg.ethMacLo p) + fldA d (Reg.ethMacHi p) 15 0 <<< 32
/-- The IPv4 address of a port in its IPv4-mapped form. -/
def ip4Of (d : Dev) (p : Nat) : List Byte :=
  List.replicate 10 (0 : Byte) ++ leBytes 2 0xFFFF ++ beBytes 4 (regA d (Reg.ethIp4 p))
/-- The IPv6 address of a port, lowest address byte first in each word. -/
def ip6Of (d : Dev) (p : Nat) : List Byte := (List.range 4).flatMap (fun k => leBytes 4 (regA d (Reg.ethIp6 p k)))
/-- The address is one of the port's own. -/
def ownIp (d : Dev) (p : Nat) (a : List Byte) : Bool :=
  (decide (regA d (Reg.ethIp4 p) ≠ 0) && (a == ip4Of d p)) ||
  (decide (ip6Of d p ≠ List.replicate 16 (0 : Byte)) && (a == ip6Of d p))

/-- A frame that the device does not consume, or a PTP message that uses what R325 does not list. -/
def dropFrame (ptp : Bool) (d : Dev) : Dev := bump 0xD (if ptp then 16 else 15) 1 d

/-- ETHERNET_FRAME_DROP on a port. -/
def ethDrop (p : Nat) (ptp : Bool) (d : Dev) : Dev := if portUp d p then dropFrame ptp d else d

/-- ARP_REQUEST: an ARP request or neighbour solicitation for one of the port's addresses is answered (R334). -/
def arpRequest (p : Nat) (addr : List Byte) (from_ : Nat) (d : Dev) : Dev :=
  if !portUp d p then d
  else if ownIp d p addr then sendFrame ⟨p, 6, now d, [from_, macOf d p], addr⟩ d
  else dropFrame false d

/-! ### PTP (R322, R325, R326, R332) -/

/-- EPOCH in seconds. -/
def epoch (d : Dev) : Nat := regA d Reg.timEpochHi <<< 32 + regA d Reg.timEpochLo
/-- PTP time as time base (R322). -/
def fromPtp (d : Dev) (secs ns : Nat) : Int := ((secs : Int) - epoch d) * 10 ^ 9 + ns
/-- Time base as PTP seconds and nanoseconds. -/
def toPtp (d : Dev) (t : Int) : Int × Int := (t / 10 ^ 9 + epoch d, t % 10 ^ 9)

/-- PTP_ROLE: 0 none, 1 SLAVE_A, 2 SLAVE_B, 3 MASTER. -/
def ptpRole (d : Dev) (p : Nat) : Nat := bits (ethCfg d p) 5 4
/-- PTP runs on the port. -/
def ptpOn (d : Dev) (p : Nat) : Bool := portUp d p && decide (bits (ethCfg d p) 7 6 ≠ 3) && decide (ptpRole d p ≠ 0)
/-- Peer-to-peer delays. -/
def isP2P (d : Dev) (p : Nat) : Bool := bitAt (ethCfg d p) 8
/-- domainNumber of domain x. -/
def domNumber (d : Dev) (x : Nat) : Nat := if x = 0 then fldA d Reg.timDomain 7 0 else fldA d Reg.timDomain 15 8
/-- The domain of a slave port. -/
def portDom (d : Dev) (p : Nat) : Option Nat :=
  if !ptpOn d p then none else if ptpRole d p = 1 then some 0 else if ptpRole d p = 2 then some 1 else none

/-- The slave domain that a message on its port belongs to. -/
def msgDom (d : Dev) (h : PtpHdr) : Option Nat :=
  match portDom d h.port with
  | some x => if h.domain = domNumber d x then some x else none
  | none => none

/-- Time base of the receive timestamp of a frame received now (R331). -/
def rxStamp (d : Dev) (p : Nat) : Int := (now d : Int) - latRx d p
/-- Time base of the transmit timestamp of a frame sent now (log 116). -/
def txStamp (d : Dev) (p : Nat) : Int := (now d : Int) + latTx d p

/-- Whether an interval lies in the range R325 supports. -/
def inRange (lo hi i : Int) : Bool := decide (lo ≤ i ∧ i ≤ hi)

/-- The sender is the parent of the domain on that port. -/
def isParent (v : PtpDom) (h : PtpHdr) : Bool :=
  match v.parent with
  | some f => decide (f.port = h.port ∧ f.src = h.src ∧ f.srcPort = h.srcPort)
  | none => false

/-- A Sync of the parent is complete (R326): origin in PTP time, correction in 2⁻¹⁶ ns, receive timestamp. -/
def syncDone (x : Nat) (p : Nat) (secs ns : Nat) (corr rx : Int) (d : Dev) : Dev :=
  let q := portOf d p
  let toSlave : Int := (rx - fromPtp d secs ns) * 65536 - corr
  let n := q.delays.length
  let sum := q.delays.foldl (· + ·) 0
  -- mean path delay sum / 2n in 2⁻¹⁶ ns
  let mean := if n = 0 then 0 else openQuot sum (2 * n * 65536)
  let theta := if n = 0 then openQuot toSlave 65536 else openQuot (toSlave * (2 * n) - sum) (2 * n * 65536)
  measure x theta mean rx.toNat (setPort p { q with toSlave := some toSlave, waiting := none } d)

/-- SYNC: a Sync of the parent gives a measurement at once when one-step; a two-step one waits for its Follow_Up (log 80). -/
def ptpSync (h : PtpHdr) (twoStep : Bool) (secs ns : Nat) (d : Dev) : Dev :=
  match msgDom d h with
  | none => d
  | some x =>
    if !inRange (-4) 1 h.interval then dropFrame true d
    else if !isParent (domOf d x) h then d
    else if twoStep then
      setPort h.port { portOf d h.port with waiting := some ⟨h.src, h.srcPort, h.seq, (rxStamp d h.port).toNat, h.corr⟩ } d
    else syncDone x h.port secs ns h.corr (rxStamp d h.port) d

/-- FOLLOW_UP: it completes the Sync of its sender and sequence number. -/
def ptpFollowUp (h : PtpHdr) (secs ns : Nat) (d : Dev) : Dev :=
  match msgDom d h, (portOf d h.port).waiting with
  | some x, some w =>
    if w.src = h.src ∧ w.srcPort = h.srcPort ∧ w.seq = h.seq then syncDone x h.port secs ns (w.corr + h.corr) w.rx d else d
  | _, _ => d

/-- The order of the best master clock algorithm: priority1, class, accuracy, variance, priority2, identity, then the
path (log 116). -/
def betterMaster (a b : Foreign) : Bool :=
  let key (f : Foreign) : List Nat := [f.prio1, f.cls, f.accuracy, f.variance, f.prio2, f.gm, f.steps, f.src, f.port]
  decide (key a < key b)

/-- ANNOUNCE: a sender's data set enters the best master clock algorithm of its domain (R326). -/
def ptpAnnounce (h : PtpHdr) (prio1 cls accuracy variance prio2 gm steps : Nat) (d : Dev) : Dev :=
  match msgDom d h with
  | none => d
  | some x =>
    if !inRange (-3) 3 h.interval then dropFrame true d
    else
      let f : Foreign := ⟨h.port, h.src, h.srcPort, prio1, cls, accuracy, variance, prio2, gm, steps⟩
      let v := domOf d x
      let rest := v.senders.filter (fun g => !(decide (g.port = f.port ∧ g.src = f.src ∧ g.srcPort = f.srcPort)))
      let all := rest ++ [f]
      let best := all.foldl (fun (b : Foreign) g => if betterMaster g b then g else b) f
      setDom x { v with senders := all, parent := some best } d

/-- A delay measurement of a port: the newest 8 count (log 116). -/
def addDelay (p : Nat) (trip : Int) (d : Dev) : Dev :=
  setPort p { portOf d p with delays := (trip :: (portOf d p).delays).take 8 } d

/-- DELAY_REQ on a MASTER port is answered with its receive timestamp. -/
def ptpDelayReq (h : PtpHdr) (d : Dev) : Dev :=
  if !ptpOn d h.port ∨ ptpRole d h.port ≠ 3 ∨ isP2P d h.port ∨ h.domain ≠ domNumber d 0 then d
  else
    let t := toPtp d (rxStamp d h.port)
    sendFrame ⟨h.port, 4, now d, [h.src, h.srcPort, h.seq, t.1.toNat, t.2.toNat, enc 64 h.corr], []⟩ d

/-- DELAY_RESP answers the port's last Delay_Req: a round trip with the last Sync (R326). -/
def ptpDelayResp (h : PtpHdr) (secs ns : Nat) (d : Dev) : Dev :=
  let q := portOf d h.port
  match msgDom d h, q.delayReq, q.toSlave with
  | some x, some (seq, t3), some s =>
    if !inRange (-4) 5 h.interval then dropFrame true d
    else if isP2P d h.port ∨ seq ≠ h.seq ∨ !isParent (domOf d x) h then d
    else addDelay h.port (s + (fromPtp d secs ns - t3) * 65536 - h.corr) (setPort h.port { q with delayReq := none } d)
  | _, _, _ => d

/-- PDELAY_REQ is answered with a one-step Pdelay_Resp that leaves `turn` ns later (R332). -/
def ptpPdelayReq (h : PtpHdr) (turn : Nat) (d : Dev) : Dev :=
  if !ptpOn d h.port ∨ !isP2P d h.port then d
  else
    let res : Int := (txStamp d h.port + turn - rxStamp d h.port) * 65536 + h.corr
    sendFrame ⟨h.port, 5, now d + turn, [h.src, h.srcPort, h.seq, 0, enc 64 res], []⟩ d

/-- PDELAY_RESP answers the port's last Pdelay_Req; a two-step one is not supported. -/
def ptpPdelayResp (h : PtpHdr) (twoStep : Bool) (d : Dev) : Dev :=
  let q := portOf d h.port
  match q.pdelayReq with
  | none => d
  | some (seq, t1) =>
    if !ptpOn d h.port ∨ !isP2P d h.port ∨ seq ≠ h.seq then d
    else if twoStep ∨ !inRange (-4) 5 h.interval then dropFrame true d
    else addDelay h.port ((rxStamp d h.port - t1) * 65536 - h.corr) (setPort h.port { q with pdelayReq := none } d)

/-- clockClass of a MASTER port (R326). -/
def clockClass (d : Dev) : Nat :=
  if timeSource d ≠ 1 ∨ !timeValid d then 248 else if holdover d then 7 else 6

/-- PTP_MESSAGE_TRANSMIT: kind 0 Sync, 1 Announce on a MASTER port, 2 Delay_Req, 3 Pdelay_Req. -/
def ptpTransmit (p kind : Nat) (d : Dev) : Dev :=
  let q := portOf d p
  let seq := q.seqs.getD kind 0
  let d1 := setPort p { q with seqs := q.seqs.set kind ((seq + 1) % 65536) } d
  let master := decide (ptpRole d p = 3)
  let q1 := portOf d1 p
  if !ptpOn d p then d
  else
    match kind with
    | 0 =>
      let t := toPtp d (txStamp d p)
      if master then sendFrame ⟨p, 0, now d, [seq, t.1.toNat, t.2.toNat, bits d.tim.acc 31 16, domNumber d 0], []⟩ d1 else d
    | 1 =>
      if master then
        sendFrame ⟨p, 1, now d, [seq, 128, clockClass d, 128, (Config.clockIdentity (BitVec.ofNat 48 (macOf d 0))).toNat, domNumber d 0], []⟩ d1
      else d
    | 2 =>
      if !master && !isP2P d p then
        sendFrame ⟨p, 2, now d, [seq, 0, 0], []⟩ (setPort p { q1 with delayReq := some (seq, (txStamp d p).toNat) } d1)
      else d
    | _ =>
      if isP2P d p then
        sendFrame ⟨p, 3, now d, [seq, 0, 0], []⟩ (setPort p { q1 with pdelayReq := some (seq, (txStamp d p).toNat) } d1)
      else d

/-! ### Telemetry (R335–R337) -/

/-- A substation table entry. -/
def substOf (d : Dev) (s : Nat) : Subst := smGet Subst.empty d.tim.subst s
/-- It is replaced. -/
def setSubst (s : Nat) (v : Subst) (d : Dev) : Dev := { d with tim.subst := smSet Subst.empty d.tim.subst s v }
/-- ENABLED. -/
def substOn (x : Subst) : Bool := bitAt x.port 7

/-- The tag of a datagram by the substation's slot; none where the slot is not usable (R448). -/
def datagramTag (d : Dev) (slot : Nat) (msg : List Byte) : Option (List Byte) :=
  match slotRefusal d slot [1] 2 8 none with
  | some _ => none
  | none => some (cmac (keyBytes (slotOf d slot)) msg)

/-- The number of the first check of R337 that a datagram from `src` fails; none when it passes. -/
def telemetryFault (src b : List Byte) (d : Dev) : Option Nat :=
  let count := fieldLE b 12 2
  let auth := bitAt (fieldLE b 14 1) 0
  let x := substOf d (fieldLE b 6 2)
  let len := 24 + 16 * count + (if auth then 16 else 0)
  let zeros := decide (fieldLE b 14 1 < 4) && decide (fieldLE b 15 1 = 0) &&
    (List.range (min count 16)).all (fun j => decide (fieldLE b (24 + 16 * j) 8 < 16))
  if sliceB b 0 4 ≠ [0x49, 0x53, 0x56, 0x44] ∨ fieldLE b 4 1 ≠ 1 ∨ fieldLE b 5 1 ≠ 1 ∨ !zeros then some 1
  else if 4096 ≤ fieldLE b 6 2 ∨ !substOn x ∨ src ≠ x.addr then some 2
  else if count = 0 ∨ 16 < count ∨ b.length ≠ len then some 3
  else if auth = decide (x.slot = 0xFF) ∨
      (auth ∧ datagramTag d x.slot (b.take (24 + 16 * count)) ≠ some (sliceB b (24 + 16 * count) 16)) then some 4
  else
    match x.lastSeq with
    | none => none
    | some l =>
      let dif := (fieldLE b 8 4 + 2 ^ 32 - l) % 2 ^ 32
      if 1 ≤ dif ∧ dif < 2 ^ 31 then none else some 5

/-- TELEMETRY_DATAGRAM: a UDP datagram on a port, from an address to an address and port. -/
def telemetry (p dport : Nat) (src dst b : List Byte) (d : Dev) : Dev :=
  if !portUp d p then d
  else if !bitAt (ethCfg d p) 9 ∨ dport ≠ fldA d Reg.ethCtl 15 0 ∨ !ownIp d p dst then dropFrame false d
  else
    match telemetryFault src b d with
    | some k => bump 0xD (7 + k) 1 d
    | none =>
      let s := fieldLE b 6 2
      let x := substOf d s
      let recs := (List.range (fieldLE b 12 2)).map fun j =>
        (16 * s + fieldLE b (24 + 16 * j) 1, fieldLE b (32 + 16 * j) 8, fieldLE b 16 8, d.tim.ticks)
      let d1 := if x.slot = 0xFF then d else countUse x.slot d
      bump 0xD 7 1 (setSubst s { x with lastSeq := some (fieldLE b 8 4) } { d1 with tim.rx := d1.tim.rx ++ recs })

/-- The samples of source 6 at a capture; a record completed on the boundary tick stays (R25). -/
def telemetrySamples (d : Dev) : List Sample × Dev :=
  let ready := d.tim.rx.filter (fun r => decide (r.2.2.2 < d.tim.ticks))
  (ready.map (fun r => (⟨6, r.1, r.2.1, r.2.2.1, false⟩ : Sample)),
   { d with tim.rx := d.tim.rx.filter (fun r => decide (d.tim.ticks ≤ r.2.2.2)) })

/-! ### Commands on time (R343) -/

def specTimeRead : OpSpec := opBase 0x0D01 0xF8

/-- TIME_READ. -/
def effTimeRead : Nat → Pkt → Dev → Dev :=
  immediate fun _ d => (ok (lo32 (now d)) (hi32 (now d)) (timStat d) (enc 32 d.tim.rate), d)

/-- TIM_CTL.SOURCE is TRELLIS. -/
def sourceTrellis (d : Dev) : Bool := fldA d Reg.timCtl 1 0 = 2

def specTimeSet : OpSpec :=
  { opBase 0x0D02 0xC8 with
    params := fun p _ => (firstBad [(decide (1 < param p 2), 0x28)]).or (zeroFrom p 3)
    object := fun _ d => if sourceTrellis d then some (conflictObj d 0xC8 1) else none }

/-- TIME_SET: to a value, or by a relative amount (R329). -/
def effTimeSet : Nat → Pkt → Dev → Dev :=
  immediate fun p d =>
    let v := param64 p 0
    let by_ : Int := if bitAt (param p 2) 0 then sx 64 v else (v : Int) - now d
    let d1 := stepTime by_ d
    (ok (lo32 (now d1)) (hi32 (now d1)) 0 0, d1)

def specTimeAccept : OpSpec :=
  { opBase 0x0D03 0xC8 with
    object := fun _ d =>
      if sourceTrellis d then some (conflictObj d 0xC8 1)
      else if fld d Reg.timStat 4 4 = 0 then some (conflictObj d 0xC8 2) else none }

/-- TIME_ACCEPT steps by −θ of the active domain's newest measurement. -/
def effTimeAccept : Nat → Pkt → Dev → Dev :=
  immediate fun _ d =>
    let by_ := -(domOf d (activeDom d)).theta
    (ok (lo32 (enc 64 by_)) (hi32 (enc 64 by_)) 0 0, setF Reg.timStat 4 3 0 (stepTime by_ d))

def specPtpStatus : OpSpec :=
  { opBase 0x0D04 0xF8 with bufUse := .write, bufOk := fun p _ => decide (128 ≤ bufL p) }

/-- The 64-byte record of a domain. -/
def domBytes (d : Dev) (x : Nat) : List Byte :=
  let v := domOf d x
  let f := v.parent.getD ⟨0, 0, 0, 0, 0, 0, 0, 0, 0, 0⟩
  let port := if v.parent.isSome then f.port else (Config.openResult 2).toNat
  leBytes 1 (domNumber d x) ++ leBytes 1 port ++ leBytes 1 f.cls ++ leBytes 5 0 ++ leBytes 8 f.src ++
  leBytes 8 (enc 64 v.theta) ++ leBytes 8 (enc 64 v.delay) ++ leBytes 8 v.at_ ++ leBytes 4 v.count ++
  leBytes 4 v.refusals ++ leBytes 16 0

/-- PTP_STATUS. -/
def effPtpStatus : Nat → Pkt → Dev → Dev :=
  immediate fun p d => (ok 128 0 0 0, wrBytes (bufA p) (domBytes d 0 ++ domBytes d 1) d)

def specSubstWrite : OpSpec :=
  { opBase 0x0D05 0xE8 with
    bufUse := .read
    params := fun p _ => (firstBad
      [(decide (4095 < param p 0), 0x20), (decide (param p 1 = 0 ∨ 4096 < param p 0 + param p 1), 0x24)]).or (zeroFrom p 2)
    bufOk := fun p _ => decide (bufL p = 32 * param p 1) }

/-- SUBST_WRITE (R335). -/
def effSubstWrite : Nat → Pkt → Dev → Dev :=
  immediate fun p d =>
    (ok 0 0 0 0, (List.range (param p 1)).foldl (fun e i =>
      let b := rdBytes d (bufA p + 32 * i) 32
      setSubst (param p 0 + i)
        { addr := sliceB b 0 16, mac := sliceB b 16 6, port := fieldLE b 0x16 1, slot := fieldLE b 0x17 1,
          udp := fieldLE b 0x18 2, lead := fieldLE b 0x1A 2, repeats := fieldLE b 0x1C 1, gap := fieldLE b 0x1D 1,
          lastSeq := none, outSeq := 0 } e) d)

end Sys2Proof.Machine
end

