-- ==== Sys2Proof/Machine/Rtc.lean ====
section
/-!
DEFINITION. Posted writes (spec/03_registers.md R88), the calendar, alarms, lock and unlock, and the RTC commands
(spec/22_rtc_health.md R475–R485, R490–R493).
-/

namespace Sys2Proof.Machine

/-! ### Posting buffers (R88) -/

/-- The posting buffer of a register: 0 RTC, 1 PAV, 2 + n CAN controller n (log 64). -/
def postBlock (o : Nat) : Nat :=
  if o / 0x10000 = 20 then 0
  else if o / 0x10000 = 21 then 1
  else 2 + (o - 0x0E0000) / 0x10000 * 4 + o % 0x10000 / 0x2000

/-- PSTAT of a posting block. -/
def pstatOf (b : Nat) : Nat := if b = 0 then Reg.rtcPstat else if b = 1 then Reg.pavPstat else Reg.canPstat (b - 2)

/-- A posted write that has not landed. -/
def posted (d : Dev) (b : Nat) : Option (Nat × Word) := smGet none d.rg.post b

/-- The RWP bits of a register. -/
def postMask (o : Nat) : Nat := accMask (fieldsAt o) .rwp

/-- v with the bits of a mask taken from w. -/
def mergeBits (v w mask : Nat) : Nat := (v &&& (0xFFFFFFFF - mask)) ||| (w &&& mask)

/-- A write to the RWP fields of a register is accepted, or dropped while BUSY is set (log 63). -/
def postWrite (o w : Nat) (d : Dev) : Dev :=
  let b := postBlock o
  if (posted d b).isSome then addF (pstatOf b) 31 16 1 d
  else
    let m := postMask o
    setF (pstatOf b) 0 0 1
      (setP o (mergeBits (regP d o) w m) { d with rg.post := smSet none d.rg.post b (some (o, u32 (w &&& m))) })

/-- The buffer of a block empties. -/
def unpost (b : Nat) (d : Dev) : Dev := setF (pstatOf b) 0 0 0 { d with rg.post := smSet none d.rg.post b none }

/-- The write that waits in a block's buffer lands (log 63). -/
def landWrite (b : Nat) (d : Dev) : Dev :=
  match posted d b with
  | none => d
  | some (o, w) => setL o (mergeBits (regL d o) w.toNat (postMask o)) (unpost b d)

/-! ### The calendar (R475) -/

/-- The calendar's range in seconds: 2000 to 2199. -/
def rtcRange : Nat := 73049 * 86400

/-- Years counted from 2000. -/
def leapYear (y : Nat) : Bool := decide (y % 4 = 0) && (decide (y % 100 ≠ 0) || decide (y % 400 = 0))
/-- Days of a month. -/
def monthDays (y m : Nat) : Nat :=
  match m with
  | 2 => if leapYear y then 29 else 28
  | 4 | 6 | 9 | 11 => 30
  | _ => 31
/-- Days of a year. -/
def yearDays (y : Nat) : Nat := if leapYear y then 366 else 365

/-- A date and time. -/
structure Civil where
  year : Nat
  month : Nat
  day : Nat
  hour : Nat
  minute : Nat
  second : Nat
  deriving DecidableEq, Repr

/-- Year and day of the year (from 0) of a day count, searched from year y. -/
def findYear : Nat → Nat → Nat → Nat × Nat
  | 0, y, n => (y, n)
  | k + 1, y, n => if n < yearDays y then (y, n) else findYear k (y + 1) (n - yearDays y)

/-- Month and day of a day of the year, searched from month m. -/
def findMonth : Nat → Nat → Nat → Nat → Nat × Nat
  | 0, _, m, n => (m, n + 1)
  | k + 1, y, m, n => if n < monthDays y m then (m, n + 1) else findMonth k y (m + 1) (n - monthDays y m)

/-- The date and time of RTC seconds. -/
def civilOf (secs : Nat) : Civil :=
  let yd := findYear 200 0 (secs / 86400)
  let md := findMonth 12 yd.1 1 yd.2
  let s := secs % 86400
  ⟨yd.1, md.1, md.2, s / 3600, s / 60 % 60, s % 60⟩

/-- The weekday, 1 Monday to 7 Sunday; 2000-01-01 is 6. -/
def weekday (secs : Nat) : Nat := (secs / 86400 + 5) % 7 + 1

/-- RTC seconds of a date and time. -/
def secsOf (c : Civil) : Nat :=
  let days := ((List.range c.year).map yearDays).foldl (· + ·) 0 +
    ((List.range (c.month - 1)).map (fun m => monthDays c.year (m + 1))).foldl (· + ·) 0 + (c.day - 1)
  86400 * days + 3600 * c.hour + 60 * c.minute + c.second

/-- The checks of R477. -/
def civilOk (c : Civil) : Bool :=
  decide (1 ≤ c.month ∧ c.month ≤ 12 ∧ 1 ≤ c.day ∧ c.day ≤ monthDays c.year c.month ∧ c.hour ≤ 23 ∧ c.minute ≤ 59 ∧
    c.second ≤ 59 ∧ c.year ≤ 199)

/-- A date and time as RTC_SET_DATE and RTC_SET_TIME hold it. -/
def civilOfWords (date time : Nat) : Civil :=
  ⟨bits date 23 16, bits date 15 8, bits date 7 0, bits time 23 16, bits time 15 8, bits time 7 0⟩
/-- RTC_SET_DATE of a date. -/
def dateWord (c : Civil) : Nat := c.year * 0x10000 + c.month * 0x100 + c.day
/-- RTC_SET_TIME of a time. -/
def timeWord (c : Civil) : Nat := c.hour * 0x10000 + c.minute * 0x100 + c.second

/-- RTC_NOW_DATE. -/
def nowDate (d : Dev) : Nat := weekday d.rtc.secs * 0x1000000 + dateWord (civilOf d.rtc.secs)
/-- RTC_NOW_TIME: FRAC is 0 on the tick of an increment or commit. -/
def nowTime (d : Dev) : Nat :=
  let c := civilOf d.rtc.secs
  let frac := if d.rtc.frac = d.tim.ticks then 0 else (Config.rtcFrac (d.tim.ticks - d.rtc.frac)).toNat
  frac * 0x20000 + c.hour * 0x1000 + c.minute * 0x40 + c.second

/-- Reading RTC_NOW_TIME latches its companions (R476) (log 86). -/
def latchRtc (d : Dev) : Dev :=
  setP Reg.rtcNowDate (nowDate d) (setP Reg.rtcSecsLo (lo32 d.rtc.secs) (setP Reg.rtcSecsHi (hi32 d.rtc.secs) d))

/-! ### Events, lock (R482, R493) -/

/-- A flag of RTC_STAT. -/
def rtcStatBit (d : Dev) (b : Nat) : Bool := bitAt (regP d Reg.rtcStat) b
/-- LOCKED. -/
def rtcLocked (d : Dev) : Bool := rtcStatBit d 1

/-- An event of this chapter, with the CODE it gives. -/
def rtcRecord (code : Nat) (items : List Nat) (d : Dev) : Dev :=
  recordEvent 0x12 code (leBytes 32 (Config.eventData (256 * 0x12 + code) items).toNat) none d

/-- In BACKUP the recorder is off: the event is recorded at the next start (log 85). -/
def rtcEvent (code : Nat) (items : List Nat) (d : Dev) : Dev :=
  if d.sys.mode = .backup then { d with rtc.due := d.rtc.due ++ [(code, items)] } else rtcRecord code items d

/-- The next start records what happened in BACKUP (R480) (log 85). -/
def rtcStart (d : Dev) : Dev := d.rtc.due.foldl (fun d e => rtcRecord e.1 e.2 d) { d with rtc.due := [] }

/-- A write to the locked block is discarded (R482). -/
def lockDrop (d : Dev) : Dev := bump 0x12 5 1 (addF Reg.rtcLockDrops 31 0 1 d)

/-- The interface locks: a posted write that has not landed is discarded, RTC_SET commands that wait end (log 63, 83). -/
def lockRtc (d : Dev) : Dev :=
  let d1 := { setF Reg.rtcStat 2 2 0 d with rtc.key := none }
  if rtcLocked d1 then d1
  else
    let d2 := rtcEvent 4 [] (bump 0x12 3 1 (setF Reg.rtcStat 1 1 1 d1))
    let d3 := match posted d2 0 with
      | some (o, _) => if o = Reg.rtcUnlock then d2 else lockDrop (unpost 0 d2)
      | none => d2
    d3.rtc.sets.foldl (fun d x => complete x.1 (conflictObj d 0xF8 1) d) { d3 with rtc.sets := [] }

/-- INTERFACE_LOCK: VAON has fallen below the lock threshold, or PFAIL_N is latched. -/
def interfaceLock (vaon : Bool) (d : Dev) : Dev := if vaon || d.sys.pfail then lockRtc d else d

/-- UNLOCK_READY: 10 ms of good VAON with PFAIL_N high (R483). -/
def unlockReady (d : Dev) : Dev :=
  if d.rtc.onVbat ∨ d.sys.pfail then d else setF Reg.rtcStat 2 2 1 d

/-- A landed key (R483) (log 84). -/
def unlockKey (k : Nat) (d : Dev) : Dev :=
  let close : Bool := match d.rtc.key with
    | some t => decide (d.tim.ticks ≤ t + 250000)
    | none => false
  if !rtcStatBit d 2 then { d with rtc.key := none }
  else if k = 0x00A5 then { d with rtc.key := some d.tim.ticks }
  else
    let d1 := { d with rtc.key := none }
    if decide (k = 0x005A) && close && rtcLocked d then rtcEvent 5 [] (bump 0x12 4 1 (setF Reg.rtcStat 1 1 0 d1)) else d1

/-! ### Commits (R477–R480) -/

/-- The calendar takes a set. -/
def setCalendar (secs : Nat) (d : Dev) : Dev :=
  let d1 := setF Reg.rtcStat 0 0 0 { d with rtc.secs := secs, rtc.frac := d.tim.ticks, rtc.commit := some d.tim.ticks }
  siloSecond (rtcEvent 1 [secs] (bump 0x12 0 1 d1))

/-- DATETIME: the landed date and time are checked and taken. -/
def commitDate (d : Dev) : Dev :=
  let c := civilOfWords (regL d Reg.rtcSetDate) (regL d Reg.rtcSetTime)
  if civilOk c then setCalendar (secsOf c) d else bump 0x12 1 1 (orP Reg.rtcStat 0x10 d)

/-- An alarm as its two words hold it. -/
def alarmOfWords (date time : Nat) : RtcAlarm :=
  ⟨bitAt date 31, bits date 29 24, bits date 18 16, bits date 15 8, bits date 7 0, bits time 23 16, bits time 15 8, bits time 7 0⟩

/-- Its fields are in range. -/
def alarmFits (a : RtcAlarm) : Bool :=
  decide (a.second ≤ 59 ∧ a.minute ≤ 59 ∧ a.hour ≤ 23 ∧ 1 ≤ a.day ∧ a.day ≤ 31 ∧ 1 ≤ a.month ∧ a.month ≤ 12 ∧
    1 ≤ a.weekday ∧ a.weekday ≤ 7)

/-- ALARM_n: the landed setting is checked and taken. -/
def commitAlarm (n : Nat) (d : Dev) : Dev :=
  let a := alarmOfWords (regL d (Reg.rtcAlmDate n)) (regL d (Reg.rtcAlmTime n))
  if alarmFits a then { d with rtc.alarms := smSet RtcAlarm.off d.rtc.alarms n a } else orP Reg.rtcStat 0x20 d

/-- CTL: the landed TRIM is taken up. -/
def commitTrim (d : Dev) : Dev := { d with rtc.trim := bits (regL d Reg.rtcCtl) 9 0 }

/-- A landed RTC_COMMIT acts on its tick. -/
def rtcCommit (w : Nat) (d : Dev) : Dev :=
  let d1 := if bitAt w 3 then commitTrim d else d
  let d2 := if bitAt w 1 then commitAlarm 0 d1 else d1
  let d3 := if bitAt w 2 then commitAlarm 1 d2 else d2
  if bitAt w 0 then commitDate d3 else d3

/-- POSTED_WRITE_LANDS: the write lands; RTC_COMMIT and RTC_UNLOCK act (log 63, 64). -/
def postLands (b : Nat) (d : Dev) : Dev :=
  match posted d b with
  | none => d
  | some (o, w) =>
    let d1 := landWrite b d
    if o = Reg.rtcCommit then rtcCommit w.toNat d1
    else if o = Reg.rtcUnlock then unlockKey w.toNat d1
    else d1

/-- A posted write to a register of the RTC lands, when one with a bit of the mask waits there (log 63). -/
def rtcLands (o mask : Nat) (d : Dev) : Dev :=
  match posted d 0 with
  | some (p, w) => if p = o ∧ w.toNat &&& mask ≠ 0 then postLands 0 d else d
  | none => d

/-- A posted write of the firmware: it polls, writes and waits until it has landed. -/
def firmPost (o w : Nat) (d : Dev) : Dev := postLands 0 (postWrite o w (postLands 0 d))

/-! ### The ticking clock (R475, R478–R481, R484, R485) -/

/-- An alarm matches the calendar. -/
def alarmMatch (a : RtcAlarm) (d : Dev) : Bool :=
  let c := civilOf d.rtc.secs
  let f (b x y : Nat) : Bool := bitAt a.mask b || decide (x = y)
  a.en && f 0 a.second c.second && f 1 a.minute c.minute && f 2 a.hour c.hour && f 3 a.day c.day && f 4 a.month c.month &&
  f 5 a.weekday (weekday d.rtc.secs)

/-- A match sets its flag; with main power present it raises vector 67. -/
def testAlarm (n : Nat) (d : Dev) : Dev :=
  if alarmMatch (smGet RtcAlarm.off d.rtc.alarms n) d then
    let d1 := rtcEvent 6 [n, d.rtc.secs] (bump 0x12 2 1 (orP Reg.rtcStat (0x40 <<< n) d))
    if d.sys.mode = .backup then d1 else raiseVec 67 d1
  else d

/-- RTC_SECOND: the calendar advances, unless a commit landed on the same tick. -/
def rtcSecond (d : Dev) : Dev :=
  if d.rtc.commit = some d.tim.ticks ∧ d.sys.mode ≠ .backup then d
  else
    let s := d.rtc.secs + 1
    let d1 := if s = rtcRange then orP Reg.rtcStat 0x100 { d with rtc.secs := 0 } else { d with rtc.secs := s }
    siloSecond (testAlarm 1 (testAlarm 0 { d1 with rtc.frac := d.tim.ticks }))

/-- TRIM_CORRECTION: 2²⁰ cycles have passed; TRIM cycles are inserted or dropped. -/
def trimCorrection (d : Dev) : Dev := { d with rtc.cycles := d.rtc.cycles + sx 10 d.rtc.trim }

/-- OSC_STOP_DETECT. -/
def oscStop (d : Dev) : Dev := rtcEvent 2 [] (bump 0x12 7 1 (orP Reg.rtcStat 1 d))

/-- SWITCH_TO_VBAT: the lock comes before it. -/
def switchToVbat (d : Dev) : Dev := { orP Reg.rtcStat 0x400 (lockRtc d) with rtc.onVbat := true }

/-- SWITCH_BACK_TO_VAON. -/
def switchToVaon (d : Dev) : Dev := { d with rtc.onVbat := false }

/-- The registers of the RTC block in a table. -/
def isRtcReg (o : Nat) : Bool := decide (o / 0x10000 = 20)

/-- ALWAYS_ON_RESET (R484) (log 85). -/
def alwaysOnReset (d : Dev) : Dev :=
  let d1 := d.rtc.sets.foldl (fun d x => complete x.1 (conflictObj d 0xF8 1) d) { d with rtc.sets := [] }
  let clear (m : SMap (Option Word)) : SMap (Option Word) := m.filter (fun kv => !isRtcReg kv.1)
  rtcEvent 3 [] (bump 0x12 6 1
    { d1 with rg.present := clear d1.rg.present, rg.landed := clear d1.rg.landed, rg.post := smSet none d1.rg.post 0 none,
              rtc := { RtcSt.reset with frac := d1.tim.ticks, onVbat := d1.rtc.onVbat, due := d1.rtc.due } })

/-! ### Commands (R490, R491) -/

/-- The locked interface refuses. -/
def rtcRefused (d : Dev) : Option Res := resIf (rtcLocked d) (conflictObj d 0xF8 1)

/-- RTC seconds of a time-base value with a UTC offset (R490). -/
def tbSecs (t : Nat) (ofs : Int) (d : Dev) : Int := (epoch d : Int) + (t / 10 ^ 9 : Nat) + ofs - 946684800

/-- RTC seconds outside the calendar. -/
def offCalendar (x : Int) : Bool := decide (x < 0) || decide ((rtcRange : Int) ≤ x)

/-- The next whole second of the time base. -/
def nextSecond (d : Dev) : Nat := (now d / 10 ^ 9 + 1) * 10 ^ 9

def specRtcSet : OpSpec :=
  { opBase 0x1201 0xF8 with
    params := fun p d =>
      let tb := bitAt (param p 0) 0
      (firstBad [(decide (1 < param p 0), 0x20), (decide (2 ^ 24 ≤ param p 1), 0x24), (decide (2 ^ 24 ≤ param p 2), 0x28),
        (!tb && decide (param p 3 ≠ 0), 0x2C)]).or ((zeroFrom p 4).or
      (firstBad [(if tb then offCalendar (tbSecs (nextSecond d) (sx 32 (param p 3)) d) else !civilOk (civilOfWords (param p 1) (param p 2)),
        0x40)]))
    object := fun p d => (rtcRefused d).or (resIf (bitAt (param p 0) 0 && !timeValid d) (conflictObj d 0xF8 2)) }

/-- The set is written, committed and landed; the command completes. -/
def rtcApply (id date time : Nat) (d : Dev) : Dev :=
  let d1 := firmPost Reg.rtcCommit 1 (firmPost Reg.rtcSetTime time (firmPost Reg.rtcSetDate date d))
  complete id (ok (lo32 d1.rtc.secs) (hi32 d1.rtc.secs) 0 0) d1

/-- RTC_SET; from the time base it applies at the next whole second (log 83). -/
def effRtcSet (id : Nat) (p : Pkt) (d : Dev) : Dev :=
  if bitAt (param p 0) 0 then { d with rtc.sets := d.rtc.sets ++ [(id, nextSecond d, sx 32 (param p 3))] }
  else rtcApply id (param p 1) (param p 2) d

/-- The oldest RTC_SET that waits for a whole second applies, at its instant or after a step past it. -/
def rtcSetDue (d : Dev) : Dev :=
  match d.rtc.sets with
  | [] => d
  | x :: rest =>
    let d1 := { d with rtc.sets := rest }
    let t := max x.2.1 (now d / 10 ^ 9 * 10 ^ 9)
    let s := tbSecs t x.2.2 d1
    if offCalendar s then complete x.1 (badParam 0x40) d1
    else
      let c := civilOf s.toNat
      rtcApply x.1 (dateWord c) (timeWord c) d1

def specRtcAlarm : OpSpec :=
  { opBase 0x1202 0xF8 with
    params := fun p _ =>
      (firstBad [(decide (1 < param p 0), 0x20), (decide (param p 1 &&& 0xBF07FFFF ≠ param p 1), 0x24),
        (decide (2 ^ 24 ≤ param p 2), 0x28)]).or ((zeroFrom p 3).or
      (firstBad [(!alarmFits (alarmOfWords (param p 1) (param p 2)), 0x40)]))
    object := fun _ d => rtcRefused d }

/-- RTC_ALARM. -/
def effRtcAlarm : Nat → Pkt → Dev → Dev :=
  immediate fun p d =>
    let n := param p 0
    (ok 0 0 0 0, firmPost Reg.rtcCommit (2 <<< n) (firmPost (Reg.rtcAlmTime n) (param p 2) (firmPost (Reg.rtcAlmDate n) (param p 1) d)))

def specRtcUnlock : OpSpec :=
  { opBase 0x1203 0xF8 with object := fun _ d => resIf (!rtcStatBit d 2) (conflictObj d 0xF8 3) }

/-- RTC_UNLOCK: both keys. -/
def effRtcUnlock : Nat → Pkt → Dev → Dev :=
  immediate fun _ d => (ok 0 0 0 0, firmPost Reg.rtcUnlock 0x005A (firmPost Reg.rtcUnlock 0x00A5 d))

def specRtcTrim : OpSpec :=
  { opBase 0x1204 0xF8 with
    params := fun p _ => (zeroFrom p 1).or (firstBad [(decide (2 ^ 10 ≤ param p 0), 0x41)])
    object := fun _ d => rtcRefused d }

/-- RTC_TRIM. -/
def effRtcTrim : Nat → Pkt → Dev → Dev :=
  immediate fun p d => (ok 0 0 0 0, firmPost Reg.rtcCommit 8 (firmPost Reg.rtcCtl (param p 0) d))

end Sys2Proof.Machine
end

