-- ==== Sys2Proof/Machine/Health.lean ====
section
/-!
DEFINITION. Health monitors, the backup-cell load test and their commands (spec/22_rtc_health.md R486–R493).
-/

namespace Sys2Proof.Machine

/-- Sizes of the MRAM areas in bytes: superblock, recorder, journal ring (R428). -/
def mramAreas : List Nat := [0x10000, 0x200000, 0xDF0000]

/-- w of a monitor now (R486): the sixth counts from the fused full margin down; the panel's is not computed. -/
def wearNow (d : Dev) (m : Nat) : Nat :=
  match m with
  | 0 => ((List.range 3968).map (fun i => smGet 0 d.grn.erase (64 + i))).foldl max 0
  | 1 => ((List.range 3).map (fun a => smGet 0 d.grn.mramWrites a / mramAreas.getD a 1 / 1000)).foldl max 0
  | 2 => (Config.slack d.hlt.count).toNat
  | 4 => if d.hlt.vo = 0 then (d.hlt.recs.getLast?.map (fun r => r.w.getD 4 0)).getD 0 else d.hlt.vo - d.hlt.vl
  | 5 =>
    let ms := (d.thr.clusters.filter (fun c => c.state = 0)).map (·.kaMargin)
    Config.kaFullMargin.toNat - ms.foldl min 255
  | _ => 0

/-- w_lim of a monitor. -/
def wearLimit (d : Dev) (m : Nat) : Nat :=
  match m with
  | 0 => 100000
  | 1 => 1000000000
  | 2 => Config.slackLimit.toNat
  | 4 => fldA d Reg.hltBatCfg 15 0
  | 5 => Config.kaFullMargin.toNat - Config.kaMinMargin.toNat
  | _ => 0

/-- Days of a monitor whose trend has no time between its records: the spec gives none (log 89). -/
def openDays (m : Nat) : Nat := (Config.openResult (16 + m)).toNat

/-- Days of a monitor (R487) from rises of w and of t in seconds: ⌊(w_lim − w_n) ÷ g⌋ over exact quotients. -/
def wearDays (m w lim : Nat) (dw dt : Int) : Nat :=
  if lim ≤ w then 0
  else if dt = 0 then openDays m
  else if dw * dt ≤ 0 then 0xFFFFFFFF
  else min 0xFFFFFFFF ((lim - w) * dt.natAbs / (dw.natAbs * 86400))

/-- g of a monitor, shown per day as a whole number (log 89). -/
def wearGain (m : Nat) (dw dt : Int) : Int :=
  if dt = 0 then sx 32 (openDays m) else openQuot (dw * 86400 * (if dt < 0 then -1 else 1)) dt.natAbs

/-- Seconds of service in the pace domain. -/
def serviceSecs (d : Dev) : Nat := d.hlt.service + d.tim.ticks / 250000000

/-- Days of a monitor as its register shows them; those of the panel are PAV_EOL_DAYS (log 89). -/
def daysOf (d : Dev) (m : Nat) : Nat := if m = 3 then regP d Reg.pavEolDays else regP d (Reg.hltDays m)

/-- HLT_EOL_DAYS is the least Days of the six monitors; that of the panel is PAV_EOL_DAYS (R486, R487). -/
def hltLeast (d : Dev) : Dev :=
  setP Reg.hltEolDays (((List.range 6).map (daysOf d)).foldl min 0xFFFFFFFF) (setP (Reg.hltDays 3) (regP d Reg.pavEolDays) d)

/-- HLT_STAT.ALARM follows the Days and ALARM_DAYS; a bit that becomes set raises vector 69 and an event (R489). -/
def hltAlarms (d : Dev) : Dev :=
  let lim := fldA d Reg.hltCtl 15 0
  (List.range 6).foldl (fun d m =>
    let on := decide (daysOf d m < lim)
    let was := bitAt (regP d Reg.hltStat) m
    let d1 := setF Reg.hltStat m m (b2n on) d
    if on && !was then raiseVec 69 (rtcEvent 7 [m, daysOf d m] (bump 0x12 10 1 d1)) else d1) d

/-- Days and gain of one monitor from the oldest kept record and the new one. -/
def trend (new old : HealthRec) (two : Bool) (d : Dev) (m : Nat) : Dev :=
  let w := new.w.getD m 0
  let dw : Int := (w : Int) - old.w.getD m 0
  let dt : Int := if !new.osc && !old.osc then (new.rtc : Int) - old.rtc else (new.service : Int) - old.service
  if m = 3 then setP (Reg.hltDays 3) (regP d Reg.pavEolDays) d
  else
    let days := if wearLimit d m ≤ w then 0 else if two then wearDays m w (wearLimit d m) dw dt else 0xFFFFFFFF
    setP (Reg.hltWear m) (min w 0xFFFFFFFF)
      (setP (Reg.hltDays m) days { d with hlt.gains := d.hlt.gains.set m (if two then wearGain m dw dt else 0) })

/-- A health record as the journal takes it: its number, RTC seconds, OSC_STOP, service seconds, each w. -/
def healthItem (n : Nat) (r : HealthRec) : List Nat := [n, r.rtc, b2n r.osc, r.service] ++ r.w

/-- The load of 1.0 mA starts, while VAON is present and no test runs (log 87). -/
def startTest (d : Dev) : Dev :=
  if d.hlt.testAt.isSome ∨ d.rtc.onVbat then d else { d with hlt.testAt := some d.tim.ticks }

/-- A health record is taken (R487); `cmd` waits for its commit (log 87). -/
def takeHealth (cmd : Option Nat) (d : Dev) : Dev :=
  let r : HealthRec := ⟨(List.range 6).map (wearNow d), d.rtc.secs, rtcStatBit d 0, serviceSecs d⟩
  let rs := (d.hlt.recs ++ [r]).drop (d.hlt.recs.length - 30)
  let n := d.hlt.count
  let d1 := { d with hlt.recs := rs, hlt.count := n + 1 }
  let d2 := (List.range 6).foldl (trend r (rs.headD r) (decide (2 ≤ rs.length))) d1
  let d4 := bump 0x12 8 1 (hltAlarms (hltLeast d2))
  startTest (journal 8 (n % 31) (healthItem n r) 96
    (cmd.map (fun id => ⟨id, stOk, regP d4 Reg.hltEolDays, regP d4 Reg.hltStat, 0, 0⟩)) false d4)

/-- HEALTH_RECORD: 86,400 s of pace-domain time have passed (log 88). -/
def healthRecord (d : Dev) : Dev :=
  if d.sys.mode.code < 3 then d
  else
    let d1 := advanceTicks (d.hlt.lastTick + 86400 * 250000000) d
    takeHealth none { d1 with hlt.lastTick := d1.tim.ticks }

/-- BAT_LOAD_TEST_END: VBAT unloaded and at the end of 100 ms of load, in mV (R488) (log 79). -/
def batTestEnd (vo vl : Nat) (d : Dev) : Dev :=
  match d.hlt.testAt with
  | none => d
  | some t =>
    let d1 := advanceTicks (t + 25000000) d
    let d2 := bump 0x12 9 1 (setP Reg.hltBatV (vo % 65536 * 65536 + vl % 65536) { d1 with hlt.testAt := none, hlt.test := none, hlt.vo := vo, hlt.vl := vl })
    let low := decide (vl < fldA d2 Reg.hltBatCfg 31 16)
    let was := bitAt (regP d2 Reg.hltStat) 6
    let d3 := setF Reg.hltStat 6 6 (b2n low) d2
    let d4 := if low && !was then raiseVec 69 (rtcEvent 7 [6, vl] (bump 0x12 10 1 d3)) else d3
    match d.hlt.test with
    | some id => complete id (ok vo vl (vo - vl) 0) d4
    | none => d4

def specHltRefresh : OpSpec := opBase 0x1205 0xF8

/-- HLT_REFRESH completes with the commit of its record (log 88). -/
def effHltRefresh (id : Nat) (_ : Pkt) (d : Dev) : Dev := takeHealth (some id) d

def specHltBatTest : OpSpec :=
  { opBase 0x1206 0xF8 with resources := fun _ d => resIf d.hlt.testAt.isSome (refuse stBusy 0x02) }

/-- HLT_BAT_TEST; without VAON there is no test, and the last one's values stand (log 87). -/
def effHltBatTest (id : Nat) (_ : Pkt) (d : Dev) : Dev :=
  if d.rtc.onVbat then complete id (ok d.hlt.vo d.hlt.vl (d.hlt.vo - d.hlt.vl) 0) d
  else startTest { d with hlt.test := some id }

/-- READ_STATE 0x1200_0000 (R492). -/
def rtcState (d : Dev) : List Byte :=
  leBytes 8 d.rtc.secs ++ leBytes 4 (regP d Reg.rtcStat) ++
  leBytes 4 (putBits (regP d Reg.rtcCtl) 9 0 (bits (regL d Reg.rtcCtl) 9 0)) ++
  (List.range 2).flatMap (fun a => leBytes 4 (regL d (Reg.rtcAlmDate a)) ++ leBytes 4 (regL d (Reg.rtcAlmTime a))) ++
  (List.range 6).flatMap (fun m =>
    leBytes 8 ((d.hlt.recs.getLast?.map (fun r => r.w.getD m 0)).getD (wearNow d m)) ++ leBytes 4 (daysOf d m) ++
    leBytes 4 (enc 32 (d.hlt.gains.getD m 0))) ++
  leBytes 4 d.hlt.vo ++ leBytes 4 d.hlt.vl ++
  leBytes 8 ((d.hlt.recs.getLast?.map (·.rtc)).getD 0) ++ List.replicate 112 (0 : Byte)

/-- The journaled health records come back at a start, oldest first, with their w (R487). -/
def healthRestore (items : Persist) (d : Dev) : Dev :=
  let rs := ((List.range 31).map (fun k => smGet [] items (itemKey 8 k))).filter (fun l => !l.isEmpty)
  let sorted := sortBy (fun a b => decide (a.getD 0 0 < b.getD 0 0)) rs
  let recs : List HealthRec := sorted.map (fun l => ⟨l.drop 4, l.getD 1 0, decide (l.getD 2 0 = 1), l.getD 3 0⟩)
  let n := match sorted.getLast? with
    | some l => l.getD 0 0 + 1
    | none => 0
  let s := match recs.getLast? with
    | some r => r.service
    | none => 0
  let d1 := { d with hlt := { HltSt.reset with recs := recs, count := n, service := s } }
  match recs.getLast? with
  | none => d1
  | some r => (List.range 6).foldl (fun d m => if m = 3 then d else setP (Reg.hltWear m) (min (r.w.getD m 0) 0xFFFFFFFF) d) d1

end Sys2Proof.Machine
end

