-- ==== Sys2Proof/Machine/LaunchQ.lean ====
section
/-!
DEFINITION. The launch queue: queueing, cancelling, firing, setpoint datagrams
(spec/14_time_ethernet_launch.md R336, R338–R345; spec/11_run_ahead.md R272; spec/18_trellis_redundancy.md R421).
-/

namespace Sys2Proof.Machine

/-! ### LAUNCH_QUEUE and LAUNCH_CANCEL (R341, R343, R344) -/

/-- A record of the buffer. -/
structure LRec where
  time : Nat
  value : Nat
  kind : Nat
  flags : Nat
  index : Nat
  deriving DecidableEq, Repr

/-- The 16 bytes of a record (R339). -/
def lrecOf (b : List Byte) : LRec := ⟨fieldLE b 0 8, fieldLE b 8 4, fieldLE b 12 1, fieldLE b 13 1, fieldLE b 14 2⟩

/-- The records of a LAUNCH_QUEUE. -/
def lrecs (p : Pkt) (d : Dev) : List LRec :=
  (List.range (param p 0)).map (fun i => lrecOf (rdBytes d (bufA p + 16 * i) 16))

/-- The unit that a LAUNCH_QUEUE addresses: 0 for this one. -/
def lTarget (p : Pkt) (d : Dev) : Nat := if param p 1 = ownAddr d then 0 else param p 1

/-- KIND, INDEX and VALUE in range, and the buffer of kind 4 a transmit buffer (R344, R395). -/
def lrecRange (d : Dev) (here : Bool) (r : LRec) : Bool :=
  match r.kind with
  | 0 => decide (r.index < 8 ∧ r.value < 65536)
  | 1 => decide (r.index < 16 ∧ r.value < 0x1000000)
  | 2 => decide (r.index < 96 ∧ r.value < 2)
  | 3 => decide (r.index < 8 ∧ r.value < 65536)
  | 4 => decide (r.index < 512 ∧ r.value = 0) && (!here || decide (mbMode d (r.index / 64) (r.index % 64) = 4))
  | 5 => true
  | 6 => decide (r.index < 1024)
  | _ => false

/-- The fire instant of a record (R338, R339). -/
def lrecFire (d : Dev) (here : Bool) (r : LRec) : Int :=
  if r.kind = 5 ∧ here then (r.time : Int) - 1000 * (substOf d (r.index / 16)).lead else r.time

/-- The DETAIL of a record that R344 refuses (log 54). -/
def lrecFault (d : Dev) (here : Bool) (r : LRec) : Option Nat :=
  let f := lrecFire d here r
  if !lrecRange d here r then some 0x40
  else if here ∧ ((r.kind = 2 ∧ gpioOwner d r.index ≠ 3) ∨ (r.kind = 5 ∧ !substOn (substOf d (r.index / 16)))) then some 0x41
  else if f < now d + (if here then 10000 else 100000) ∨ (now d : Int) + 3600 * 10 ^ 9 < f then some 0x42
  else if r.flags ≠ 0 then some 0x43
  else none

/-- Unused host entries, ascending. -/
def freeEntries (d : Dev) : List Nat := ((List.range 3839).map (· + 257)).filter (fun i => (smGet none d.lch.q i).isNone)

def specLaunchQueue : OpSpec :=
  { opBase 0x0D06 0x20 with
    spec := true
    bufUse := .read
    params := fun p _ => firstBad
      [ (decide (param p 0 = 0 ∨ 512 < param p 0), 0x20), (decide (31 < param p 1), 0x24), (decide (param p 2 ≠ 0), 0x28),
        (decide (param p 3 ≠ 0), 0x2C), (!isSpec p && decide (param p 4 ≠ 0), 0x30),
        (!isSpec p && decide (param p 5 ≠ 0), 0x34), (decide (param p 6 ≠ 0), 0x38), (decide (param p 7 ≠ 0), 0x3C) ]
    bufOk := fun p _ => decide (bufL p = 16 * param p 0)
    object := fun p d =>
      if lTarget p d ≠ 0 ∧ !bitAt (regP d Reg.trlPresent) (lTarget p d) then some (conflictObj d 0x20 3)
      else if isSpec p then raConflict d 0x20 (param64 p 4) false else none
    resources := fun p d =>
      let here := decide (lTarget p d = 0)
      let bad := ((lrecs p d).zip (List.range 512)).findSome? (fun r => (lrecFault d here r.1).map (fun x => bad1 x r.2))
      match bad with
      | some x => some x
      | none => if here ∧ (freeEntries d).length < param p 0 then some (refuse stBusy 2) else none }

/-- LAUNCH_QUEUE: every record takes a free entry, in buffer order (R344); records for another unit cross Trellis on class 12
(R403). -/
def effLaunchQueue (id : Nat) (p : Pkt) (d : Dev) : Dev :=
  let t := lTarget p d
  let here := decide (t = 0)
  let n := param p 0
  let sp := if isSpec p then some (param64 p 4) else none
  let top := d.lch.q.foldl (fun a kv => max a kv.1) 4095
  let slots := if here then freeEntries d else (List.range n).map (fun i => top + 1 + i)
  let fl := match sp with
    | some k => 1 + 4 * (k % 64)
    | none => 0
  let d1 := ((lrecs p d).zip slots).foldl (fun (e : Dev) r =>
    let x : LEntry :=
      { time := r.1.time, value := r.1.value, kind := r.1.kind, flags := fl, index := r.1.index,
        fireAt := (lrecFire d here r.1).toNat, owner := id, spec := sp, bySpec := sp.isSome, late := false }
    { e with lch.q := smSet none e.lch.q r.2 (some x) }) d
  let g : LGroup := ⟨id, n, 0, 0, none, false, false, sp.getD 0, t⟩
  completeMore id (ok n 0 0 0)
    (if here then { d1 with lch.groups := d1.lch.groups ++ [g] }
     else charge 12 .beats (Config.trellisBeats 4).toNat { d1 with lch.groups := d1.lch.groups ++ [g] })

/-- The LAUNCH_QUEUE with unfired entries that a cancel names (R507). -/
def cancelNames (p : Pkt) (d : Dev) : Option Nat :=
  namedAmong d ((d.lch.groups.filter (fun g => g.left ≠ 0)).map (·.cmd)) (param p 0) (param p 1)

def specLaunchCancel : OpSpec :=
  { opBase 0x0D07 0x20 with
    params := tagParams
    object := fun p d => if (cancelNames p d).isSome then none else some (conflictObj d 0x20 4) }

/-- LAUNCH_CANCEL removes every unfired entry of one command. -/
def effLaunchCancel (id : Nat) (p : Pkt) (d : Dev) : Dev :=
  match cancelNames p d with
  | none => complete id (conflictObj d 0x20 4) d
  | some c =>
    let n := (entriesWhere d (fun i e => decide (256 < i ∧ e.owner = c))).length
    complete id (ok n 0 0 0) (dropWhere (fun i e => decide (256 < i ∧ e.owner = c)) .cancelled d)

/-- FORWARDED_LAUNCH: records from another unit take free entries, marked REMOTE (R341) (log 118). -/
def forwardedLaunch (recs : List (Nat × Nat × Nat × Nat)) (d : Dev) : Dev :=
  (recs.zip (freeEntries d)).foldl (fun (e : Dev) r =>
    let q : LRec := ⟨r.1.1, r.1.2.1, r.1.2.2.1, 0, r.1.2.2.2⟩
    let x : LEntry :=
      { time := q.time, value := q.value % 2 ^ 32, kind := q.kind, flags := 2, index := q.index,
        fireAt := (lrecFire d true q).toNat, owner := 0, spec := none, bySpec := false, late := false }
    if lrecRange d false q then { e with lch.q := smSet none e.lch.q r.2 (some x) } else e) d

/-- Entry to HOLD removes every host entry and clears entries 0–256 (R342). -/
def launchHold (d : Dev) : Dev :=
  let n := (entriesWhere d (fun i _ => decide (i < 4096))).length
  bump 0xD 6 n (dropWhere (fun i _ => decide (i < 4096)) .cancelled d)

/-! ### Setpoint datagrams (R336, R338) -/

/-- The payload of a setpoint datagram; its tag when the substation has a slot. -/
def setpointBytes (d : Dev) (s seq time : Nat) (recs : List (Nat × Nat)) (rep : Bool) : List Byte :=
  let x := substOf d s
  let auth := decide (x.slot ≠ 0xFF)
  let body := [0x49, 0x53, 0x56, 0x44] ++ leBytes 1 1 ++ leBytes 1 2 ++ leBytes 2 s ++ leBytes 4 seq ++ leBytes 2 recs.length ++
    leBytes 1 (b2n auth + 2 * b2n rep) ++ leBytes 1 0 ++ leBytes 8 time ++
    recs.flatMap (fun r => leBytes 1 r.1 ++ leBytes 7 0 ++ leBytes 8 (fconv f32 f64 r.2))
  body ++ (if auth then (datagramTag d x.slot body).getD (leBytes 16 (Config.openResult 3).toNat) else [])

/-- Bytes on the wire of a UDP payload, preamble and gap included. -/
def wireBytes (d : Dev) (p : Nat) (s : Subst) (len : Nat) : Nat :=
  let ip := if sliceB s.addr 0 12 = sliceB (ip4Of d p) 0 12 then 20 else 40
  max 64 (len + 8 + ip + 14 + 4 + (if fldA d (Reg.ethVlan p) 11 0 = 0 then 0 else 4)) + 20

/-- A datagram goes to its substation's port at an instant, and leaves when the port is free; more than 100 µs later it
is late. One that its port cannot send is lost. -/
def sendDatagram (s due : Nat) (payload : List Byte) (d : Dev) : Dev :=
  let x := substOf d s
  let p := x.port % 4
  let q := portOf d p
  if !portUp d p ∨ !bitAt (ethCfg d p) 9 ∨ !substOn x then d
  else
    let start := max (now d) q.busyUntil
    let d1 := setPort p { q with busyUntil := start + ceilDiv (wireBytes d p x payload.length * 8000) q.speed } d
    let d2 := sendFrame ⟨p, 7, start, [leNat x.mac, leNat x.addr, x.udp], payload⟩ (bump 0xD 13 1 d1)
    if due + 100000 < start then bump 0xD 14 1 d2 else d2

/-- One setpoint datagram of up to 16 records, and its copies to come (R338). -/
def setpointOut (s due time : Nat) (recs : List (Nat × Nat)) (d : Dev) : Dev :=
  let x := substOf d s
  let d1 := sendDatagram s due (setpointBytes d s x.outSeq time recs false) d
  let d2 := if x.slot = 0xFF then d1 else countUse x.slot d1
  let d3 := setSubst s { x with outSeq := (x.outSeq + 1) % 2 ^ 32 } d2
  if x.repeats % 4 = 0 then d3
  else
    { d3 with tim.repeats := d3.tim.repeats ++
        [⟨due + 10000 * x.gap, x.port % 4, s, x.repeats % 4 - 1, setpointBytes d s x.outSeq time recs true⟩] }

/-- SETPOINT_REPEAT_SEND: the earliest copy due is sent, in RUN; another may follow it after GAP. -/
def setpointRepeat (d : Dev) : Dev :=
  match d.tim.repeats with
  | [] => d
  | r :: rs =>
    let f := rs.foldl (fun (a : Repeat) b => if b.due < a.due then b else a) r
    let d1 := advanceTo f.due { d with tim.repeats := d.tim.repeats.erase f }
    if d1.sys.mode ≠ .run then d1
    else
      let d2 := sendDatagram f.subst f.due f.payload d1
      if f.left = 0 then d2
      else { d2 with tim.repeats := d2.tim.repeats ++ [{ f with due := f.due + 10000 * (substOf d2 f.subst).gap, left := f.left - 1 }] }

/-! ### Firing (R340, R342, R421) -/

/-- An entry of kind 4 or 5 outside RUN: removed without effect; in STANDBY kept as a continuation (R342, R421). -/
def removedLaunch (e : LEntry) (d : Dev) : Dev :=
  if d.sys.mode = .standby then
    (let c : Continuation := ⟨if e.kind = 4 then e.index else 65536 + e.index, e.time, e.kind, e.fireAt, e.index, e.value⟩
     let old := d.trl.conts.filter (fun x => x.key = c.key)
     bump 0xE 10 old.length { d with trl.conts := d.trl.conts.filter (fun x => x.key ≠ c.key) ++ [c] })
  else bump 0xD 6 1 d

/-- What a loop's own entry fires to its destination (R289). -/
def loopFired (i : Nat) (e : LEntry) (d : Dev) : Dev :=
  let x := loopOf d i
  if i < 256 then setLoop i { x with drove := smSet none x.drove (4096 * e.kind + e.index) (some (sx 32 e.value)) } d else d

/-- A value that fires from entry i into its output (R340). -/
def fireValue (i : Nat) (e : LEntry) (d : Dev) : Dev :=
  if 4096 ≤ i then d
  else if bitAt e.flags 1 ∧ lenMismatch d then d
  else
    match e.kind with
    | 4 => if d.sys.mode = .run then canLaunch e.index d else removedLaunch e d
    | 5 => if d.sys.mode = .run then d else removedLaunch e d   -- its datagram is formed with those of the same tick
    | 6 => loopFired i e (writePlain (Reg.clpSp e.index) e.value d)
    | 7 => latchLogic d.cle.out d
    | k => loopFired i e (latchValue k e.index e.value d)

/-- The setpoint datagrams of the kind-5 entries of one tick: entries of one command, substation and launch time, in
groups of up to 16, by the slot of the first (R338). -/
def fireSetpoints : Nat → List (Nat × LEntry) → Dev → Dev
  | 0, _, d => d
  | _ + 1, [], d => d
  | n + 1, (i, e) :: es, d =>
    let same (x : Nat × LEntry) : Bool :=
      decide (x.2.owner = e.owner ∧ x.2.index / 16 = e.index / 16 ∧ x.2.time = e.time)
    let grp := ((i, e) :: es.filter same).take 16
    let rest := es.filter (fun x => !grp.any (fun g => g.1 = x.1))
    fireSetpoints n rest
      (setpointOut (e.index / 16) e.fireAt e.time (grp.map (fun g => (g.2.index % 16, g.2.value))) d)

/-- The entries in use. -/
def usedEntries (d : Dev) : List (Nat × LEntry) := d.lch.q.filterMap (fun kv => kv.2.map (fun e => (kv.1, e)))

/-- The earliest fire instant. -/
def firstFire (d : Dev) : Option Nat := ((usedEntries d).map (fun x => x.2.fireAt)).min?

/-- The entries that fire on the tick at hand, host entries by slot, then loops, then the logic entry (R340); of entries that a
forward step passed, those of the earliest instant (R329). -/
def dueEntries (t : Nat) (d : Dev) : List (Nat × LEntry) :=
  let due := (usedEntries d).filter (fun x => decide (x.2.fireAt ≤ now d))
  let now_ := if due.any (fun x => x.2.late) then due.filter (fun x => x.2.fireAt = t) else due
  now_.filter (fun x => decide (256 < x.1)) ++ now_.filter (fun x => decide (x.1 < 256)) ++ now_.filter (fun x => x.1 = 256)

/-- The entry carries results of a period that is not resolved. A standby's own outcome counts until its primary reports one
(R272, R275). -/
def unresolved (d : Dev) (e : LEntry) : Bool :=
  match e.spec with
  | none => false
  | some n => !d.trl.raHeld.any (fun x => decide (x.1 = n ∧ x.2.1 = 0))

/-- The boundary that comes next, of a running sequencer that has fired one (R19, R22). -/
def awaitedBoundary (d : Dev) : Option Nat := d.sys.lastBoundary.map (· + d.sys.frameLen)

/-- An entry whose instant has come is removed without effect: of kind 4 or 5 outside RUN (R342), or forwarded while the frame
lengths differ (R409) (log 118). -/
def removesUnfired (d : Dev) (x : Nat × LEntry) : Bool :=
  decide (x.1 < 4096) &&
    (bitAt x.2.flags 1 && lenMismatch d || decide ((x.2.kind = 4 ∨ x.2.kind = 5) ∧ d.sys.mode ≠ .run))

/-- LAUNCH_FIRE: time passes to the tick of the earliest fire instant, and every entry due on it fires (R340), after the capture of a
boundary on that tick (R25); a SPEC entry of an unresolved period is suppressed (R272) (log 6, 118). -/
def launchFire (d : Dev) : Dev :=
  match firstFire d with
  | none => d
  | some t =>
    let d1 := advanceTo t d
    if d.sys.mode.code < 3 ∨ !d.sys.seqOn ∨ (awaitedBoundary d).any (fun b => decide (b ≤ now d1)) then d
    else
      let es := dueEntries t d1
      let sup := es.filter (fun x => unresolved d1 x.2)
      let go := es.filter (fun x => !unresolved d1 x.2)
      let d2 := sup.foldl (fun d x => dropEntry x.1 .suppressed (bump 7 10 1 d)) d1
      let fires (x : Nat × LEntry) : Bool := !removesUnfired d1 x
      let d3 := go.foldl (fun d x =>
        let n := b2n (fires x && decide (x.1 < 4096))
        bump 7 9 (b2n (x.2.bySpec && fires x)) (bump 0xD 4 n (bump 0xD 5 (n * b2n x.2.late) (fireValue x.1 x.2 d)))) d2
      let d4 := fireSetpoints 4096 (go.filter (fun x => decide (x.2.kind = 5 ∧ x.1 < 4096) && fires x)) d3
      go.foldl (fun d x => dropEntry x.1 (if fires x then .fired else .removed) d) d4

/-- READ_STATE 0x0D00_0000: the 4,096 entries (R339). -/
def launchState (d : Dev) : List Byte :=
  (List.range 4096).flatMap fun i =>
    match smGet none d.lch.q i with
    | some e => leBytes 8 e.time ++ leBytes 4 e.value ++ leBytes 1 e.kind ++ leBytes 1 e.flags ++ leBytes 2 e.index
    | none => leBytes 12 0 ++ leBytes 1 0xFF ++ leBytes 3 0

end Sys2Proof.Machine
end

