-- ==== Sys2Proof/Machine/Modes.lean ====
section
/-!
DEFINITION. Mode changes and what they do to engines and outputs (spec/04_modes_boot_recovery.md R93–R105).
-/

namespace Sys2Proof.Machine

/-- Runs of the classes that a hold or a shed stops, with the outcome CANCELLED (R100, R104). -/
def stopClasses (cs : List Nat) (queued : Bool) (d : Dev) : Dev :=
  (d.pln.runs.filter (fun r => cs.contains r.cls && (queued || decide (r.phase ≠ .queued)))).foldl
    (fun d r =>
      match findRun d r.id with
      | some x => stopRun x (refuse stCancelled 0) d
      | none => d) d

/-- Waiting launch-timed commands are cancelled (R61) (log 26). -/
def cancelWaiting (d : Dev) : Dev := cancelCmds d ((d.cmd.cmds.filter (fun c => c.phase = .waiting)).map (·.id))

/-- Commands whose re-solve has not started are cancelled (R28, R104) (log 26). -/
def cancelResolves (d : Dev) : Dev := { cancelCmds d (d.ra.resolves.map (·.cmd)) with ra.resolves := [] }

/-- What entry to HOLD does (R104, R342, R395): periods squashed, solver commands stopped, waiting commands cancelled, the
launch queue emptied (log 26). -/
def holdWork (d : Dev) : Dev :=
  canHold (launchHold (cancelWaiting (cancelResolves (stopClasses [3, 4, 5] true (squashEvery 4 d)))))

/-- The unit drives OWN_N low in these modes (R105). -/
def Mode.owns : Mode → Bool
  | .run | .hold | .service => true
  | _ => false

/-- What every mode change brings: its event record, vector 65, its count (R70, R103) (log 23, 24). -/
def modeChanged (old new : Mode) (cause t : Nat) (d : Dev) : Dev :=
  raiseVec 65 (bump 0 4 1 (event 0x00 1 [old.code, new.code, cause, t] d))

/-- A mode change takes effect: the engines that follow the mode, the event record, vectors 65 and 66 (R103). `cause`
is 1–4 as HOLD_CAUSE has it, 5 takeover, 6 handover, 0 anything else (log 23, 25, 57). -/
def enterMode (new : Mode) (cause : Nat) (d : Dev) : Dev :=
  let old := d.sys.mode
  if old = new then d
  else
    let d1 := { d with sys.prevMode := old, sys.mode := new, sys.own := new.owns }
    let d2 := if new = .hold then holdWork { d1 with sys.holdCause := cause } else d1
    let e2 := if old ≠ .run ∧ scansRun d1 then d2 else flushChanges d2
    let d3 := if new = .run then e2 else discardPulses e2
    let d4 := if old = .config then loopsLeaveConfig d3 else d3
    let d5 := if (new = .standby ∨ new = .run) ∧ (old = .config ∨ old = .hold ∨ old = .service) then
        { d4 with cle.firstScan := true } else d4
    let d6 := if new = .run then latchOnRun (if old = .hold then loopsResume d5 else d5) else d5
    let d7 := canFollow d6
    let d8 := modeChanged old new cause (now d7) d7
    if new = .hold then raiseVec 66 d8 else d8

/-- A hold cause other than SET_MODE: it enters HOLD from RUN and does nothing in another mode (R99) (log 25). -/
def holdCause (cause : Nat) (d : Dev) : Dev := if d.sys.mode = .run then enterMode .hold cause d else d

/-- On the PFAIL_N tick the fabric sheds the runs of classes 3, 4, 5 and 13 (R100). -/
def shedLoad (d : Dev) : Dev := stopClasses [3, 4, 5, 13] false d

end Sys2Proof.Machine
end

