-- ==== Sys2Proof/Machine/RedCore.lean ====
section
/-!
DEFINITION. Roles of a redundant pair, its status flags, declared faults (spec/18_trellis_redundancy.md R411, R418, R419,
R422, R423, R425).
-/

namespace Sys2Proof.Machine

/-! ### Roles (R411) -/

/-- RED_CTL.HOME_ROLE applied; 0b11 acts as none. -/
def homeRole (d : Dev) : Nat :=
  let r := fldA d Reg.redCtl 1 0
  if r = 3 then 0 else r

/-- The partner. -/
def partner (d : Dev) : Peer := peerOf d (partnerAddr d)
/-- The mode its latest report shows. -/
def partnerMode (d : Dev) : Nat := repF (partner d) 1 1 % 8
/-- FLAGS of its latest report. -/
def partnerFlag (d : Dev) (b : Nat) : Bool := bitAt (repF (partner d) 3 1) b
/-- The partner is present. -/
def partnerHere (d : Dev) : Bool := decide (partnerAddr d ≠ 0) && (partner d).present
/-- The partner is the acting primary. -/
def partnerActs (d : Dev) : Bool := partnerHere d && decide (5 ≤ partnerMode d)
/-- The partner is in STANDBY and SYNCED. -/
def partnerSynced (d : Dev) : Bool := partnerHere d && decide (partnerMode d = 4) && partnerFlag d 1

/-- Both units are present, name each other, and one is home primary and the other home standby. -/
def pairCondition (d : Dev) : Bool :=
  let h := repF (partner d) 2 1
  partnerHere d && decide (ownAddr d ≠ 0) && decide (bits h 6 2 = ownAddr d) &&
  ((decide (homeRole d = 1) && decide (bits h 1 0 = 2)) || (decide (homeRole d = 2) && decide (bits h 1 0 = 1)))

/-- RED_STAT.PAIRED follows the reports, presence and RED_CTL; what the mirror carried of the partner goes with it. -/
def setPaired (d : Dev) : Dev :=
  setF Reg.redStat 31 31 (b2n (pairCondition d)) { d with trl.avail := if pairCondition d then d.trl.avail else none }

/-- The unit is the acting standby of a pair (R415). -/
def actingStandby (d : Dev) : Bool := decide (d.sys.mode = .standby) && decide (homeRole d ≠ 0) && decide (partnerAddr d ≠ 0)

/-! ### RED_STAT and RED_EVENT -/

/-- RED_STAT.SYNCED. -/
def synced (d : Dev) : Bool := fld d Reg.redStat 29 29 = 1
/-- It is set or cleared. -/
def setSynced (b : Bool) (d : Dev) : Dev := setF Reg.redStat 29 29 (b2n b) d

/-- A bit of RED_EVENT; each that becomes set raises vector 70. -/
def redEvent (b : Nat) (d : Dev) : Dev :=
  if bitAt (regP d Reg.redEvent) b then d else raiseVec 70 (orP Reg.redEvent (1 <<< b) d)

/-- A flag of RED_STAT with its bit of RED_EVENT. -/
def redFlag (stat ev : Nat) (on : Bool) (d : Dev) : Dev :=
  let was := bitAt (regP d Reg.redStat) stat
  let d1 := setF Reg.redStat stat stat (b2n on) d
  if on && !was then redEvent ev d1 else d1

/-- PEER_OWN_N as last sampled (RED_STAT.PEER_OWN). -/
def peerOwnLow (d : Dev) : Bool := fld d Reg.redStat 28 28 = 1
/-- The level of PEER_OWN_N. -/
def setPeerOwn (low : Bool) (d : Dev) : Dev := setF Reg.redStat 28 28 (b2n low) d


/-- The standby asks for a sync image (R418). -/
def requestImage (d : Dev) : Dev := { setSynced false d with trl.imageReq := true, trl.imageDone := false, trl.bulks := [] }

/-! ### Refusals of SET_MODE that a takeover shares (R98, R419) -/

/-- Codes 3–5 of R98: configuration mismatch, an unacknowledged logic fault, PFAIL_N. -/
def runForbidden (d : Dev) : Option Nat :=
  if fld d Reg.cfgStat 0 0 = 1 then some 3
  else if regP d Reg.cleFault &&& 3 ≠ 0 then some 4
  else if d.sys.pfail then some 5
  else none

/-! ### Declared faults (R422) -/

/-- A primary declares a fault where its standby can take over. -/
def declare (d : Dev) : Dev :=
  if 5 ≤ d.sys.mode.code ∧ paired d ∧ partnerSynced d then { d with trl.fault := true } else d

/-- An event that RED_CTL.FAULT_MASK may select. -/
def declareFault (bit : Nat) (d : Dev) : Dev := if bitAt (fldA d Reg.redCtl 23 20) bit then declare d else d

/-! ### The revert timer (R423) -/

/-- The condition under which the revert timer counts. -/
def revertCondition (d : Dev) : Bool :=
  decide (homeRole d = 1) && decide (d.sys.mode = .standby) && partnerHere d && decide (partnerMode d = 5) && synced d &&
  decide (regP d Reg.cleFault &&& 3 = 0) && decide (fld d Reg.cfgStat 0 0 = 0) && !d.sys.pfail && !d.thr.below

/-- Whole seconds counted. -/
def revertSecs (d : Dev) : Nat :=
  match d.trl.healthyFrom with
  | some t => (now d - t) / 10 ^ 9
  | none => 0

/-- REVERT_S as it acts. -/
def revertS (d : Dev) : Nat := max 60 (min 3600 (fldA d Reg.redRevert 11 0))

/-- The timer starts, restarts or goes on. -/
def revertTimer (d : Dev) : Dev :=
  { d with trl.healthyFrom := if revertCondition d then some (d.trl.healthyFrom.getD (now d)) else none }

end Sys2Proof.Machine
end

