-- ==== Sys2Proof/Machine/Scan.lean ====
section
/-!
DEFINITION. The scans of the cyclic logic engine within the frame (spec/13_cyclic_logic.md R309–R315;
spec/01_architecture.md R23, R27).
-/

namespace Sys2Proof.Machine

/-- Beats of an image transfer (R311). -/
def scanBeats : Nat := 12

/-- At a boundary: a scan that is due joins those not ended (R309). -/
def scanDue (cap : Capture) (d : Dev) : Dev :=
  let c := regA d Reg.cleScanCfg
  if scansRun d ∧ dueIn (bits c 9 0) (bits c 19 10) cap.frame then
    { d with cle.scans := d.cle.scans ++ [⟨.due, cap, 0, false, d.sys.frameLen, 0, 0⟩] }
  else d

/-- Steps 2 and 3 of a frame fall due on its capture image and frozen setpoints (R23, R28); step 3 waits for the scans not ended,
of its frame and of earlier ones (R27). -/
def frameSteps (cap : Capture) (frozen : SMap Nat) (d : Dev) : Dev :=
  let d1 := scanDue cap (endJobs (dropDue d))
  if d1.sys.mode.code < 4 then d1
  else { d1 with clp.jobs := d1.clp.jobs ++ [⟨cap, frozen, 0, d1.cle.words, d1.sys.frameLen, !d1.cle.scans.isEmpty⟩] }

/-- A scan with OUT_OFS and FAULT_POLICY as they stand: a scan keeps from its start what it found there (R86). -/
def atStart (d : Dev) (s : Scan) : Scan := { s with ofs := fldA d Reg.cleScanCfg 29 20, policy := fldA d Reg.cleCtl 1 1 }

/-- A scan with the values it runs on: those of its start, or the present ones while it has not started. -/
def scanView (d : Dev) (s : Scan) : Scan := if s.stage = .due then atStart d s else s

/-- The output instant of a scan (R312). -/
def scanOut (d : Dev) (s : Scan) : Nat := outInstant s.len s.cap.t (scanView d s).ofs

/-- A fault of a scan: its n events latched, and a hold cause under FAULT_POLICY 0 where it is new (R314). -/
def scanFault (bit n : Nat) (s : Scan) (d : Dev) : Dev :=
  let r := latchLogicFault bit n d
  if r.1 ∧ (scanView d s).policy = 0 then holdCause 3 (declareFault 1 r.2) else r.2

/-- The front scan is over. -/
def dropScan (d : Dev) : Dev := releaseLoops { d with cle.scans := d.cle.scans.drop 1 }

/-- The front scan is replaced. -/
def setScan (s : Scan) (d : Dev) : Dev := { d with cle.scans := s :: d.cle.scans.drop 1 }

/-- A scan's overrun is latched, once (R313). -/
def scanLate (s : Scan) (d : Dev) : Dev :=
  if s.over_ then d
  else scanFault 0 1 s { d with cle.scans := d.cle.scans.map (fun x => if x.cap.t = s.cap.t then { x with over_ := true } else x) }

/-- END is executed at time t: the transfer out, the output image unless the scan overran, the counters (R312). -/
def scanEnd (s : Scan) (t : Nat) (d : Dev) : Dev :=
  let d1 := charge 2 .beats scanBeats d
  let late := decide (scanOut d1 s < t)
  let d2 := if late then scanLate s d1 else d1
  let d3 :=
    if late ∨ s.over_ ∨ !(decide (d2.sys.mode = .run ∨ d2.sys.mode = .standby)) then d2
    else
      let out := (List.range 96).foldl (fun m g => smSet false m g (lbit d2.cle (256 + g))) []
      engineLaunch 256 (scanOut d2 s) 0 7 0 { d2 with cle.out := out }
  let dur := t - s.started
  let d4 := setP Reg.cleLastDur dur (addF Reg.cleScanCnt 31 0 1 (bump 9 0 1 d3))
  dropScan (if regP d4 Reg.cleMaxDur < dur then setP Reg.cleMaxDur dur d4 else d4)

/-- Class 2 has reached its beat ceiling where a transfer is due (R311). -/
def scanPaused (d : Dev) : Bool := classPaused d 2 || atCeil d 2 .beats

/-- The scan runs from its transfer in: inputs latched, waiting changes applied, instructions, END after `dur` ns (log 81, 143). -/
def scanRun (s : Scan) (dur : Nat) (d : Dev) : Dev :=
  let d1 := charge 2 .beats scanBeats d
  let first := d1.cle.firstScan
  let dt := if first then 0 else (s.cap.t - d1.cle.tPrev) / 1000
  let d2 := flushChanges { d1 with cle := latchInputs s.cap first d1.cle }
  let x := runProgram dt d2.cle
  let d3 := { d2 with cle := { x.vars with firstScan := false, tPrev := s.cap.t, lastFrame := s.cap.frame } }
  let d4 := if 0 < x.faults then scanFault 1 x.faults s d3 else d3
  if scanPaused d4 then meetCeil 2 (setScan { s with stage := .pausedOut } d4)
  else scanEnd s (now d4 + dur) d4

/-- LOGIC_SCAN_START: the oldest due scan starts, or pauses before its transfer in; the loops of earlier frames come first
(R27, R309–R311) (log 81). -/
def scanStart (dur : Nat) (d0 : Dev) : Dev :=
  let d := endJobs d0
  match d.cle.scans with
  | [] => d
  | s :: _ =>
    if s.stage ≠ .due ∨ d.clp.jobs.any (fun j => decide (j.cap.t < s.cap.t)) then d
    else if !scansRun d then dropScan d
    else
      let s1 := { atStart d s with started := now d }
      if scanPaused d then meetCeil 2 (setScan { s1 with stage := .pausedIn } d)
      else scanRun { s1 with stage := .pausedIn } dur (setScan { s1 with stage := .pausedIn } d)

/-- LOGIC_SCAN_RESUME: after a boundary the transfer of a paused scan runs, and the scan goes on (log 81). -/
def scanResume (dur : Nat) (d : Dev) : Dev :=
  match d.cle.scans with
  | [] => d
  | s :: _ =>
    if scanPaused d then d
    else
      match s.stage with
      | .due => d
      | .pausedIn => scanRun s dur d
      | .pausedOut => scanEnd s (now d) d

/-- LOGIC_SCAN_OVERRUN: the output instant of the oldest scan that has not executed END and has not overrun (R313). -/
def scanOverrun (d : Dev) : Dev :=
  match d.cle.scans.find? (fun s => !s.over_) with
  | none => d
  | some s => scanLate s (advanceTo (scanOut d s) d)

end Sys2Proof.Machine
end

