-- ==== Sys2Proof/Machine/Trellis.lean ====
section
/-!
DEFINITION. The Trellis chain, health reports and redundant pairs (spec/18_trellis_redundancy.md R403–R426;
spec/01_architecture.md R35; spec/11_run_ahead.md R275). The start of mirrored commands is in Mirror.lean.
-/

namespace Sys2Proof.Machine

/-! ### Links and addresses (R403, R405) -/

/-- ENUM_OUT goes low once the unit holds an address and TRL_DN has trained (log 68). -/
def enumFollow (d : Dev) : Dev :=
  if ownAddr d ≠ 0 ∧ fld d Reg.trlStat 27 27 = 1 then { d with trl.enumOutLow := true } else d

/-- ENUM_IN_FALL: the unit takes the next address after its upstream neighbour's. -/
def enumInFall (up : Nat) (d : Dev) : Dev :=
  let d1 := { d with trl.enumInLow := true }
  if d.trl.enumInLow ∨ ownAddr d ≠ 0 ∨ d.sys.mode = .backup ∨ up = 0 then d1
  else if 16 ≤ up then orP Reg.trlStat (1 <<< 30) d1
  else enumFollow (setF Reg.trlStat 4 0 (up + 1) d1)

/-- TRELLIS_LINK_TRAINED. -/
def linkTrained (dn : Bool) (d : Dev) : Dev :=
  if d.sys.mode = .backup ∨ !bitAt (regA d Reg.trlCtl) (b2n dn) then d
  else if dn then enumFollow (setF Reg.trlStat 27 27 1 d)
  else { setF Reg.trlStat 28 28 1 d with trl.downVec := false }

/-- A link clears its bit; the first loss of UP_LINK under SOURCE TRELLIS raises vector 70 (R408) (log 91). -/
def linkLost (dn : Bool) (d : Dev) : Dev :=
  let d1 := if dn then setF Reg.trlStat 27 27 0 d else setF Reg.trlStat 28 28 0 d
  if !dn ∧ timeSource d1 = 2 ∧ !d1.trl.downVec then raiseVec 70 { d1 with trl.downVec := true } else d1

/-- TRELLIS_CRC_FAILURE of a packet that was sent again `again` times before: it is sent again, or the link is down (log 91). -/
def crcFailure (dn : Bool) (again : Nat) (d : Dev) : Dev :=
  if fld d Reg.trlStat (28 - b2n dn) (28 - b2n dn) = 0 then d
  else if again < 3 then bump 0xE 7 1 (addF Reg.trlRetryCnt 31 0 1 d)
  else linkLost dn (bump 0xE 8 1 (addF Reg.trlDownCnt 31 0 1 d))

/-- After a strobe: a port that is not enabled carries nothing; PAIRED follows RED_CTL. -/
def trlFollow (d : Dev) : Dev :=
  let d1 := if bitAt (regA d Reg.trlCtl) 0 ∨ fld d Reg.trlStat 28 28 = 0 then d else linkLost false d
  let d2 := if bitAt (regA d1 Reg.trlCtl) 1 ∨ fld d1 Reg.trlStat 27 27 = 0 then d1 else linkLost true d1
  setPaired d2

/-! ### Time marks (R408) -/

/-- TIME_MARK: departure time, STEP, one-way delay in 2⁻⁴ ns. -/
def timeMark (dep : Nat) (step : Bool) (delay : Nat) (d : Dev) : Dev :=
  if fld d Reg.trlStat 28 28 = 0 ∨ timeSource d ≠ 2 then d
  else
    let theta := openQuot (16 * ((now d : Int) - dep) - (delay % 2 ^ 24 : Nat)) 16
    let d1 := setP Reg.trlTimeOfs (enc 32 (satS32 theta)) (setF Reg.trlUpDelay 23 0 delay d)
    if step ∨ !d1.trl.marked then stepTime (-theta) { d1 with trl.marked := true, trl.stepDue := none }
    else if jumpTh d1 < theta.natAbs then { d1 with trl.stepDue := some (-theta) }
    else servo theta d1.sys.frameLen d1

/-- At a boundary a jump that waits is stepped, and the unit sends its own mark. -/
def markBoundary (d : Dev) : Dev :=
  let d1 := match d.trl.stepDue with
    | some x => stepTime x { d with trl.stepDue := none }
    | none => d
  if fld d1 Reg.trlStat 27 27 = 1 then { d1 with trl.markOut := some (now d1, false) } else d1

/-! ### The health report (R410) -/

/-- The boundary of the present frame. -/
def frameStart (d : Dev) : Nat := d.sys.lastBoundary.getD 0
/-- The cut-off of the present frame (log 74). -/
def cutOff (d : Dev) : Nat := frameStart d + d.sys.frameLen - 50000

/-- Modes in which the unit publishes reports. -/
def reports (d : Dev) : Bool := decide (3 ≤ d.sys.mode.code) && d.sys.seqOn

/-- PAIR_CRC (R417): the applied words of the configuration registers of CLP and CLE in ascending offset. -/
def pairCrc (d : Dev) : Nat :=
  let os := (List.range 0x10000).map (fun i => 0x080000 + 4 * i)
  crc32c ((os.filter isConfigReg).flatMap (fun o => leBytes 4 (regA d o)))

/-- The period that was resolved in the present frame, and whether it was squashed; one that waits to commit has passed (R269, R275). -/
def frameOutcome (d : Dev) : Option (Nat × Bool) :=
  match d.ra.log.find? (fun x => decide (frameStart d ≤ x.time)) with
  | some x => some (x.n, x.squashed)
  | none => (d.ra.periods.find? (fun q => q.commitWait && decide (frameStart d ≤ q.resTime))).map (fun q => (q.n, false))

/-- The clusters in service, one bit each (R193, R410). -/
def availMask (d : Dev) : Nat := (idxWhere 34 (fun k => decide ((clusterOf d k).state = 0))).foldl (fun a k => a + 1 <<< k) 0

/-- The report of the present frame (log 95). -/
def composeReport (crc : Nat) (d : Dev) : List Byte :=
  let own := 5 ≤ d.sys.mode.code ∧ d.sys.own
  let role := if 5 ≤ d.sys.mode.code then 1 else if d.sys.mode = .standby then 2 else 0
  let outcome := frameOutcome d
  let ra := match outcome with
    | some x => x.1 % 64 + 64 + 128 * b2n x.2
    | none => curPeriod d % 64
  let service := idxWhere 34 (fun k => decide ((clusterOf d k).state = 0))
  let flags := b2n d.trl.fault + 2 * b2n (synced d) + 4 * b2n d.sys.pfail + 8 * b2n d.trl.revertReq +
    16 * b2n d.trl.handoverAt.isSome + 32 * fld d Reg.redStat 27 27 + 64 * b2n (lenMismatch d)
  let body :=
    leBytes 1 (ownAddr d) ++
    leBytes 1 (d.sys.mode.code + 8 * b2n d.sys.degraded + 16 * b2n (decide own) + (if paired d then 32 * role else 0)) ++
    leBytes 1 (fldA d Reg.redCtl 1 0 + 4 * partnerAddr d + 128 * fldA d Reg.redCtl 4 4) ++ leBytes 1 flags ++
    leBytes 4 d.sys.frameLen ++ leBytes 8 (frameStart d / d.sys.frameLen) ++
    leBytes 8 (availMask d) ++ leBytes 8 (plcDigest d) ++
    leBytes 2 (fldA d Reg.plcGroup 16 1) ++ leBytes 1 (d.thr.band + 16 * d.thr.bandMax) ++
    leBytes 1 ((service.map (fun k => (clusterOf d k).kaMargin)).foldl min 255) ++ leBytes 4 ra ++
    leBytes 8 (d.trl.handoverAt.getD 0) ++ leBytes 4 (min (revertSecs d) 0xFFFFFFFF) ++ leBytes 4 crc ++ leBytes 4 0
  body ++ leBytes 4 (crc32c body)

/-- The lease lapses: OWN_N goes high and HOLD_N low (R414); frozen latches discard pulses (R355) (log 74). -/
def lapse (d : Dev) : Dev := discardPulses { d with trl.lease := false, sys.own := false }

/-- HEALTH_REPORT_SEND: at the cut-off the report goes out, unless the address is in conflict (R406); a declared fault lets the lease
lapse (R410, R422). -/
def healthReportSend (d : Dev) : Dev :=
  if !reports d ∨ d.trl.reported ∨ !d.trl.lease ∨ cutOff d < now d then d
  else
    let d1 := advanceTo (cutOff d) d
    let dw := { d1 with trl.own := composeReport d1.trl.pairCrc d1, trl.reported := true }
    let d2 := if addrConflict d1 then dw
      else charge 12 .beats (Config.trellisBeats 0).toNat { dw with trl.revertReq := false }
    if !d2.trl.fault then d2
    else
      let d3 := match d2.trl.failover with
        | some id => complete id (ok 0 0 0 0) { d2 with trl.failover := none }
        | none => d2
      lapse d3

/-- LEASE_LAPSE: the first cut-off that finds no report (R414). -/
def leaseLapse (d : Dev) : Dev :=
  if !reports d ∨ d.trl.reported ∨ !d.trl.lease ∨ d.sys.mode.code < 5 ∨ cutOff d < now d then d
  else lapse (advanceTo (cutOff d) d)

/-- A unit's record is replaced. -/
def setPeer (a : Nat) (p : Peer) (d : Dev) : Dev := { d with trl.peers := smSet Peer.none d.trl.peers a p }

/-- LEN_MISMATCH against the head (R409). -/
def lengthFollow (d : Dev) : Dev :=
  let head := if ownAddr d = 1 then d.sys.frameLen else repF (peerOf d 1) 4 4
  let known := ownAddr d = 1 ∨ (peerOf d 1).present
  let d1 := if known then setF Reg.trlHeadLen 23 0 head d else d
  if known ∧ head ≠ d.sys.frameLen ∧ !lenMismatch d then
    setSynced false (raiseVec 70 (bump 0xE 12 1 (setF Reg.trlStat 29 29 1 d1)))
  else d1

/-- LEN_MISMATCH ends at a boundary at which the lengths agree. -/
def lengthBoundary (d : Dev) : Dev :=
  let d1 := lengthFollow d
  if fld d1 Reg.trlHeadLen 23 0 = d1.sys.frameLen then setF Reg.trlStat 29 29 0 d1 else d1

/-- What an acting standby adopts of the primary's outcome of the period it has resolved (R275). -/
def adoptOutcome (d : Dev) : Dev :=
  let ra := repF (partner d) 0x24 4
  d.trl.raHeld.foldl (fun d x =>
    if bitAt ra 6 ∧ x.1 % 64 = ra % 64 then
      let squashed := bitAt ra 7
      let mine := decide (x.2.1 ≠ 0)
      let d1 := { d with trl.raHeld := d.trl.raHeld.filter (fun y => y.1 ≠ x.1) }
      let d2 := if squashed = mine then d1 else raiseVec 70 (bump 7 14 1 d1)
      applyOutcome x.1 (if squashed then max 1 x.2.1 else 0) (if squashed then x.2.2 else 0xFFFFFFFF) d2
    else d) d

/-- The outcomes that no report settled stand as the standby found them (R275). -/
def keepOutcomes (d : Dev) : Dev :=
  firmResolves (d.trl.raHeld.foldl (fun d x => applyOutcome x.1 x.2.1 x.2.2 d) { d with trl.raHeld := [] })

/-- The reports of the partner: faults, reversion, handover (R419, R422, R424). -/
def partnerReport (d : Dev) : Dev :=
  let p := partner d
  let d1 := if partnerFlag d 0 ∨ partnerFlag d 2 then redEvent 2 d else d
  let d2 :=
    if partnerFlag d1 3 ∧ d1.sys.mode = .run ∧ paired d1 ∧ d1.trl.handoverAt.isNone then
      setF Reg.redStat 25 25 1 { d1 with trl.handoverAt := some ((repF p 8 8 + 3) * d1.sys.frameLen) }
    else d1
  let d3 :=
    if partnerFlag d2 4 ∧ d2.sys.mode = .standby ∧ homeRole d2 = 1 ∧ repF p 0x28 8 ≠ 0 then
      setF Reg.redStat 25 25 1 { d2 with trl.revertAt := some (repF p 0x28 8) }
    else d2
  let d4 := match d3.trl.awaitRun with
    | some t => if repF p 8 8 = t / d3.sys.frameLen ∧ partnerMode d3 = 5 then { d3 with trl.awaitRun := none } else d3
    | none => d3
  if actingStandby d4 then adoptOutcome d4 else d4

/-- HEALTH_REPORT: a report of another unit, with the H, G and images of its placement (R193, R201, R405–R411) (log 95). -/
def healthReport (b : List Byte) (h g images : Nat) (d : Dev) : Dev :=
  let a := fieldLE b 0 1
  if crc32c (sliceB b 0 0x3C) ≠ fieldLE b 0x3C 4 ∨ a = 0 ∨ 16 < a ∨ d.sys.mode = .backup then d
  else if a = ownAddr d then
    (if addrConflict d then d else event 0x0E 1 [a] (raiseVec 70 (orP Reg.trlStat (1 <<< 31) d)))
  else
    let d1 := setF Reg.trlPresent a a 1 (setPeer a ⟨sliceB b 0 64, true, true, 0, h, g, images⟩ d)
    let d2 := setPaired (if a = 1 then lengthFollow d1 else d1)
    if a = partnerAddr d2 then partnerReport (setF Reg.redStat 1 0 0 d2) else d2

/-- Guest homes of this unit on a unit that has left: their runs stop and a re-placement falls due (R205, R206). -/
def guestLost (a : Nat) (d : Dev) : Dev :=
  let hs := (d.plc.homes.filter (fun h => decide (h.home = 3 ∧ h.unit = a))).map (·.idx)
  if hs.isEmpty then d
  else
    let rs := d.pln.runs.filter (fun r => decide (r.phase ≠ .queued) &&
      d.plc.homes.any (fun h => decide (h.home = 3 ∧ h.unit = a ∧ h.slot = r.slot) && decide (h.entry = r.entry ∨ h.entry = 0xFF)))
    let d1 := rs.foldl (fun d r => endRun r ⟨stInternal, 0, (Config.diagCode a).toNat, 0, 0, 0⟩ d) d
    replaceDue { d1 with plc.lostHomes := (d1.plc.lostHomes ++ hs).dedup }

/-- HEALTH_REPORT_MISSED: no report of the unit in the frame; the third consecutive one and it has left, and the shares it holds are
run again here (R204, R407) (log 92). -/
def healthReportMissed (a : Nat) (d : Dev) : Dev :=
  let p := peerOf d a
  if a = 0 ∨ 16 < a ∨ a = ownAddr d ∨ p.fresh ∨ p.report.isEmpty then d
  else
    let m := min 3 (p.misses + 1)
    let d1 := setPeer a { p with fresh := true, misses := m, present := p.present && decide (m < 3) } d
    let d2 := if a = partnerAddr d then setF Reg.redStat 1 0 m (bump 0xE 6 1 d1) else d1
    if m = 3 ∧ p.present then rerunShares a (guestLost a (setPaired (setF Reg.trlPresent a a 0 d2))) else d2

/-- A new frame: no report of it has been written or has arrived (log 92). -/
def reportsBoundary (d : Dev) : Dev :=
  { d with trl.reported := false, trl.pairCrc := pairCrc d, trl.peers := smMap Peer.none (fun _ p => { p with fresh := false }) d.trl.peers }

/-- The partner's report of the frame that ends has arrived. -/
def partnerHeard (d : Dev) : Bool := (partner d).fresh && decide ((partner d).misses = 0)

/-! ### Windows (R35) -/

/-- An access of another unit to this one's memory, at a window offset (R35). -/
def windowAccess (o : Nat) (write : Bool) (len : Nat) (data : List Byte) (d : Dev) : Dev :=
  let a := 0x8000000000 + ownAddr d * 0x400000000 + o
  if 0x400000000 ≤ o ∨ !mapped d a (if write then data.length else len) then d
  else if write then wrBytes a data d
  else { d with cmd.lastRead := rdBytes d a len }

/-- WINDOW_TRAFFIC: a packet of another unit, an access to this one's memory or a message of the split protocol (R35, R203)
(log 95). -/
def windowTraffic (o : Nat) (write : Bool) (len : Nat) (msg : WindowMsg) (d : Dev) : Dev :=
  if ownAddr d = 0 ∨ addrConflict d ∨ d.sys.mode = .backup then d
  else match msg with
    | .access data => windowAccess o write len data d
    | .share q => takeShare q d
    | .done q => shareReport q.run q.unit q.members d

/-! ### The mirror (R415, R416) -/

/-- The standby takes part in the mirror. -/
def mirroring (d : Dev) : Bool := actingStandby d && paired d && partnerActs d && !lenMismatch d

/-- The mirror of the frame that begins at t leaves for the acting standby: what the boundary latched, and the mirrored commands
accepted in the frame before (R415, R416) (log 152). -/
def sendMirror (cap : Capture) (ss : List Sample) (t : Nat) (d : Dev) : Dev :=
  let sampled (n : Nat) : Option Sample := ss.find? (fun s => decide (s.source = 1 ∧ s.index = n))
  let fast : FastPart :=
    { adc := (List.range 32).map (fun n => (n, smGet 0 cap.adc n, ((sampled n).map (·.ts)).getD 0, (sampled n).isSome)),
      win := cap.win, levels := cap.piLevel, gpio := cap.gpio,
      counts := (List.range 16).map (fun n => (n, smGet 0 cap.piCount n)) }
  let bulk : BulkPart :=
    { frame := t / d.sys.frameLen,
      items := (ss.filter (fun s => [5, 6].contains s.source)).map (fun s => ⟨s.source, s.index, s.raw, s.ts, s.atLimit⟩),
      hosts := d.mdl.hostVals.map (fun h => (h.index, h.ts, h.value)),
      cmds := d.trl.accepted,
      seqs := d.tim.subst.map (fun x => (x.1, x.2.outSeq)),
      avail := availMask d }
  if sendsMirror d then
    charge 12 .beats (Config.trellisBeats 1).toNat (charge 12 .beats (Config.trellisBeats 2).toNat
      { d with trl.mirrorOut := some (fast, bulk), trl.accepted := [] })
  else { d with trl.accepted := [] }

/-- MIRROR_FAST_PART: steps 2 and 3 of the frame start with the primary's codes, window bits, pulse counts and levels (log 76). -/
def mirrorFast (f : FastPart) (d : Dev) : Dev :=
  match d.trl.stepsWait with
  | none => d
  | some (c, frozen) =>
    if !mirroring d then d
    else
      let codes := f.adc.foldl (fun m v => smSet 0 m (v.1 % 32) (v.2.1 % 65536)) c.adc
      let cap := { c with adc := codes, win := f.win, piLevel := f.levels, gpio := f.gpio,
                          piCount := f.counts.foldl (fun m v => smSet 0 m (v.1 % 16) v.2) [] }
      let is : List MirrorItem :=
        (f.adc.filter (fun v => v.2.2.2)).map (fun v =>
          ⟨1, v.1, fOfInt f64 ((v.2.1 % 65536 : Nat) : Int), v.2.2.1, decide (v.2.1 % 65536 = 0 ∨ v.2.1 % 65536 = 65535)⟩) ++
        f.counts.map (fun v => ⟨4, v.1, fOfInt f64 ((v.2 : Nat) : Int), c.t, false⟩)
      let keep (l : List MirrorItem) : List MirrorItem := l.filter (fun x => x.source ≠ 1 ∧ x.source ≠ 4) ++ is
      frameSteps cap frozen (charge 12 .beats (Config.trellisBeats 1).toNat
        { d with trl.stepsWait := none, trl.items := d.trl.items.map keep })

/-- Items enter the measurement list of the frame (R126) (log 76). -/
def enterItems (l : List MirrorItem) (d : Dev) : Dev :=
  captureList (l.map (fun x => (⟨x.source, x.index, x.raw, x.ts, x.atLimit⟩ : Sample))) (frameStart d) d.sys.frameLen d

/-- Run-ahead on an acting standby: due periods are resolved, and their outcome waits for the primary's (R275). -/
def raStandby (d : Dev) : Dev :=
  if d.ra.newCfg.isSome then raApply d
  else if d.ra.depth = 0 then d
  else
    let due := d.ra.periods.filter (fun p => !p.commitWait && decide (p.n ≤ curPeriod d) &&
      !d.trl.raHeld.any (fun x => x.1 = p.n))
    openPeriods (due.foldl (fun d p =>
      let t := testInputs p d
      { t.2.2 with trl.raHeld := t.2.2.trl.raHeld ++ [(p.n, t.1, t.2.1)] }) d)

/-- MIRROR_LATE: the fast or the bulk part is late (R416); the standby goes on with its own capture items. -/
def mirrorLate (fast : Bool) (d : Dev) : Dev :=
  let due := if fast then d.trl.stepsWait.isSome else d.trl.items.isSome
  if !actingStandby d ∨ lenMismatch d ∨ !due then d
  else
    let d1 := requestImage (orP Reg.redEvent 0x20 (bump 0xE 4 1 (raiseVec 70 d)))
    if fast then
      match d1.trl.stepsWait with
      | some (c, frozen) => frameSteps c frozen { d1 with trl.stepsWait := none }
      | none => d1
    else raStandby (enterItems (d1.trl.items.getD []) { d1 with trl.items := none })

/-! ### The sync image (R418) -/

/-- The number by which this unit knows a command of the primary that it has no packet of. -/
def farId (n : Nat) : Nat := n + 2 ^ 40

/-- The standby's state becomes what the image says. Commands mirrored before it are forgotten; the unit's own runs
stop as cancelled. -/
def installImage (x : SyncImage) (d : Dev) : Dev :=
  let far := (d.cmd.cmds.filter (·.ringless)).map (·.id)
  let d0 := { d with cmd.cmds := d.cmd.cmds.filter (fun c => !c.ringless), trl.mirrored := [], trl.raHeld := [], trl.conts := [] }
  let d1 := d0.pln.runs.foldl (fun d r =>
    dropRun r.id (if far.contains r.cmd then d else complete r.cmd (refuse stCancelled 0) d)) d0
  let loops := smMap LoopSt.reset (fun _ (l : LoopSt) =>
    { l with retune := l.retune.map (fun q => { q with cmd := farId q.cmd }) }) x.loops
  let change (c : LogicChange) : LogicChange := match c with
    | .word c w v => .word (farId c) w v
    | .patch c a v => .patch (farId c) a v
  let wait := x.budgetWait.map (fun b => match b with
    | .plan c fp t r => BudgetWait.plan (farId c) fp t r
    | .cls c k cu fc t => BudgetWait.cls (farId c) k cu fc t)
  let q := smMap none (fun _ (e : Option LEntry) => e.map (fun y => { y with owner := if y.owner = 0 then 0 else farId y.owner })) x.launch.q
  let periods := x.runAhead.periods.map (fun (p : Period) =>
    { p with ended := p.ended.map (fun e => { e with cmd := farId e.cmd }) })
  let d2 := x.regs.foldl (fun d r => writePlain r.1 r.2.toNat d) d1
  let d3 := { d2 with
    mdl := { x.model with pins := [], wait := x.model.wait.map (fun w => { w with cmd := farId w.cmd }) },
    pln.slots := x.slots, pln.fp := x.framePlan, pln.wait := wait, plc := { x.placement with rebuild := none },
    clp.loops := loops, clp.map := x.map, clp.pubs := [], cle := { x.logic with queue := x.logic.queue.map change, scans := [] },
    tim.subst := x.subst, can.fields := x.fields,
    lch := ⟨q, x.launch.groups.map (fun g => { g with cmd := farId g.cmd })⟩,
    ra := { x.runAhead with periods := periods, resolves := [], resolving := false, setsFor := [], testSets := [] },
    lsq.pub := x.published }
  x.cells.foldl (fun d c => wrB d c.1 c.2) (releaseLoops d3)

/-- The digests of the two units agree, by the latest reports. -/
def digestsAgree (d : Dev) : Bool :=
  decide (d.trl.own.length = 64) && decide (fieldLE d.trl.own 0x18 8 = repF (partner d) 0x18 8)

/-- SYNCED at a boundary of an acting standby (R418). -/
def syncBoundary (d : Dev) : Dev :=
  if actingStandby d ∧ d.trl.imageDone ∧ !synced d ∧ digestsAgree d ∧ d.trl.runsUntil ≤ now d ∧ !lenMismatch d then
    setSynced true d
  else d

/-- DIGEST_DIFF and CFG_DIFF of an acting standby at a boundary (R194, R417). -/
def diffBoundary (d : Dev) : Dev :=
  if !actingStandby d ∨ !partnerHeard d then d
  else
    let dd := !digestsAgree d
    let cd := decide (fieldLE d.trl.own 0x34 4 ≠ repF (partner d) 0x34 4)
    let d1 := if dd && !d.plc.digestDiff then raiseVec 70 d else d
    let d2 := if cd && decide (fld d Reg.redStat 24 24 = 0) then raiseVec 70 d1 else d1
    setF Reg.redStat 24 24 (b2n cd) { d2 with plc.digestDiff := dd }

/-! ### Takeover (R419–R421) -/

/-- Condition 1 of R419 (log 94). -/
def partnerGone (d : Dev) : Bool :=
  decide ((partner d).misses = 3) || (partnerHere d && (partnerFlag d 0 || partnerFlag d 2)) ||
  (match d.trl.awaitRun with
   | some t => decide (t + d.sys.frameLen ≤ now d)
   | none => false)

/-- The decision of an acting standby at a boundary (log 94). -/
def decideTakeover (d : Dev) : Dev :=
  if !actingStandby d ∨ d.trl.takeoverAt.isSome then d
  else
    let c1 := partnerGone d
    let c2 := !peerOwnLow d
    let ready := d.trl.syncedLast && (runForbidden d).isNone
    let lf := c1 && !c2
    let bl := c1 && c2 && !ready
    let d1 := redFlag 26 3 lf (if lf then bump 0xE 3 1 d else d)
    let d2 := redFlag 27 4 bl (if bl then bump 0xE 2 1 d1 else d1)
    if c1 && c2 && ready then { d2 with trl.takeoverAt := some (now d2 + d2.sys.frameLen) } else d2

/-- A continuation fires (R421). -/
def fireContinuation (c : Continuation) (d : Dev) : Dev :=
  let d1 := bump 0xE 9 1 d
  if c.kind = 4 then canLaunch c.index d1 else setpointOut (c.index / 16) (now d1) c.time [(c.index % 16, c.value)] d1

/-- Mirrored commands not completed go to the ring of the same number, or their completion will be discarded (R420) (log 77). -/
def adoptMirrored (d : Dev) : Dev :=
  d.trl.mirrored.foldl (fun d m =>
    match findCmd d m.1 with
    | none => d
    | some c =>
      let r := ringOf d c.pkt.ring.val
      if r.st = .active ∧ r.cls = m.2 then
        { d with cmd.cmds := d.cmd.cmds.map (fun x => if x.id = m.1 then { x with ringless := false } else x) }
      else bump 0xE 11 1 d) { d with trl.mirrored := [] }

/-- The takeover tick (R420). `counted` tells a takeover from a reversion, which goes the same way (log 94). -/
def takeOver (d : Dev) : Dev :=
  let cs := sortBy (fun (a b : Continuation) => decide (a.time < b.time)) d.trl.conts
  let d1 := enterMode .run 5 { d with trl.takeoverAt := none, trl.revertAt := none, trl.awaitRun := none, trl.conts := [],
                                      trl.stepsWait := none, trl.items := none, trl.imageReq := false, trl.bulks := [], trl.avail := none }
  let d2 := setF Reg.redStat 25 25 0 (setSynced false (setF Reg.redStat 30 30 1 { d1 with trl.lastTakeover := now d1 }))
  let d3 := cs.foldl (fun d c => fireContinuation c d) (adoptMirrored (keepOutcomes d2))
  orP Reg.redEvent 1 (raiseVec 70 (event 0x0E 2 [now d3] (bump 0xE 0 1 (addF Reg.redTakeoverCnt 31 0 1 d3))))

/-- TAKEOVER: its instant has come. It is given up while the partner owns: no two units own at once (R412) (log 94). -/
def takeover (d : Dev) : Dev :=
  match d.trl.takeoverAt with
  | none => d
  | some t =>
    if d.sys.mode = .standby ∧ !peerOwnLow d then takeOver (advanceTo t d)
    else { d with trl.takeoverAt := none }

/-- Continuations of frames whose report arrived are discarded (R421). -/
def contsBoundary (d : Dev) : Dev :=
  if d.sys.mode = .standby ∧ !partnerHeard d then d
  else bump 0xE 10 d.trl.conts.length { d with trl.conts := [] }

/-! ### Reversion (R423, R424) -/

/-- REVERT_REQUEST: the timer reaches REVERT_S. -/
def revertRequest (d : Dev) : Dev :=
  match d.trl.healthyFrom with
  | none => d
  | some t =>
    if !revertCondition d ∨ fldA d Reg.redCtl 4 4 = 0 ∨ d.trl.revertReq ∨ d.trl.revertAt.isSome then d
    else { advanceTo (t + revertS d * 10 ^ 9) d with trl.revertReq := true }

/-- HANDOVER_RELEASE: 50 µs before T_h the outputs are released. -/
def handoverRelease (d : Dev) : Dev :=
  match d.trl.handoverAt with
  | none => d
  | some t =>
    if d.trl.released ∨ d.sys.mode.code < 5 then d
    else discardPulses { advanceTo (t - 50000) d with trl.released := true, sys.own := false }

/-- The unit that hands over enters STANDBY (R418, R424) (log 94). -/
def handOver (t : Nat) (d : Dev) : Dev :=
  let wasSynced := partnerFlag d 1
  let d1 := enterMode .standby 6 { d with trl.handoverAt := none, trl.released := false, trl.awaitRun := some t }
  let d2 := setF Reg.redStat 25 25 0 (setF Reg.redStat 30 30 0 { d1 with trl.lastHandover := now d1, trl.syncedLast := false })
  let d3 := redEvent 1 (bump 0xE 1 1 d2)
  if wasSynced ∧ digestsAgree d3 ∧ !lenMismatch d3 then setSynced true { d3 with trl.imageReq := false, trl.imageDone := true, trl.syncedLast := true }
  else requestImage d3

/-- HANDOVER: T_h has come. The handing-over unit enters STANDBY; the reverting one enters RUN when PEER_OWN_N reads
high. -/
def handover (peerLow : Bool) (d : Dev) : Dev :=
  match d.trl.handoverAt, d.trl.revertAt with
  | some t, _ =>
    let d1 := setPeerOwn peerLow (advanceTo t d)
    if d1.sys.mode = .run then handOver t d1
    else setF Reg.redStat 25 25 0 { d1 with trl.handoverAt := none, trl.released := false, sys.own := d1.sys.mode.owns }
  | none, some t =>
    let d1 := setPeerOwn peerLow (advanceTo t d)
    if d1.sys.mode = .standby ∧ !peerLow then takeOver d1
    else setF Reg.redStat 25 25 0 { d1 with trl.revertAt := none }
  | none, none => d

/-- What a boundary at time T does about roles, before anything of the new frame (R96, R418–R424): a takeover or handover
that is due, SYNCED, the differences, the revert timer, the decision. -/
def redBoundary (d : Dev) : Dev :=
  let t := now d
  let due (x : Option Nat) : Bool := (x.map (fun v => decide (v ≤ t))).getD false
  let d0 := keepOutcomes (lengthBoundary d)
  let d1 := if partnerHeard d0 then { d0 with trl.syncedLast := synced d0 } else d0
  let d2 := contsBoundary (diffBoundary (syncBoundary d1))
  let d3 := if due d2.trl.takeoverAt then takeover d2 else d2
  let d4 := if due d3.trl.handoverAt || due d3.trl.revertAt then handover (peerOwnLow d3) d3 else d3
  setP Reg.redTimer (min (revertSecs d4) 0xFFFF) (revertTimer (decideTakeover (setPaired d4)))

/-! ### Commands of group 0x0E (R425, R426) -/

def specTrlQuery : OpSpec := { opBase 0x0E01 0xF8 with bufUse := .write, bufOk := fun p _ => decide (1024 ≤ bufL p) }

/-- A report as the chain last gave it. -/
def reportOf (d : Dev) (a : Nat) : List Byte :=
  if a = ownAddr d ∧ a ≠ 0 then sliceB d.trl.own 0 64
  else if (peerOf d a).present then sliceB (peerOf d a).report 0 64 else List.replicate 64 (0 : Byte)

/-- TRL_QUERY. -/
def effTrlQuery : Nat → Pkt → Dev → Dev :=
  immediate fun p d =>
    (ok (regP d Reg.trlPresent) (regP d Reg.trlHeadLen) 0 0,
      wrBytes (bufA p) ((List.range 16).flatMap (fun i => reportOf d (i + 1))) d)

/-- Code 1 of R425 (log 93). -/
def notPaired (d : Dev) (standby : Bool) : Option Res :=
  if !paired d || (standby && !partnerSynced d) then some (conflictObj d 0x20 1) else none

def specRedFailover : OpSpec := { opBase 0x0E02 0x20 with object := fun _ d => notPaired d true }

/-- RED_FAILOVER: the unit declares a fault; the command completes at the cut-off (R422). -/
def effRedFailover (id : Nat) (_ : Pkt) (d : Dev) : Dev := { d with trl.fault := true, trl.failover := some id }

def specRedRevertNow : OpSpec :=
  { opBase 0x0E03 0x10 with
    object := fun _ d => (notPaired d false).or (if revertCondition d then none else some (conflictObj d 0x10 2)) }

/-- RED_REVERT_NOW: REVERT_REQ goes into the next report (R423). -/
def effRedRevertNow : Nat → Pkt → Dev → Dev :=
  immediate fun _ d =>
    let t := if d.trl.reported then nextBoundary d else frameStart d
    (ok (lo32 t) (hi32 t) 0 0, { d with trl.revertReq := true })

def specRedResync : OpSpec :=
  { opBase 0x0E04 0x10 with
    object := fun _ d => (notPaired d false).or (if partnerActs d then none else some (conflictObj d 0x10 2)) }

/-- RED_RESYNC: it completes when the primary names T_s (R418). -/
def effRedResync (id : Nat) (_ : Pkt) (d : Dev) : Dev := { requestImage d with trl.resync := d.trl.resync ++ [id] }

/-- READ_STATE 0x0E00_0000 (R426). -/
def redState (d : Dev) : List Byte :=
  sliceB d.trl.own 0 64 ++ sliceB (partner d).report 0 64 ++ leBytes 8 d.trl.lastTakeover ++ leBytes 8 d.trl.lastHandover ++
  leBytes 4 (min (revertSecs d) 0xFFFFFFFF) ++ leBytes 4 (partner d).misses ++ leBytes 4 (regP d Reg.redStat) ++
  List.replicate 100 (0 : Byte)

end Sys2Proof.Machine
end

