-- ==== Sys2Proof/Machine/Strobe.lean ====
section
/-!
DEFINITION. The update strobe and what each block does when its applied values change
(spec/03_registers.md R85–R90).
-/

namespace Sys2Proof.Machine

/-- The CTL register of the block or instance an offset lies in (R80, R85). -/
def ctlOf (o : Nat) : Nat :=
  let p := o / 0x10000
  if p = 7 ∨ p = 9 ∨ p = 11 then (p - 1) * 0x10000
  else if p = 14 ∨ p = 15 then o / 0x2000 * 0x2000
  else p * 0x10000

/-- The update group of a register. -/
def groupOf (d : Dev) (o : Nat) : Nat := fldA d (ctlOf o) 28 24

/-- A register takes its shadow: RWS fields the value written, posted fields outside the RTC the value landed. -/
def takeShadow (o : Nat) (d : Dev) : Dev :=
  let s := accMask (fieldsAt o) .rws
  let p := if isRtcReg o then 0 else postMask o
  if s = 0 ∧ p = 0 then d else setA o (mergeBits (mergeBits (regA d o) (regP d o) s) (regL d o) p) d

/-- Registers whose shadow may differ from the applied value: those a table lists, apart from SYS and CFG, which hold no
RWS fields. -/
def shadowed (d : Dev) : List Nat :=
  ((keysOf d.rg.present d.rg.applied ++ keysOf d.rg.landed ([] : SMap (Option Word))).filter (fun o => decide (0x20000 ≤ o))).dedup

/-- A PWM channel whose EN has just set starts from 0; the counter of one whose EN has cleared stops (R353). -/
def pwmFollow (old d : Dev) : Dev :=
  (List.range 16).foldl (fun d n => if pwmOn d n && !pwmOn old n then pwmStart n d else d) d

/-- A comparator that is not enabled is in band (R350). -/
def windowFollow (d : Dev) : Dev :=
  (List.range 32).foldl (fun d n => if bitAt (regA d (Reg.adcWinHyst n)) 31 then d else setF Reg.adcWinStat n n 0 d) d

/-- ENABLE of the logic engine: set, the next scan is a first one; clear, waiting changes apply (R310, R315). -/
def logicFollow (old d : Dev) : Dev :=
  if logicOn d && !logicOn old then { d with cle.firstScan := true }
  else if logicOn old && !logicOn d then flushChanges d else d

/-- A waiting commit of the reference takes place at the strobe (R90); the running pass restarts (R89). -/
def strobeReference (d : Dev) : Dev :=
  let d1 := restartPass d
  if fld d1 Reg.cfgStat 2 2 = 1 then setReference (regP d1 Reg.cfgCrcRef) (setF Reg.cfgStat 2 2 0 d1) else d1

/-- The groups of a mask are applied on this tick (R86, R87). -/
def applyGroups (mask : Nat) (d : Dev) : Dev :=
  if mask = 0 then d
  else
    let d1 := (shadowed d).foldl (fun e o => if bitAt mask (groupOf d o) then takeShadow o e else e) d
    let d2 := windowFollow (adcStops (logicFollow d (pwmFollow d (takeSource d1))))
    let d3 := hltAlarms (trlFollow (ethFollow (canFollow (meterStrobe d d2))))
    strobeReference (if frozen d3 && !frozen d then discardPulses d3 else d3)

/-- UPDATE_STROBE: the groups of CFG_UPDATE_MASK wait for the next boundary. -/
def armStrobe (d : Dev) : Dev := orP Reg.cfgPend (regP d Reg.cfgUpdateMask) d

/-- UPDATE_STROBE_IMMEDIATE: within the 1 µs that R86 allows, the groups apply on the tick of the write (log 133). -/
def strobeNow (d : Dev) : Dev :=
  let m := regP d Reg.cfgUpdateMask
  applyGroups m (setP Reg.cfgPend (regP d Reg.cfgPend &&& (0xFFFFFFFF - m)) d)

/-- The pending groups are applied at a boundary tick. -/
def strobeBoundary (d : Dev) : Dev := applyGroups (regP d Reg.cfgPend) (setP Reg.cfgPend 0 d)

/-! ### The reference (R90) and the guard (R89, R91) -/

/-- COMMIT_AT_STROBE. -/
def commitAtStrobe (d : Dev) : Dev := setF Reg.cfgStat 2 2 1 d
/-- COMMIT_NOW. -/
def commitNow (d : Dev) : Dev := setReference (regP d Reg.cfgCrcRef) d
/-- CAPTURE_NEXT_PASS: the pass that is running is not the one captured; before CONFIG none runs (R89, R90). -/
def captureNext (d : Dev) : Dev := { setF Reg.cfgStat 3 3 1 d with rg.passRestart := decide (d.sys.mode.code < 3) }

/-- The configuration registers in ascending offset. -/
def configRegs : List Nat := configOffsets 0 0x1B0000

/-- The word of a register as the running pass took it: before as many of its last changes as `olds` names it (R89)
(log 36). -/
def passWord (d : Dev) (olds : List Nat) (o : Nat) : Nat :=
  let hist := (smGet [] d.rg.passOld o).map (·.toNat) ++ [guardWord d o]
  hist.getD (hist.length - 1 - olds.count o) 0

/-- CRC-32C over the configuration words of a pass; `olds` names the changed words that it took before a change,
once for each change it missed (log 36). -/
def passCrc (olds : List Nat) (d : Dev) : Nat := crc32c (configRegs.flatMap (fun o => leBytes 4 (passWord d olds o)))

/-- CONFIG_MISMATCH (R91). -/
def mismatch (d : Dev) : Dev :=
  let was := fld d Reg.cfgStat 0 0 = 1
  let d1 := orP Reg.cfgStat 1 (addF Reg.cfgMismatchCnt 31 0 1 d)
  let d2 := if was then d1 else raiseVec 64 (event 0x00 2 [regP d1 Reg.cfgCrcLive, regP d1 Reg.cfgCrcActive] d1)
  if fld d2 Reg.cfgCtl 1 1 = 1 ∧ d2.sys.mode = .run then holdCause 2 (declareFault 0 d2) else d2

/-- GUARD_PASS: a pass completes. The pass that action 0b11 captures is not compared with the reference before it (log 35, 134). -/
def guardPass (olds : List Nat) (d : Dev) : Dev :=
  if d.sys.mode.code < 3 then d
  else
    let v := passCrc olds d
    let d1 := addF Reg.cfgPassCnt 31 0 1 (setP Reg.cfgCrcLive v d)
    let fresh := d1.rg.passRestart
    let d2 := { d1 with rg.passOld := [], rg.passRestart := true }
    if fld d2 Reg.cfgStat 3 3 = 1 ∧ fresh then setReference v (setF Reg.cfgStat 3 3 0 d2)
    else if fld d2 Reg.cfgCtl 0 0 = 1 ∧ fld d2 Reg.cfgStat 1 1 = 1 ∧ regP d2 Reg.cfgCrcActive ≠ v then mismatch d2
    else d2

end Sys2Proof.Machine
end

