-- ==== Sys2Proof/Machine/RegView.lean ====
section
/-!
DEFINITION. What a read of a register returns and what it does
(spec/03_registers.md R80–R83; the register tables of chapters 02–22; spec/02_command_interface.md R38, R74, R75).
-/

namespace Sys2Proof.Machine

/-! ### Registers whose value is computed from the state of their block -/

/-- The frame number: that of the frame in progress (R18, R22) (log 20). -/
def frameNo (d : Dev) : Nat := d.sys.lastBoundary.getD 0 / d.sys.frameLen

/-- SYS block. -/
def sysView (d : Dev) (o : Nat) : Option Nat :=
  if o = Reg.sysMode then
    some (d.sys.holdCause <<< 16 + d.sys.prevMode.code <<< 8 + b2n d.sys.own <<< 4 + b2n d.sys.degraded <<< 3 + d.sys.mode.code)
  else if o = Reg.sysFrameLen then some d.sys.frameLen
  else if o = Reg.sysFrameNoLo then some (lo32 (frameNo d))
  else none

/-- RING_n_STATE (R44). -/
def ringStateWord (d : Dev) (n : Nat) : Nat :=
  let r := ringOf d n
  inflight d n <<< 16 + b2n r.loc <<< 10 + r.st.code <<< 8 + r.cls <<< 4 + (if r.st = .disabled then 0 else r.log2)

/-- RING_n_STAT. -/
def ringStatWord (r : Ring) : Nat := b2n r.dbDropped <<< 3 + b2n r.xferErr <<< 2 + b2n r.cqFull <<< 1 + b2n r.badDb

/-- Doorbell blocks (R44). -/
def ringView (d : Dev) (o : Nat) : Option Nat :=
  if 0x1000 ≤ o % 0x10000 then none
  else
    let n := o % 0x10000 / 0x40
    let r := ringOf d n
    match o % 0x40 with
    | 0x00 => some (r.sqTail + regP d o / 0x1000 * 0x1000)
    | 0x04 => some (r.cqHead + regP d o / 0x1000 * 0x1000)
    | 0x08 => some r.sqHead
    | 0x0C => some (b2n r.phase <<< 12 + r.cqTail)
    | 0x10 => some (ringStateWord d n)
    | 0x14 => some (ringStatWord r)
    | _ => none

/-- BUD block (R158, R160). -/
def budView (d : Dev) (o : Nat) : Option Nat :=
  if o = Reg.budFpId then some ((d.pln.fp.map (·.fpId)).getD 0)
  else if o = Reg.budStat then
    some (b2n d.pln.fp.isSome <<< 31 + b2n d.pln.amended <<< 30 + b2n d.pln.requireSigned <<< 29 + b2n d.pln.lock <<< 28 +
      fld d Reg.budStat 23 20 <<< 20 + (idxWhere 16 (fun c => decide (smGet 0 d.pln.cuts c ≠ 0))).foldl (fun m c => m + 1 <<< c) 0)
  else if Reg.budClsStat 0 ≤ o ∧ o < 0x040300 ∧ o % 0x20 = 0x10 then some (budClsStat d ((o - Reg.budClsStat 0) / 0x20))
  else none

/-- The largest run of units below a limit that no home of the kind holds. -/
def largestRun (homes : List Home) (kind limit : Nat) : Nat :=
  let occ := (homes.filter (fun h => h.home = kind)).map (fun h => (h.offset, h.offset + h.len))
  ((0 :: occ.map (·.2)).map fun c =>
    if occ.any (fun x => decide (x.1 ≤ c ∧ c < x.2)) then 0
    else (occ.filter (fun x => decide (c ≤ x.1))).foldl (fun m x => min m x.1) limit - c).foldl max 0

/-- PLC block (R192, R194, R206). -/
def plcView (d : Dev) (o : Nat) : Option Nat :=
  if o = Reg.plcStat then
    some (b2n d.plc.replacePend <<< 31 + b2n (groupOk d) <<< 30 + b2n d.plc.digestDiff <<< 29 +
      b2n (decide (appliedSizes d ≠ d.plc.sizes)) <<< 28 + b2n d.plc.sizesBad <<< 27 + nEff d <<< 16 + d.plc.homes.length)
  else if o = Reg.plcLoftFree then some (largestRun d.plc.homes 1 (loftPoolLen d.plc.sizes.j / 64))
  else if o = Reg.plcDramFree then
    some (largestRun d.plc.homes 2 ((guestBase d.plc.sizes.h d.plc.sizes.g - dramPool) / 64) / 64)
  else if o = Reg.plcDigestLo then some (lo32 (plcDigest d))
  else none

/-- THR block (R166, R173, R177–R181, R188) (log 82). -/
def thrView (d : Dev) (o : Nat) : Option Nat :=
  if o = Reg.thrGovStat then
    some (d.thr.vcode <<< 16 + d.thr.target <<< 12 + d.thr.band <<< 8 + d.thr.bandMax <<< 4 + b2n d.thr.atMax <<< 3 +
      b2n d.thr.below <<< 2 + b2n ((d.thr.avs.map (·.raise)).getD false) <<< 1 + b2n d.thr.avsErr)
  else if o = Reg.thrSpare then some (sparesUsed d <<< 8 + inService d)
  else if Reg.thrBandRate 0 ≤ o ∧ o < Reg.thrBandRate 16 then some (bandRate ((o - Reg.thrBandRate 0) / 4))
  else if Reg.thrBandTh 0 ≤ o ∧ o < Reg.thrBandTh 15 then some (Config.bandTh ((o - Reg.thrBandTh 0) / 4)).toNat
  else if Reg.thrPv 0 ≤ o ∧ o < Reg.thrPv 8 then some (Config.pvSpeed ((o - Reg.thrPv 0) / 4)).toNat
  else if Reg.thrPm 0 ≤ o ∧ o < Reg.thrPm 16 then
    some ((Config.pmBase ((o - Reg.thrPm 0) / 4)).toNat <<< 16 + pmCount d ((o - Reg.thrPm 0) / 4))
  else if Reg.thrClStat 0 ≤ o ∧ o < Reg.thrClStat 34 then
    let c := clusterOf d ((o - Reg.thrClStat 0) / 0x10)
    match o % 0x10 with
    | 0x0 => some (c.state <<< 30 + c.logical <<< 24 + c.kaMargin <<< 16 + c.kaFails)
    | 0x4 => some ((c.flushResults % 65536) <<< 16 + c.flushOperands % 65536)
    | 0x8 => some c.exc
    | _ => none
  else none

/-- ADC block. -/
def adcView (d : Dev) (o : Nat) : Option Nat :=
  if Reg.adcRes 0 ≤ o ∧ o < Reg.adcRes 32 then
    let r := resOf d ((o - Reg.adcRes 0) / 4)
    some ((r.count % 256) <<< 24 + b2n r.out <<< 16 + r.code)
  else none

/-- MTR block. -/
def mtrView (d : Dev) (o : Nat) : Option Nat :=
  if Reg.mtrAccLo 0 ≤ o ∧ o < Reg.mtrAccLo 96 ∧ o % 0x10 = 0 then some (lo32 (accOf d ((o - Reg.mtrAccLo 0) / 0x10)).value)
  else none

/-- The controller and the offset in its instance of a CAN register. -/
def canInst (o : Nat) : Nat × Nat := ((o - 0x0E0000) / 0x10000 * 4 + o % 0x8000 / 0x2000, o % 0x2000)

/-- IOX block (R351–R357, R360). -/
def ioxView (d : Dev) (o : Nat) : Option Nat :=
  if o = Reg.ioxStat then some (ioPins d)
  else if Reg.ioxDacVal 0 ≤ o ∧ o < Reg.ioxDacVal 8 ∧ o % 8 = 4 then some (smGet 0 d.iox.dac ((o - Reg.ioxDacVal 0) / 8))
  else if Reg.ioxPwmHigh 0 ≤ o ∧ o < Reg.ioxPwmHigh 16 ∧ o % 0x10 = 4 then some (pwmOf d ((o - Reg.ioxPwmHigh 0) / 0x10)).h
  else if Reg.ioxGpioIn 0 ≤ o ∧ o < Reg.ioxGpioIn 3 then some (lo32 (d.iox.gpioIn >>> (32 * ((o - Reg.ioxGpioIn 0) / 4))))
  else if Reg.ioxPiCnt 0 ≤ o ∧ o < Reg.ioxPiCnt 16 ∧ o % 8 = 4 then some (piOf d ((o - Reg.ioxPiCnt 0) / 8)).count
  else if Reg.ioxPoStat 0 ≤ o ∧ o < Reg.ioxPoStat 8 then
    some (putBits (regP d o) 15 0 (poOf d ((o - Reg.ioxPoStat 0) / 4)).remaining)
  else none

/-- GRN and EVR blocks. -/
def grnView (d : Dev) (o : Nat) : Option Nat :=
  if o = Reg.grnStat then some (grnStat d)
  else if o = Reg.grnSeqLo then some (lo32 (lastSeq d))
  else if o = Reg.grnCkptGen then some (lo32 (((newestCkpt d.grn).map (·.gen)).getD 0))
  else if o = Reg.grnCkptSeqLo then some (lo32 (((newestCkpt d.grn).map (·.sc)).getD 0))
  else if o = Reg.evrStat then some (evrStat d)
  else none

/-- The value that the state of a block gives a register, for those that no table holds (log 49). -/
def regView (d : Dev) (o : Nat) : Option Nat :=
  match o / 0x10000 with
  | 0 => sysView d o
  | 2 => ringView d o
  | 4 => budView d o
  | 5 => plcView d o
  | 6 => thrView d o
  | 10 => if o = Reg.cleStat then some (cleStat d) else none
  | 12 => adcView d o
  | 13 => mtrView d o
  | 14 => canView d (canInst o).1 (canInst o).2
  | 15 => canView d (canInst o).1 (canInst o).2
  | 17 => if o = Reg.timNowLo then some (lo32 (now d)) else if o = Reg.timStat then some (timStat d) else none
  | 20 => if o = Reg.rtcNowTime then some (nowTime d) else none
  | 21 => if o = Reg.pavStat then some (pavStat d) else none
  | 22 => grnView d o
  | 23 => grnView d o
  | 24 => if o = Reg.secStat then some (secStat d) else if o = Reg.secAttNext then some (slotOf d 1).next else none
  | 26 => ioxView d o
  | _ => none

/-- The present value of a register. -/
def regWord (d : Dev) (o : Nat) : Nat := (regView d o).getD (regP d o) % 2 ^ 32

/-! ### Reads (R82, R83) -/

/-- What the peek alias shows: applied values of RWS fields, applied or landed values of posted ones. -/
def peekWord (d : Dev) (o : Nat) : Nat :=
  let fs := fieldsAt o
  mergeBits (mergeBits (regWord d o) (regA d o) (accMask fs .rws))
    (if isRtcReg o then regL d o else regA d o) (accMask fs .rwp)

/-- The upper half or companion registers that a read latches. -/
def latchRead (o : Nat) (d : Dev) : Dev :=
  if o = Reg.sysFrameNoLo then setP Reg.sysFrameNoHi (hi32 (frameNo d)) d
  else if o = Reg.plcDigestLo then setP Reg.plcDigestHi (hi32 (plcDigest d)) d
  else if o = Reg.timNowLo then setP Reg.timNowHi (hi32 (now d)) d
  else if o = Reg.rtcNowTime then latchRtc d
  else if o = Reg.grnSeqLo then setP Reg.grnSeqHi (hi32 (lastSeq d)) d
  else if o = Reg.grnCkptSeqLo then setP Reg.grnCkptSeqHi (hi32 (((newestCkpt d.grn).map (·.sc)).getD 0)) d
  else if o / 0x10000 = 13 ∧ Reg.mtrAccLo 0 ≤ o ∧ o < Reg.mtrAccLo 96 ∧ o % 0x10 = 0 then
    (let a := accOf d ((o - Reg.mtrAccLo 0) / 0x10)
     setP (o + 4) (hi32 a.value) (setP (o + 8) a.wraps d))
  else if (o / 0x10000 = 14 ∨ o / 0x10000 = 15) ∧ o % 0x2000 = 0x40 then
    setP (o + 4) (lo32 d.can.pairT) (setP (o + 8) (hi32 d.can.pairT) d)
  else d

/-- A clearing read: every RC field of the register returns to 0. -/
def clearRead (o : Nat) (d : Dev) : Dev :=
  let m := accMask (fieldsAt o) .rc
  if m = 0 then d
  else if o / 0x10000 = 2 then
    modRing (o % 0x10000 / 0x40) (fun r => { r with dbDropped := false, xferErr := false, cqFull := false, badDb := false }) d
  else if o / 0x10000 = 6 ∧ Reg.thrClStat 0 ≤ o then
    let k := (o - Reg.thrClStat 0) / 0x10
    let c := clusterOf d k
    setCluster k (if o % 0x10 = 4 then { c with flushResults := 0, flushOperands := 0 } else { c with exc := 0 }) d
  else setP o (regP d o &&& (0xFFFFFFFF - m)) d

/-- RC_CLEARING_READ. -/
def rcRead (o : Nat) (d : Dev) : Nat × Dev := (regWord d o, clearRead o d)

/-- LATCHING_READ. -/
def latchingRead (o : Nat) (d : Dev) : Nat × Dev := (regWord d o, latchRead o d)

/-- An access refused under R37, R81 or R92 is counted. -/
def badAccess (d : Dev) : Dev := bump 0 8 1 (addF Reg.sysBadAccess 31 0 1 d)

/-! ### The MSI-X table and pending bits (R38) -/

/-- The MSI-X table. -/
def isMsixTable (o : Nat) : Bool := decide (0x01F00000 ≤ o ∧ o < 0x01F00000 + 72 * 16)
/-- The pending-bit array, three words and one of zeros. -/
def isMsixPba (o : Nat) : Bool := decide (0x01F01000 ≤ o ∧ o < 0x01F01010)

/-- A word of either. -/
def msixWord (d : Dev) (o : Nat) : Nat :=
  if isMsixTable o then (smGet 0 d.cmd.msix ((o - 0x01F00000) / 4)).toNat
  else (idxWhere 32 (fun b => smGet false d.cmd.pba ((o - 0x01F01000) * 8 + b))).foldl (fun m b => m + 1 <<< b) 0

/-- A write to the table; a vector whose mask bit clears sends its pending message. -/
def msixWrite (o : Nat) (w : Word) (d : Dev) : Dev :=
  let k := (o - 0x01F00000) / 4
  let d1 := { d with cmd.msix := smSet 0 d.cmd.msix k (if k % 4 = 3 then w &&& 1 else if k % 4 = 0 then w &&& 0xFFFFFFFC else w) }
  if k % 4 = 3 ∧ w.toNat % 2 = 0 ∧ smGet false d.cmd.pba (k / 4) then
    msixSend (k / 4) { d1 with cmd.pba := smSet false d1.cmd.pba (k / 4) false }
  else d1

/-! ### One aligned 32-bit read (R80–R82) -/

/-- A read at any offset of Base Address Register 0. -/
def regRead (o : Nat) (d : Dev) : Nat × Dev :=
  if o % 4 ≠ 0 then (0xFFFFFFFF, badAccess d)
  else if isMsixTable o || isMsixPba o then (msixWord d o, d)
  else
    let r := if 0x8000 ≤ o % 0x10000 then o - 0x8000 else o
    if !offsetImplemented r then (0, badAccess d)
    else if r ≠ o then (peekWord d r, d)
    else (regWord d o, latchRead o (clearRead o d))

/-- IRQ_N is asserted (R75). -/
def irq (d : Dev) : Bool := decide (regP d Reg.sysEvent &&& (0x1FF - regP d Reg.sysEventMask % 0x200) ≠ 0)

end Sys2Proof.Machine
end

