-- ==== Sys2Proof/Machine/System.lean ====
section
/-!
DEFINITION. The system and ring commands, and the end of a ring reset (spec/02_command_interface.md R66–R72,
spec/04_modes_boot_recovery.md R97–R102, R115–R117, spec/01_architecture.md R20).
-/

namespace Sys2Proof.Machine

/-! ### IDENTIFY, GET_MODE, ECHO, FENCE (R66, R68, R69) -/

/-- ATT_KEY_HASH: 0 before PROVISION has completed. -/
def attKeyHash (d : Dev) : List Byte :=
  if (slotOf d 1).state = .empty then List.replicate 32 (0 : Byte) else sha256 (slotPublic (slotOf d 1))

/-- The identity block. -/
def identityBlock (d : Dev) : List Byte :=
  leBytes 16 Config.serial.toNat ++ leBytes 4 0xB1 ++ leBytes 4 d.sys.fwVersion ++ leBytes 4 Config.romVersion.toNat ++
  leBytes 4 (sparesUsed d <<< 8 + inService d) ++ attKeyHash d

def specIdentify : OpSpec := { opBase 0x0001 0xF8 with bufUse := .write, bufOk := fun p _ => decide (bufL p = 0 ∨ 64 ≤ bufL p) }

/-- IDENTIFY. -/
def effIdentify : Nat → Pkt → Dev → Dev :=
  immediate fun p d =>
    (ok 0x94201FB3 (ownAddr d <<< 8 + 0xB1) d.sys.fwVersion 0,
      if bufL p = 0 then d else wrBytes (bufA p) (identityBlock d) d)

def specGetMode : OpSpec := opBase 0x0002 0xF8

/-- GET_MODE. -/
def effGetMode : Nat → Pkt → Dev → Dev :=
  immediate fun _ d => (ok (b2n d.sys.degraded <<< 3 + d.sys.mode.code) d.thr.band (lo32 (now d)) (hi32 (now d)), d)

def specFence : OpSpec :=
  { opBase 0x0005 0xF8 with params := fun p _ => (firstBad [(decide (1 < param p 0), 0x20)]).or (zeroFrom p 1) }

/-- FENCE: it completes now, or when the last earlier command does (`releaseFences`). -/
def effFence (id : Nat) (_ : Pkt) (d : Dev) : Dev :=
  match findCmd d id with
  | some c => if fenceDone d c then complete id (ok 0 0 0 0) d else d
  | none => d

def specEcho : OpSpec := { opBase 0x0006 0xF8 with params := fun p _ => zeroFrom p 4 }

/-- ECHO. -/
def effEcho : Nat → Pkt → Dev → Dev := immediate fun p d => (ok (param p 0) (param p 1) (param p 2) (param p 3), d)

/-! ### SET_MODE (R97–R102, R412) -/

/-- The modes from which a target is reachable (R97). -/
def reachMask : Nat → Nat
  | 3 => 0xD0
  | 4 => 0x08
  | 5 => 0x48
  | 6 => 0xA0
  | 7 => 0x48
  | _ => 0

/-- Code 2 of R98: the unit's redundancy role does not allow the target (R412). -/
def roleForbids (t : Nat) (d : Dev) : Bool :=
  (decide (t = 5) && (peerOwnLow d || (decide (homeRole d = 2) && partnerHere d && decide (fld d Reg.redStat 30 30 = 0)))) ||
  (decide (t = 4) && (decide (homeRole d = 0) || !partnerHere d || decide (partnerMode d < 5)))

/-- The lowest object-state code that refuses a target (R98). -/
def modeCode (t : Nat) (d : Dev) : Option Nat :=
  if (t = 4 ∨ t = 5) ∧ d.pln.fp.isNone then some 1
  else if roleForbids t d then some 2
  else if t = 5 ∧ (runForbidden d).isSome then runForbidden d
  else if d.sys.mode = .service ∧ d.grn.fwBusy.isSome then some 6
  else none

/-- Why a transition to a target is refused now. -/
def modeRefusal (t : Nat) (d : Dev) : Option Res :=
  if t = d.sys.mode.code then none
  else if !bitAt (reachMask t) d.sys.mode.code then some ⟨stConflict, d.sys.mode.code, reachMask t, 0, 0, 0⟩
  else (modeCode t d).map (fun c => ⟨stConflict, d.sys.mode.code, reachMask t, c, 0, 0⟩)

def specSetMode : OpSpec :=
  { opBase 0x0003 0xFF with
    launch := fun _ => true
    params := fun p _ => (firstBad [(decide (param p 0 < 3 ∨ 7 < param p 0), 0x20)]).or (zeroFrom p 1)
    object := fun p d => modeRefusal (param p 0) d
    resources := fun _ d => if d.sys.modeReq.isSome then some (refuse stBusy 4) else none }

/-- SET_MODE: HOLD takes effect at once, other targets at the next boundary, with LAUNCH the first at or after
LAUNCH_TIME. -/
def effSetMode (id : Nat) (p : Pkt) (d : Dev) : Dev :=
  let t := param p 0
  if t = d.sys.mode.code then complete id (ok 0 0 0 0) d
  else if t = 6 then complete id (ok 0 0 0 0) (enterMode .hold 1 d)
  else if d.sys.modeReq.isSome then complete id (refuse stBusy 4) d
  else { d with sys.modeReq := some ⟨Mode.ofCode t, id, p.launchTime.toNat⟩ }

/-- A SET_MODE that waits is checked again at its boundary and takes effect, or is refused (R101). -/
def modeRequest (t : Nat) (d : Dev) : Dev :=
  match d.sys.modeReq with
  | none => d
  | some q =>
    if t < q.notBefore then d
    else
      let d1 := { d with sys.modeReq := none }
      match modeRefusal q.target.code d1 with
      | some x => complete q.cmd x d1
      | none =>
        let d2 := enterMode q.target 0 d1
        complete q.cmd (ok 0 0 0 0)
          (if q.target = .standby ∧ d.sys.mode = .config then requestImage d2 else d2)

/-! ### SET_FRAME (R20) -/

def specSetFrame : OpSpec :=
  { opBase 0x0008 0x88 with
    params := fun p _ =>
      (firstBad [(decide (param p 0 % 10000 ≠ 0 ∨ param p 0 < 250000 ∨ 10000000 < param p 0), 0x20)]).or (zeroFrom p 1)
    object := fun _ d => if d.sys.frameNew.isSome then some (conflictObj d 0x88 1) else none }

/-- The instant at which a new length takes effect. -/
def frameEffect (l0 l1 t0 : Nat) : Nat := roundUp (t0 + l0) (Nat.lcm l0 l1)

/-- SET_FRAME. -/
def effSetFrame : Nat → Pkt → Dev → Dev :=
  immediate fun p d =>
    let e := frameEffect d.sys.frameLen (param p 0) (now d)
    (ok (lo32 e) (hi32 e) 0 0, { d with sys.frameNew := some ⟨param p 0, e⟩ })

/-! ### GET_COUNTERS (R70) -/

/-- Counters of a group. -/
def counterCount (g : Nat) : Nat :=
  [9, 256, 7, 20, 7, 12, 14, 15, 9, 6, 7, 13, 72, 17, 13, 12, 12, 5, 11].getD g 0

def specGetCounters : OpSpec :=
  { opBase 0x0007 0xF8 with
    bufUse := .write
    params := fun p _ =>
      (firstBad [(decide (0x12 < param p 0), 0x20), (decide (1 < param p 1), 0x24)]).or (zeroFrom p 2) }

/-- GET_COUNTERS. -/
def effGetCounters : Nat → Pkt → Dev → Dev :=
  immediate fun p d =>
    let g := param p 0
    let n := min (counterCount g) (bufL p / 8)
    let d1 := wrBytes (bufA p) ((List.range n).flatMap (fun i => leBytes 8 (ctr d g i).toNat)) d
    let d2 := if bitAt (param p 1) 0 then
        { d1 with cmd.counters := (List.range n).foldl (fun m i => smSet 0 m (ctrKey g i) 0) d1.cmd.counters }
      else d1
    (⟨if n < counterCount g then stPartial else stOk, 0, counterCount g, n, 0, 0⟩, d2)

/-! ### READ_STATE (R115–R117) -/

/-- The ring state record (R117). -/
def ringRecord (d : Dev) (n : Nat) : List Byte :=
  let r := ringOf d n
  let on := r.st ≠ .disabled
  leBytes 4 r.sqTail ++ leBytes 4 r.cqHead ++ leBytes 4 r.sqHead ++ leBytes 4 (b2n r.phase <<< 12 + r.cqTail) ++
  leBytes 4 (ringStateWord d n) ++ leBytes 4 (ringStatWord r) ++ leBytes 8 (if on then r.sqBase else 0) ++
  leBytes 8 (if on then r.cqBase else 0) ++ leBytes 2 r.modUs ++ leBytes 1 r.intMode ++ leBytes 1 0 ++
  leBytes 4 (lo32 (ctr d 1 (4 * n)).toNat) ++ List.replicate 16 (0 : Byte)

/-- An item padded to its size. -/
def padItem (n : Nat) (b : List Byte) : List Byte := sliceB b 0 n

/-- The item at a state address (R116). -/
def stateItem (d : Dev) (a : Nat) : Option (List Byte) :=
  let i := a % 0x1000000
  let one (b : List Byte) : Option (List Byte) := if i = 0 then some b else none
  match a / 0x1000000 with
  | 0x00 =>
    if i = 0 then
      some (leBytes 32 (Config.sysRecord 0 [d.sys.mode.code, d.sys.prevMode.code, d.sys.holdCause, b2n d.sys.degraded, d.thr.band,
        d.sys.frameLen, frameNo d]).toNat)
    else if i = 1 then
      some (leBytes 32 (Config.sysRecord 1 [regP d Reg.sysBootStat, regP d Reg.sysResetCause, d.sys.fwVersion, d.sys.secVersion,
        d.sys.rollback]).toNat)
    else if i = 2 then some (smRange 0 d.sys.prot 0 2048)
    else none
  | 0x01 =>
    if i < 64 then some (ringRecord d i)
    else if 0x100 ≤ i ∧ i < 0x110 then some (padItem 64 (budgetRecord d (i - 0x100)))
    else none
  | 0x02 => one (padItem 64 (modelHeader d))
  | 0x03 => one (padItem 4096 (planState d))
  | 0x04 => one (mapBytes d true)
  | 0x05 => one (padItem 4096 (sheafState d))
  | 0x06 => one (padItem 4096 (lsqState d))
  | 0x07 => one (padItem 4096 (raState d))
  | 0x08 => if i < 256 then some (loopState d i) else none
  | 0x09 => one (padItem 16384 (logicState d))
  | 0x0A => one (padItem 1024 (ioState d))
  | 0x0B => one (padItem 4096 (meterState d))
  | 0x0C => if i < 8 then some (canState d i) else none
  | 0x0D => one (launchState d)
  | 0x0E => one (padItem 256 (redState d))
  | 0x0F => one (padItem 64 (grnState d))
  | 0x10 => if i < 256 then some (keyState d i) else none
  | 0x11 => one (padItem 64 (pavState d))
  | 0x12 => one (padItem 256 (rtcState d))
  | _ => none

/-- Whether a state address is defined, and the size of its item. -/
def stateSize (a : Nat) : Option Nat :=
  let i := a % 0x1000000
  let one (n : Nat) : Option Nat := if i = 0 then some n else none
  match a / 0x1000000 with
  | 0x00 => if i < 2 then some 32 else if i = 2 then some 2048 else none
  | 0x01 => if i < 64 ∨ (0x100 ≤ i ∧ i < 0x110) then some 64 else none
  | 0x02 => one 64
  | 0x03 | 0x05 | 0x06 | 0x07 | 0x0B => one 4096
  | 0x04 | 0x0D => one 65536
  | 0x08 => if i < 256 then some 64 else none
  | 0x09 => one 16384
  | 0x0A => one 1024
  | 0x0C => if i < 8 then some 1024 else none
  | 0x0E | 0x12 => one 256
  | 0x0F | 0x11 => one 64
  | 0x10 => if i < 256 then some 32 else none
  | _ => none

/-- The lengths of the records that make up an item; what follows them is one more (log 47). -/
def recordSizes (a : Nat) : List Nat :=
  match a / 0x1000000 with
  | 0x03 | 0x05 | 0x06 => List.replicate 128 32
  | 0x04 | 0x0D => List.replicate 4096 16
  | 0x07 => List.replicate 5 64 ++ List.replicate 16 32
  | 0x09 => [512, 4096] ++ List.replicate 256 16 ++ List.replicate 256 8
  | 0x0A => List.replicate 8 4 ++ List.replicate 16 16 ++ List.replicate 96 4 ++ List.replicate 8 8 ++ List.replicate 16 4
  | 0x0B => List.replicate 96 16 ++ [8, 8, 8, 8, 4, 4] ++ List.replicate 8 16
  | 0x0C => [256] ++ List.replicate 64 4
  | _ => []

/-- The bytes of the whole records that fit into a room. -/
def wholeRecords : List Nat → Nat → Nat
  | [], _ => 0
  | n :: ns, room => if n ≤ room then n + wholeRecords ns (room - n) else 0

def specReadState : OpSpec :=
  { opBase 0x0004 0xF8 with
    bufUse := .write
    params := fun p _ => (firstBad [((stateSize (param p 0)).isNone, 0x20)]).or (zeroFrom p 1) }

/-- READ_STATE takes its item as it stands and completes (log 47). -/
def readStateNow (id : Nat) (p : Pkt) (d : Dev) : Dev :=
  let b := (stateItem d (param p 0)).getD []
  let n := if b.length ≤ bufL p then b.length else wholeRecords (recordSizes (param p 0)) (bufL p)
  let cls := ((findCmd d id).map (·.cls)).getD 0
  let d1 := charge cls .mgmt (Config.readUs (param p 0)).toNat (charge cls .beats (beatsOf n) (wrBytes (bufA p) (b.take n) d))
  complete id
    (if n = b.length then ⟨stOk, 0, n, 0, lo32 (now d), hi32 (now d)⟩ else ⟨stPartial, 0, n, b.length, lo32 (now d), hi32 (now d)⟩) d1

/-- READ_STATE: an item above 4 KiB is a snapshot of the next boundary. -/
def effReadState (id : Nat) (p : Pkt) (d : Dev) : Dev :=
  if 4096 < (stateSize (param p 0)).getD 0 then { d with cmd.snaps := d.cmd.snaps ++ [id] } else readStateNow id p d

/-- The snapshots of a boundary (log 47). -/
def snapshots (d : Dev) : Dev :=
  d.cmd.snaps.foldl (fun d id =>
    match findCmd d id with
    | some c => readStateNow id c.pkt d
    | none => d) { d with cmd.snaps := [] }

/-! ### RING_CONFIG and RING_RESET (R42, R71, R72) -/

/-- Where a ring of `len` bytes lies: 0 host memory, 1 the Loft clear of the mailbox. -/
def ringPlace (a len : Nat) : Option Nat :=
  if a % 4096 ≠ 0 then none
  else if loftBase ≤ a ∧ a + len ≤ mailboxBase then some 1
  else if 0x4000000000 ≤ a ∧ a + len ≤ 0x8000000000 then some 0
  else none

/-- The fields of a RING_CONFIG that enables a ring (R71). -/
def ringFieldsBad (p : Pkt) : Option Nat :=
  let w := param p 1
  let d := 2 ^ bits w 3 0
  let sq := param64 p 2
  let cq := param64 p 4
  let ps := ringPlace sq (64 * d)
  let pc := ringPlace cq (32 * d)
  firstBad
    [ (decide (1000 < bits w 25 16 ∨ bits w 9 8 = 3 ∨ bits w 3 0 < 4 ∨ 12 < bits w 3 0), 0x24),
      (ps.isNone, 0x28),
      (pc.isNone || decide (pc ≠ ps) || decide (sq < cq + 32 * d ∧ cq < sq + 64 * d), 0x30) ]

/-- The ring a command of group 0x01 names is 1–63 and not the issuing one. -/
def ringNamed (p : Pkt) : Bool := decide (1 ≤ param p 0 ∧ param p 0 ≤ 63 ∧ param p 0 ≠ ringN p)

/-- Object-state code 1: the ring is busy. -/
def ringBusy (d : Dev) (n : Nat) : Bool :=
  let r := ringOf d n
  (decide (r.st = .active) && (decide (inflight d n ≠ 0) || decide (r.sqHead ≠ r.sqTail))) || decide (r.st = .resetting) ||
  decide (r.st = .stopped)

def specRingConfig : OpSpec :=
  { opBase 0x0101 0xF8 with
    params := fun p _ =>
      (firstBad [(!ringNamed p, 0x20), (decide (bits (param p 1) 30 26 ≠ 0 ∨ bits (param p 1) 15 10 ≠ 0), 0x24)]).or
        ((if bitAt (param p 1) 31 then ringFieldsBad p else none).or (zeroFrom p 6))
    addrs := fun p d =>
      if !bitAt (param p 1) 31 then none
      else if !bitAt (ringClasses d (param p 0)) (bits (param p 1) 7 4) then some (refuse stNotPermitted 2)
      else
        let n := 2 ^ bits (param p 1) 3 0
        if ringGrant d (param p 0) (param64 p 2) (64 * n) false && ringGrant d (param p 0) (param64 p 4) (32 * n) true then none
        else some (refuse stNotPermitted 3)
    object := fun p d => if ringBusy d (param p 0) then some (conflictObj d 0xF8 1) else none }

/-- Ring n starts afresh: pointers 0, PHASE 1. -/
def freshRing (r : Ring) : Ring :=
  { r with sqTail := 0, cqHead := 0, sqHead := 0, cqTail := 0, phase := true, kept := [], link := none, msgDue := false, failing := false,
           filled := 0 }

/-- RING_CONFIG (log 42). -/
def effRingConfig : Nat → Pkt → Dev → Dev :=
  immediate fun p d =>
    let w := param p 1
    let r := { freshRing (ringOf d (param p 0)) with lost := false, lastMsg := none }
    let r' := if bitAt w 31 then
        { r with st := .active, loc := decide (ringPlace (param64 p 2) (64 * 2 ^ bits w 3 0) = some 1), cls := bits w 7 4,
                 log2 := bits w 3 0, sqBase := param64 p 2, cqBase := param64 p 4, modUs := bits w 25 16, intMode := bits w 9 8 }
      else { r with st := .disabled, loc := false, cls := 0, log2 := 0, sqBase := 0, cqBase := 0, modUs := 0, intMode := 0 }
    (ok 0 0 0 0, setRing (param p 0) r' d)

def specRingReset : OpSpec :=
  { opBase 0x0102 0xF8 with
    params := fun p _ => (firstBad [(!ringNamed p, 0x20)]).or (zeroFrom p 1)
    object := fun p d => if (ringOf d (param p 0)).st = .resetting then some (conflictObj d 0xF8 1) else none }

/-- Commands of ring n fetched and not started: waiting for their launch time, or runs that have not started. -/
def unstarted (d : Dev) (n : Nat) : List Nat :=
  (d.cmd.cmds.filter (fun c => decide (c.pkt.ring.val = n) && !c.ringless &&
    (decide (c.phase ≠ .active) || d.pln.runs.any (fun r => decide (r.cmd = c.id) && decide (r.phase = .queued))))).map (·.id)

/-- One of them completes CANCELLED. -/
def cancelUnstarted (d : Dev) (id : Nat) : Dev :=
  match d.pln.runs.find? (fun r => r.cmd = id) with
  | some r => stopRun r (refuse stCancelled 0) d
  | none => complete id (refuse stCancelled 0) d

/-- RING_RESET, steps 1 and 2; a DISABLED ring stays so. Waiting WINDOW_ARM commands of the ring complete CANCELLED
(R359) (log 42, 43). -/
def effRingReset (id : Nat) (p : Pkt) (d : Dev) : Dev :=
  let n := param p 0
  if (ringOf d n).st = .disabled then complete id (ok 0 0 0 0) d
  else
    let ids := unstarted d n
    let arms := (d.adc.arms.filter (fun a => ((findCmd d a.1).map (fun c => decide (c.pkt.ring.val = n))).getD false)).map (·.1)
    let d1 := ids.foldl cancelUnstarted (modRing n (fun r => { r with st := .resetting }) d)
    let d2 := cancelCmds { d1 with adc.arms := d1.adc.arms.filter (fun a => !arms.contains a.1) } arms
    { d2 with cmd.resetting := d2.cmd.resetting ++ [(id, n, ids.length)] }

/-- Steps 4 and 5 of the RING_RESET commands whose ring has no command in flight any more. -/
def finishResets (d : Dev) : Dev :=
  (d.cmd.resetting.filter (fun x => decide (inflight d x.2.1 = 0))).foldl (fun d x =>
    complete x.1 (ok x.2.2 0 0 0)
      (modRing x.2.1 (fun r => { freshRing r with st := .active })
        { d with cmd.resetting := d.cmd.resetting.filter (fun y => y.1 ≠ x.1) })) d

end Sys2Proof.Machine
end

