-- ==== Sys2Proof/Machine/RegWrite.lean ====
section
/-!
DEFINITION. One 32-bit register write at any offset, doorbells, the accesses of the host over PCI Express and SPI, and what an
engine writes through the register mirror (spec/02_command_interface.md R40, R41, R44–R49, R59, R76–R79,
spec/03_registers.md R80–R92).
-/

namespace Sys2Proof.Machine

/-! ### Doorbells (R45–R48) -/

/-- Only the reserved bits of a register take what is written (log 32). -/
def writeRk (o w : Nat) (d : Dev) : Dev :=
  let m := rkMask o
  writePlain o ((regP d o &&& (0xFFFFFFFF - m)) ||| (w &&& m)) d

/-- Kept completions are written while the ring has room (R47). -/
def flushKept (n : Nat) : Nat → Dev → Dev
  | 0, d => d
  | k + 1, d =>
    match (ringOf d n).kept with
    | [] => d
    | c :: cs =>
      if cqFullNow (ringOf d n) then d
      else if (ringOf d n).failing then ringFails n (modRing n (fun r => { r with kept := cs }) d)
      else flushKept n k (writeCpl n c (modRing n (fun r => { r with kept := cs }) d))

/-- A doorbell write is refused (R48) (log 57). -/
def refuseDoorbell (n : Nat) (f : Ring → Ring) (d : Dev) : Dev := bump 1 (4 * n + 3) 1 (modRing n f d)

/-- SQ_TAIL_DOORBELL: RING_n_SQ_TAIL is written (log 33). -/
def sqTailWrite (n w : Nat) (d : Dev) : Dev :=
  let r := ringOf d n
  let v := bits w 11 0
  let d1 := writeRk (Reg.ringSqTail n) w d
  if r.st ≠ .active then refuseDoorbell n (fun r => { r with dbDropped := true }) d1
  else if r.depth ≤ v ∨ r.depth ≤ (r.sqTail + r.depth - r.sqHead) % r.depth + (v + r.depth - r.sqTail) % r.depth then
    refuseDoorbell n (fun r => { r with badDb := true }) d1
  else modRing n (fun r => { r with sqTail := v }) d1

/-- CQ_HEAD_WRITE: RING_n_CQ_HEAD is written (log 33). -/
def cqHeadWrite (n w : Nat) (d : Dev) : Dev :=
  let r := ringOf d n
  let v := bits w 11 0
  let d1 := writeRk (Reg.ringCqHead n) w d
  if r.st ≠ .active then refuseDoorbell n (fun r => { r with dbDropped := true }) d1
  else if r.depth ≤ v ∨ (r.cqTail + r.depth - r.cqHead) % r.depth < (v + r.depth - r.cqHead) % r.depth then
    refuseDoorbell n (fun r => { r with badDb := true }) d1
  else flushKept n (r.kept.length) (modRing n (fun r => { r with cqHead := v }) d1)

/-! ### Base addresses (R40, R92) -/

/-- HOST_BASE_WRITE: SYS_HOST_BASE_LO is written; both halves come into force, unless a ring in host memory is ACTIVE (log 34). -/
def hostBaseWrite (w : Nat) (d : Dev) : Dev :=
  if (List.range 64).any (fun n => decide ((ringOf d n).st = .active) && !(ringOf d n).loc) then badAccess d
  else
    let d1 := writePlain Reg.sysHostBaseLo w d
    setA Reg.sysHostBaseHi (regP d1 Reg.sysHostBaseHi) d1

/-- WIN_BASE_WRITE: SYS_WIN_BASE_LO is written and the window moves (log 34). -/
def winBaseWrite (w : Nat) (d : Dev) : Dev :=
  let d1 := writePlain Reg.sysWinBaseLo w d
  setA Reg.sysWinBaseHi (regP d1 Reg.sysWinBaseHi) d1

/-- An upper half waits for the write of its lower half. -/
def baseHiWrite (o w : Nat) (d : Dev) : Dev := setA o (regA d o) (writePlain o w d)

/-- WIN_BASE (log 34). -/
def winBase (d : Dev) : Nat := fldA d Reg.sysWinBaseHi 15 0 <<< 32 + fldA d Reg.sysWinBaseLo 31 20 <<< 20

/-! ### CFG_UPDATE and CFG_COMMIT (R86, R90) -/

/-- CFG_UPDATE is written (log 35). -/
def updateWrite (w : Nat) (d : Dev) : Dev :=
  let d1 := writeRk Reg.cfgUpdate w d
  if !bitAt w 0 then d1 else if bitAt w 31 then strobeNow d1 else armStrobe d1

/-- CFG_COMMIT is written (log 35). -/
def commitWrite (w : Nat) (d : Dev) : Dev :=
  let d1 := writeRk Reg.cfgCommit w d
  match bits w 1 0 with
  | 1 => commitAtStrobe d1
  | 2 => commitNow d1
  | 3 => captureNext d1
  | _ => d1

/-! ### CAN and RTC registers -/

/-- CAN_n_LOCK is written (R392). -/
def canLockWrite (n w : Nat) (d : Dev) : Dev :=
  if bitAt w 7 then canLock n (bits w 5 0) d else canRelease n (bits w 5 0) d

/-- A register of CAN controller n is written. -/
def canRegWrite (o w : Nat) (d : Dev) : Dev :=
  let n := (canInst o).1
  let x := (canInst o).2
  if x = 0 then (if bitAt w 31 then canBoffWrite n (u32 w) d else writePlain o w d)
  else if 0x400 ≤ x ∧ x < 0x1800 then canBufWrite n x (u32 w) d
  else
    let d1 := writePlain o w d
    if x = 0x1C then canLockWrite n w d1
    else if x = 0x20 ∨ x = 0x24 then canTxreq n ((x - 0x20) / 4) (u32 w) d1
    else if x = 0x28 ∨ x = 0x2C then canTxabort n ((x - 0x28) / 4) (u32 w) d1
    else if x = 0x30 then canPop n (bits w 0 0) d1
    else d1

/-- A write to a register with posted fields; the others follow their own codes (R88). -/
def postedRegWrite (o w : Nat) (d : Dev) : Dev := postWrite o w (writePlain o w d)

/-- A register of the RTC block is written: while the interface is locked only RTC_UNLOCK takes writes (R482). -/
def rtcRegWrite (o w : Nat) (d : Dev) : Dev :=
  if rtcLocked d ∧ o ≠ Reg.rtcUnlock then lockDrop d
  else if postMask o = 0 then writePlain o w d
  else postedRegWrite o w d

/-! ### One aligned 32-bit write (R81, R82) -/

/-- A write to an implemented register. -/
def regStore (o w : Nat) (d : Dev) : Dev :=
  match o / 0x10000 with
  | 0 =>
    if o = Reg.sysHostBaseLo then hostBaseWrite w d
    else if o = Reg.sysWinBaseLo then winBaseWrite w d
    else if o = Reg.sysHostBaseHi ∨ o = Reg.sysWinBaseHi then baseHiWrite o w d
    else writePlain o w d
  | 1 => if o = Reg.cfgUpdate then updateWrite w d else if o = Reg.cfgCommit then commitWrite w d else writePlain o w d
  | 2 =>
    if o % 0x40 = 0 then sqTailWrite (o % 0x10000 / 0x40) w d
    else if o % 0x40 = 4 then cqHeadWrite (o % 0x10000 / 0x40) w d
    else writePlain o w d
  | 8 => loopRegWrite o w d
  | 12 => if o = Reg.adcStart then adcStartReg (bits w 7 0) (writeRk o w d) else writePlain o w d
  | 14 => if postMask o = 0 then canRegWrite o w d else postedRegWrite o w d
  | 15 => if postMask o = 0 then canRegWrite o w d else postedRegWrite o w d
  | 17 =>
    if Reg.timAlarmLo 0 ≤ o ∧ o < Reg.timAlarmLo 4 ∧ o % 8 = 4 then armAlarm ((o - Reg.timAlarmLo 0) / 8) (u32 w) d
    else writePlain o w d
  | 20 => rtcRegWrite o w d
  | 21 => if postMask o = 0 then writePlain o w d else postedRegWrite o w d
  | 26 =>
    if Reg.ioxGpioOut 0 ≤ o ∧ o ≤ Reg.ioxGpioOut 2 then gpioOutWrite ((o - Reg.ioxGpioOut 0) / 4) (u32 w) d else writePlain o w d
  | _ => writePlain o w d

/-- A write at any offset of Base Address Register 0. -/
def regWrite (o w : Nat) (d : Dev) : Dev :=
  if isMsixTable o then msixWrite o (u32 w) d
  else if isMsixPba o then d
  else if o % 4 ≠ 0 ∨ 0x8000 ≤ o % 0x10000 ∨ !offsetImplemented o then badAccess d
  else regStore o (w % 2 ^ 32) d

/-- A read of the host: the data goes back to it. -/
def hostRead (o : Nat) (d : Dev) : Dev :=
  let r := regRead o d
  { r.2 with cmd.lastRead := leBytes 4 r.1 }

/-- The main domain runs: it is not in BACKUP and RESET_N is high, so that a port can reach it. -/
def reachable (d : Dev) : Bool := decide (d.sys.mode ≠ .backup) && !d.sys.resetLow

/-- Nothing reaches a device that is not running. -/
def whenUp (f : Dev → Dev) (d : Dev) : Dev := if reachable d then f d else d

/-- IRREGULAR_REGISTER_ACCESS: a narrow or unaligned access, one to an unimplemented offset, or a write to a peek alias. -/
def irregular (o : Nat) (narrow write : Bool) (d : Dev) : Dev :=
  let far := !isMsixTable o && !isMsixPba o && !offsetImplemented (if 0x8000 ≤ o % 0x10000 then o - 0x8000 else o)
  let alias_ := write && decide (0x8000 ≤ o % 0x10000) && !isMsixTable o && !isMsixPba o
  if narrow || decide (o % 4 ≠ 0) then
    { badAccess d with cmd.lastRead := if write then d.cmd.lastRead else leBytes 4 0xFFFFFFFF }
  else if far || alias_ then { badAccess d with cmd.lastRead := if write then d.cmd.lastRead else leBytes 4 0 }
  else d

/-! ### Base Address Register 2 (R37, R40) -/

/-- Whether the host reaches every byte of a range through the window (log 38). -/
def winReaches (d : Dev) (a len : Nat) (write : Bool) : Bool :=
  decide (a + len ≤ 0x200000000 ∨ (loftBase ≤ a ∧ a + len ≤ loftBase + 0x2000000)) &&
  grantPages d (protLE d 4 4) write (len / 4096 + 2) a (a + len)

/-- A transfer takes place and is charged to class 15 (R30, R31). -/
def bar2Do (q : Bar2Req) (d : Dev) : Dev :=
  charge 15 .beats (beatsAt q.addr q.len)
    (match q.data with
     | some bs => wrBytes q.addr bs d
     | none => { d with cmd.lastRead := rdBytes d q.addr q.len })

/-- A transfer that the window admits: at once, or after those that class 15 holds at its ceiling (R32, R157) (log 38). -/
def bar2Take (q : Bar2Req) (d : Dev) : Dev :=
  if classStops d 15 || !d.cmd.bar2.isEmpty then meetCeil 15 { d with cmd.bar2 := d.cmd.bar2 ++ [q] } else bar2Do q d

/-- Held transfers go on in their order until the class meets a ceiling again (R32) (log 38). -/
def serveBar2 : List Bar2Req → Dev → Dev
  | [], d => { d with cmd.bar2 := [] }
  | q :: qs, d => if classStops d 15 then meetCeil 15 { d with cmd.bar2 := q :: qs } else serveBar2 qs (bar2Do q d)

/-- BAR2_ACCESS: a write of the bytes given, or a read of that many (log 38). -/
def bar2Write (x : Nat) (bs : List Byte) (d : Dev) : Dev :=
  if winReaches d (winBase d + x) bs.length true then bar2Take ⟨winBase d + x, bs.length, some bs⟩ d else badAccess d

def bar2Read (x n : Nat) (d : Dev) : Dev :=
  if winReaches d (winBase d + x) n false then bar2Take ⟨winBase d + x, n, none⟩ d
  else { badAccess d with cmd.lastRead := List.replicate n 0xFF }

/-! ### The SPI port (R76–R79) -/

/-- What an SPI address reaches (R78): memory, or a register. A byte that an access increments past 0xFF_FFFF reaches nothing: the
24-bit address does not wrap (log 131). -/
def spiTarget (a : Nat) : Target :=
  if a < 0x1800 then .key (mailboxBase + a)
  else if 0x2000 ≤ a ∧ a < 0x2040 then .reg (Reg.ringSqTail 0 + (a - 0x2000))
  else if 0x10000 ≤ a ∧ a < 0x20000 then .reg (a - 0x10000)
  else .none

/-- An SPI transaction is counted, and again where it set ERR (R70) (log 57). -/
def spiCount (err : Bool) (d : Dev) : Dev := if err then bump 0 7 1 (bump 0 6 1 d) else bump 0 6 1 d

/-- SPI_WRITE: accepted, or discarded with ERR (R77). A WRITE of no data byte at all is one of those discarded (log 131). -/
def spiWrite (a : Nat) (bs : List Byte) (d : Dev) : Dev :=
  if d.cmd.spiBusy ∨ bs.length < 4 ∨ 256 < bs.length ∨ bs.length % 4 ≠ 0 ∨
      (List.range bs.length).any (fun i => decide (spiTarget (a + i) = .none)) then spiCount true { d with cmd.spiErr := true }
  else spiCount false { d with cmd.spiBusy := true, cmd.spiWrite := some (a, bs) }

/-- Four bytes of a WRITE land (log 39). -/
def spiWord (a : Nat) (bs : List Byte) (d : Dev) : Dev :=
  match spiTarget a with
  | .reg o => if o % 4 = 0 then regWrite o (leNat bs) d else badAccess d
  | _ => (List.range 4).foldl (fun d i =>
      match spiTarget (a + i) with
      | .key k => wrB d k (bs.getD i 0)
      | _ => d) d

/-- SPI_WRITE_LANDS. -/
def spiLands (d : Dev) : Dev :=
  match d.cmd.spiWrite with
  | none => d
  | some (a, bs) =>
    (List.range (bs.length / 4)).foldl (fun d i => spiWord (a + 4 * i) (sliceB bs (4 * i) 4) d)
      { d with cmd.spiBusy := false, cmd.spiWrite := none }

/-- The first m bytes of the word that a READ clocks out at an SPI address: a register read whole at an aligned address, ones
for the bytes of an unaligned one (R81), memory bytes, zeros for unmapped bytes (R77) (log 39). -/
def spiReadWord (a m : Nat) (d : Dev) : List Byte × Dev :=
  let un := (List.range m).any (fun i => decide (spiTarget (a + i) = .none))
  let d1 := { d with cmd.spiErr := d.cmd.spiErr || un }
  let whole := match spiTarget a with
    | .reg o => if o % 4 = 0 then some o else none
    | _ => none
  match whole with
  | some o =>
    let r := regRead o d1
    ((leBytes 4 r.1).take m, r.2)
  | none =>
    let part := (List.range m).any (fun i => match spiTarget (a + i) with
      | .reg _ => true
      | _ => false)
    ((List.range m).map (fun i => match spiTarget (a + i) with
        | .key k => rdB d k
        | .reg _ => 0xFF
        | .none => 0),
      if part then badAccess d1 else d1)

/-- SPI_READ of n bytes, word by word (log 39). -/
def spiReadFrom : Nat → Nat → Nat → List Byte → Dev → Dev
  | 0, _, _, acc, d => { d with cmd.lastRead := acc }
  | k + 1, a, n, acc, d =>
    let r := spiReadWord a (min 4 n) d
    spiReadFrom k (a + 4) (n - 4) (acc ++ r.1) r.2

/-- SPI_READ (log 39). A READ that clocks out no data byte sets no ERR, whatever its address (log 131). -/
def spiRead (a n : Nat) (d : Dev) : Dev :=
  let d1 := spiReadFrom (ceilDiv n 4) a n [] d
  spiCount ((List.range n).any (fun i => decide (spiTarget (a + i) = .none))) d1

/-- SPI_STATUS. -/
def spiStatus (d : Dev) : Dev :=
  spiCount false { d with cmd.lastRead := [u8 (b2n d.cmd.spiBusy + 2 * b2n d.cmd.spiErr + 4 * b2n (irq d))], cmd.spiErr := false }

/-- SPI_UNKNOWN_INSTRUCTION. -/
def spiUnknown (d : Dev) : Dev := spiCount true { d with cmd.spiErr := true }

/-! ### Function Level Reset, transfer failures, moderation (R41, R49, R59) -/

/-- FUNCTION_LEVEL_RESET: the configuration space, the MSI-X table and WIN_BASE at their reset values, rings in host memory
STOPPED (R41) (log 31, 41, 130). -/
def functionReset (d : Dev) : Dev :=
  let d1 := { d with cmd.pcie := PcieCfg.reset, cmd.msix := msixReset, cmd.pba := [] }
  let d2 := setPA Reg.sysWinBaseLo 0 (setPA Reg.sysWinBaseHi 0x10 d1)
  (List.range 63).foldl (fun d i =>
    let r := ringOf d (i + 1)
    if r.st ≠ .disabled ∧ !r.loc then setRing (i + 1) { r with st := .stopped, lost := true } d else d) d2

/-- RING_TRANSFER_FAILURE: a fetch fails now, or the ring's next completion write will (log 40). -/
def transferFailure (n : Nat) (completion : Bool) (d : Dev) : Dev :=
  if (ringOf d n).st = .disabled then d
  else if completion then modRing n (fun r => { r with failing := true }) d
  else if canFetch d n then ringFails n d
  else d

/-- MSIX_MODERATION_EXPIRY: one message covers the completions due. -/
def moderationExpiry (n : Nat) (d : Dev) : Dev :=
  let r := ringOf d n
  if !r.msgDue then d
  else
    let d1 := advanceTo ((r.lastMsg.getD 0) + 1000 * r.modUs) d
    msixSend n (modRing n (fun r => { r with lastMsg := some (now d1), msgDue := false }) d1)

/-! ### The register mirror (R33, R81, R83) -/

/-- What a command wrote to the register mirror, oldest first, performed as register accesses: aligned words, and anything
else irregular (log 37). -/
def mirrorWrites : Nat → List (Nat × Byte) → Dev → Dev
  | 0, _, d => d
  | n + 1, (a, b) :: l, d =>
    let w := (a, b) :: l.take 3
    if a % 4 = 0 ∧ w.map (·.1) = [a, a + 1, a + 2, a + 3] then mirrorWrites n (l.drop 3) (regWrite a (leNat (w.map (·.2))) d)
    else mirrorWrites n l (badAccess d)
  | _ + 1, [], d => d

/-- The end of a command: writes through the mirror act, rings whose RING_RESET can go on do (R72), the write log
becomes memory, and the tables of registers and rings stand in canonical form (log 37, 123). -/
def settle (s : State) (d : Dev) : State :=
  let out := (d.wr.filter (fun w => decide (mirrorOut ≤ w.1))).reverse.map (fun w => (w.1 - mirrorOut, w.2))
  let d1 := mirrorWrites out.length out { d with wr := d.wr.filter (fun w => decide (w.1 < mirrorIn)) }
  let d2 := finishResets d1
  { s with
    dev := { d2 with
      mem := memCommit s.dev.mem (d2.wr.filter (fun w => decide (w.1 < mirrorIn)))
      wr := []
      rg.present := smNorm none d2.rg.present
      rg.applied := smNorm none d2.rg.applied
      cmd.rings := smNorm Ring.reset d2.cmd.rings } }

/-- Offsets of the register words that n bytes at a device address cover in the register mirror, ascending. -/
def mirrorWords (a n : Nat) : List Nat :=
  let lo := max a 0x2000000000 / 4 * 4 - 0x2000000000
  let hi := min (a + n) 0x2002000000 - 0x2000000000
  if n = 0 ∨ a + n ≤ 0x2000000000 ∨ 0x2002000000 ≤ a then [] else (List.range (ceilDiv (hi - lo) 4)).map (fun i => lo + 4 * i)

/-- The words are read one after another: their bytes as they stand in the write log, and the device after the reads (R83). -/
def readWords (os : List Nat) (d : Dev) : List (Nat × Byte) × Dev :=
  os.foldl (fun acc o =>
    let r := regRead o acc.2
    (acc.1 ++ (leBytes 4 r.1).zipIdx.map (fun x => (mirrorIn + o + x.2, x.1)), r.2)) ([], d)

/-- The register words that a command's input buffer covers are read before it runs (log 37). -/
def stageMirror (sp : OpSpec) (p : Pkt) (d : Dev) : Dev :=
  let os := mirrorWords (bufA p) (bufL p)
  if sp.bufUse ≠ .read ∨ os.isEmpty then d else { d with wr := (readWords os d).1 ++ d.wr }

/-- A command that ran on them has read them. -/
def mirrorRead (p : Pkt) (d : Dev) : Dev := (readWords (mirrorWords (bufA p) (bufL p)) d).2

/-- The effect of an opcode, with the reads that its input buffer makes in the register mirror (log 37). -/
def mirrored (sp : OpSpec) (eff : Nat → Pkt → Dev → Dev) (id : Nat) (p : Pkt) (d : Dev) : Dev :=
  if sp.bufUse ≠ .read then eff id p d else eff id p (mirrorRead p d)

/-- An engine reads register words through the mirror: it works on what they held, and they have been read (R83) (log 37). -/
def engineReads (os : List Nat) (d : Dev) : Dev :=
  if os.isEmpty then d
  else
    let x := readWords os d
    { x.2 with wr := x.1 ++ x.2.wr }

/-- A record of a run that ends reads the register words among its operands (R83) (log 37). -/
def stageRecord (code : Nat) (cond : KRec → Bool) (id : Nat) (d : Dev) : Dev :=
  match findRun d id with
  | none => d
  | some r =>
    if recordEnds d r code cond then engineReads (((readSpans d r).flatMap (fun s => mirrorWords s.1 s.2)).dedup) d else d

/-- A kernel's row: a record of a run, with what it reads through the register mirror. -/
def kernelRow (code : Nat) (cond : KRec → Bool) (body : Run → KRec → Dev → Dev × Bool) (id : Nat) (d : Dev) : Dev :=
  runRecord code cond body id (stageRecord code cond id d)

/-- The start of a run, with the warm start that an estimate reads through the register mirror (R245). -/
def runStart (id : Nat) (d : Dev) : Dev :=
  match findRun d id, lsqOf d id with
  | some r, some q =>
    let n := 64 + 8 * (varList (modelOf d r.gen).objs).length
    fabricRunStart id (if canStart d r && bitAt q.lflags 0 then engineReads (mirrorWords (q.buf + q.warmOfs) n) d else d)
  | _, _ => fabricRunStart id d

/-- A packet row (log 1, 129). -/
def packetRow (sp : OpSpec) (eff : Nat → Pkt → Dev → Dev) (p : Pkt) (s : State) : Host.Outcome State Fault Refusal :=
  .next (settle s (runPacket sp (mirrored sp eff) p (stageMirror sp p s.dev)))

/-- A row that changes the device by a function (log 5). -/
def devRow (f : Dev → Dev) (s : State) : Host.Outcome State Fault Refusal := .next (settle s (f s.dev))

/-- A row of the main domain, which does nothing while that domain is not running. -/
def upRow (f : Dev → Dev) (s : State) : Host.Outcome State Fault Refusal := devRow (whenUp f) s

end Sys2Proof.Machine
end

