-- ==== Sys2Proof/Machine/Access.lean ====
section
/-!
DEFINITION. The meanings of commands: Accesses of the host to registers, Base Address Register 2 and the SPI port (spec/02_command_interface.md, 03_registers.md).
-/

namespace Sys2Proof.Machine

/-- A write to a register with posted fields. -/
def postedWrite (o w : Nat) (d : Dev) : Dev := if postMask o = 0 then d else regWrite o w d

/-- A posted write of RTC_UNLOCK lands. -/
def keyLands (d : Dev) : Dev :=
  match posted d 0 with
  | some (p, _) => if p = Reg.rtcUnlock then postLands 0 d else d
  | none => d

/-- An access through Base Address Register 2. -/
def bar2Access (x : Nat) (write : Bool) (len : Nat) (data : List Byte) (d : Dev) : Dev :=
  if write then bar2Write x data d else bar2Read x len d

/-- SQ_TAIL_DOORBELL (R45). -/
def execSqTailDoorbell (n : Fin 64) (w : Word) (s : State) : Host.Outcome State Fault Refusal :=
  upRow (sqTailWrite n.val w.toNat) s

/-- CQ_HEAD_WRITE (R46). -/
def execCqHeadWrite (n : Fin 64) (w : Word) (s : State) : Host.Outcome State Fault Refusal :=
  upRow (cqHeadWrite n.val w.toNat) s

/-- UPDATE_STROBE (R86). -/
def execUpdateStrobe (s : State) : Host.Outcome State Fault Refusal :=
  upRow armStrobe s

/-- UPDATE_STROBE_IMMEDIATE (R86). -/
def execUpdateStrobeImmediate (s : State) : Host.Outcome State Fault Refusal :=
  upRow strobeNow s

/-- COMMIT_AT_STROBE (R90). -/
def execCommitAtStrobe (s : State) : Host.Outcome State Fault Refusal :=
  upRow commitAtStrobe s

/-- COMMIT_NOW (R90). -/
def execCommitNow (s : State) : Host.Outcome State Fault Refusal :=
  upRow commitNow s

/-- CAPTURE_NEXT_PASS (R90). -/
def execCaptureNextPass (s : State) : Host.Outcome State Fault Refusal :=
  upRow captureNext s

/-- WIN_BASE_WRITE (R40). -/
def execWinBaseWrite (w : Word) (s : State) : Host.Outcome State Fault Refusal :=
  upRow (winBaseWrite w.toNat) s

/-- HOST_BASE_WRITE (R92). -/
def execHostBaseWrite (w : Word) (s : State) : Host.Outcome State Fault Refusal :=
  upRow (hostBaseWrite w.toNat) s

/-- RC_CLEARING_READ (R83). -/
def execRcClearingRead (o : Nat) (s : State) : Host.Outcome State Fault Refusal :=
  upRow (hostRead o) s

/-- LATCHING_READ (R323). -/
def execLatchingRead (o : Nat) (s : State) : Host.Outcome State Fault Refusal :=
  upRow (hostRead o) s

/-- POSTED_WRITE (R88). -/
def execPostedWrite (o : Nat) (w : Word) (s : State) : Host.Outcome State Fault Refusal :=
  upRow (postedWrite o w.toNat) s

/-- POSTED_WRITE_LANDS (R88). -/
def execPostedWriteLands (b : Nat) (s : State) : Host.Outcome State Fault Refusal :=
  devRow (postLands b) s

/-- RTC_COMMIT_DATETIME (R477). -/
def execRtcCommitDatetime (s : State) : Host.Outcome State Fault Refusal :=
  devRow (rtcLands Reg.rtcCommit 1) s

/-- RTC_COMMIT_ALARM (R480). -/
def execRtcCommitAlarm (s : State) : Host.Outcome State Fault Refusal :=
  devRow (rtcLands Reg.rtcCommit 6) s

/-- RTC_COMMIT_CTL (R479). -/
def execRtcCommitCtl (s : State) : Host.Outcome State Fault Refusal :=
  devRow (rtcLands Reg.rtcCommit 8) s

/-- RTC_UNLOCK_KEY (R483). -/
def execRtcUnlockKey (s : State) : Host.Outcome State Fault Refusal :=
  devRow keyLands s

/-- CAN_LOCK_BUFFER (R392). -/
def execCanLockBuffer (n : Fin 8) (m : Fin 64) (s : State) : Host.Outcome State Fault Refusal :=
  upRow (canLock n.val m.val) s

/-- CAN_RELEASE_BUFFER (R392). -/
def execCanReleaseBuffer (n : Fin 8) (m : Fin 64) (s : State) : Host.Outcome State Fault Refusal :=
  upRow (canRelease n.val m.val) s

/-- CAN_FIFO_POP (R393). -/
def execCanFifoPop (n : Fin 8) (k : Fin 2) (s : State) : Host.Outcome State Fault Refusal :=
  upRow (canPop n.val k.val) s

/-- CAN_TXREQ_WRITE (R394). -/
def execCanTxreqWrite (n : Fin 8) (k : Fin 2) (mask : Word) (s : State) : Host.Outcome State Fault Refusal :=
  upRow (canTxreq n.val k.val mask) s

/-- CAN_TXABORT_WRITE (R394). -/
def execCanTxabortWrite (n : Fin 8) (k : Fin 2) (mask : Word) (s : State) : Host.Outcome State Fault Refusal :=
  upRow (canTxabort n.val k.val mask) s

/-- CAN_BOFF_RECOVER (R398). -/
def execCanBoffRecover (n : Fin 8) (w : Word) (s : State) : Host.Outcome State Fault Refusal :=
  upRow (canBoffWrite n.val w) s

/-- ADC_START_WRITE (R347). -/
def execAdcStartWrite (mask : Byte) (s : State) : Host.Outcome State Fault Refusal :=
  upRow (adcStartReg mask.toNat) s

/-- TIM_ALARM_ARM (R329). -/
def execTimAlarmArm (n : Fin 4) (w : Word) (s : State) : Host.Outcome State Fault Refusal :=
  upRow (armAlarm n.val w) s

/-- GPIO_OUT_WRITE (R352). -/
def execGpioOutWrite (k : Fin 3) (w : Word) (s : State) : Host.Outcome State Fault Refusal :=
  upRow (gpioOutWrite k.val w) s

/-- REGISTER_WRITE (R82). -/
def execRegisterWrite (o : Nat) (w : Word) (s : State) : Host.Outcome State Fault Refusal :=
  upRow (regWrite o w.toNat) s

/-- IRREGULAR_REGISTER_ACCESS (R81). -/
def execIrregularRegisterAccess (o : Nat) (narrow : Bool) (write : Bool) (s : State) : Host.Outcome State Fault Refusal :=
  upRow (irregular o narrow write) s

/-- BAR2_ACCESS (R40). -/
def execBar2Access (x : Nat) (write : Bool) (len : Nat) (data : List Byte) (s : State) : Host.Outcome State Fault Refusal :=
  upRow (bar2Access x write len data) s

/-- SPI_WRITE (R77). -/
def execSpiWrite (a : Nat) (data : List Byte) (s : State) : Host.Outcome State Fault Refusal :=
  upRow (spiWrite a data) s

/-- SPI_READ (R76). -/
def execSpiRead (a : Nat) (n : Nat) (s : State) : Host.Outcome State Fault Refusal :=
  upRow (spiRead a n) s

/-- SPI_STATUS (R76). -/
def execSpiStatus (s : State) : Host.Outcome State Fault Refusal :=
  upRow spiStatus s

/-- SPI_UNKNOWN_INSTRUCTION (R76). -/
def execSpiUnknownInstruction (s : State) : Host.Outcome State Fault Refusal :=
  upRow spiUnknown s

/-- FUNCTION_LEVEL_RESET (R41). -/
def execFunctionLevelReset (s : State) : Host.Outcome State Fault Refusal :=
  upRow functionReset s

/-- RING_TRANSFER_FAILURE (R49). -/
def execRingTransferFailure (n : Fin 64) (completion : Bool) (s : State) : Host.Outcome State Fault Refusal :=
  upRow (transferFailure n.val completion) s

/-- MSIX_MODERATION_EXPIRY (R59). -/
def execMsixModerationExpiry (n : Fin 64) (s : State) : Host.Outcome State Fault Refusal :=
  upRow (moderationExpiry n.val) s

/-- SPI_WRITE_LANDS (R77). -/
def execSpiWriteLands (s : State) : Host.Outcome State Fault Refusal :=
  upRow spiLands s

end Sys2Proof.Machine
end

