-- ==== Sys2Proof/Machine/CmdControl.lean ====
section
/-!
DEFINITION. The meanings of commands: Loop, logic, ADC and window commands, groups 0x08–0x0A (spec/12, 13, 15).
-/

namespace Sys2Proof.Machine

/-- LOOP_WRITE (R297). -/
def execLoopWrite (p : Pkt) (s : State) : Host.Outcome State Fault Refusal :=
  packetRow specLoopWrite effLoopWrite p s

/-- LOOP_RETUNE (R294). -/
def execLoopRetune (p : Pkt) (s : State) : Host.Outcome State Fault Refusal :=
  packetRow specLoopRetune effLoopRetune p s

/-- LOOP_ENABLE (R297). -/
def execLoopEnable (p : Pkt) (s : State) : Host.Outcome State Fault Refusal :=
  packetRow specLoopEnable effLoopEnable p s

/-- SP_WRITE (R285). -/
def execSpWrite (p : Pkt) (s : State) : Host.Outcome State Fault Refusal :=
  packetRow specSpWrite effSpWrite p s

/-- SP_MAP (R286). -/
def execSpMap (p : Pkt) (s : State) : Host.Outcome State Fault Refusal :=
  packetRow specSpMap effSpMap p s

/-- SP_PUBLISH (R287). -/
def execSpPublish (p : Pkt) (s : State) : Host.Outcome State Fault Refusal :=
  packetRow specSpPublish effSpPublish p s

/-- TRACE_ARM (R296). -/
def execTraceArm (p : Pkt) (s : State) : Host.Outcome State Fault Refusal :=
  packetRow specTraceArm effTraceArm p s

/-- TRACE_READ (R299). -/
def execTraceRead (p : Pkt) (s : State) : Host.Outcome State Fault Refusal :=
  packetRow specTraceRead effTraceRead p s

/-- LOGIC_LOAD (R316). -/
def execLogicLoad (p : Pkt) (s : State) : Host.Outcome State Fault Refusal :=
  packetRow specLogicLoad effLogicLoad p s

/-- LOGIC_WORD_WRITE (R315). -/
def execLogicWordWrite (p : Pkt) (s : State) : Host.Outcome State Fault Refusal :=
  packetRow specLogicWordWrite effLogicWordWrite p s

/-- LOGIC_PATCH (R315). -/
def execLogicPatch (p : Pkt) (s : State) : Host.Outcome State Fault Refusal :=
  packetRow specLogicPatch effLogicPatch p s

/-- LOGIC_VARS_WRITE (R317). -/
def execLogicVarsWrite (p : Pkt) (s : State) : Host.Outcome State Fault Refusal :=
  packetRow specLogicVarsWrite effLogicVarsWrite p s

/-- LOGIC_CLEAR (R317). -/
def execLogicClear (p : Pkt) (s : State) : Host.Outcome State Fault Refusal :=
  packetRow specLogicClear effLogicClear p s

/-- LOGIC_ACK (R314). -/
def execLogicAck (p : Pkt) (s : State) : Host.Outcome State Fault Refusal :=
  packetRow specLogicAck effLogicAck p s

/-- LOGIC_READ (R317). -/
def execLogicRead (p : Pkt) (s : State) : Host.Outcome State Fault Refusal :=
  packetRow specLogicRead effLogicRead p s

/-- ADC_START (R358). -/
def execAdcStart (p : Pkt) (s : State) : Host.Outcome State Fault Refusal :=
  packetRow specAdcStart effAdcStart p s

/-- WINDOW_ARM (R359). -/
def execWindowArm (p : Pkt) (s : State) : Host.Outcome State Fault Refusal :=
  packetRow specWindowArm effWindowArm p s

/-- WINDOW_DISARM (R359). -/
def execWindowDisarm (p : Pkt) (s : State) : Host.Outcome State Fault Refusal :=
  packetRow specWindowDisarm effWindowDisarm p s

end Sys2Proof.Machine
end

