-- ==== Sys2Proof/Machine/CmdMeter.lean ====
section
/-!
DEFINITION. The meanings of commands: Metering and CAN commands, groups 0x0B and 0x0C (spec/16, 17).
-/

namespace Sys2Proof.Machine

/-- MTR_PRESET (R382). -/
def execMtrPreset (p : Pkt) (s : State) : Host.Outcome State Fault Refusal :=
  packetRow specMtrPreset effMtrPreset p s

/-- MTR_HEAT_TABLE (R382). -/
def execMtrHeatTable (p : Pkt) (s : State) : Host.Outcome State Fault Refusal :=
  packetRow specMtrHeatTable effMtrHeatTable p s

/-- MTR_SAVE (R382). -/
def execMtrSave (p : Pkt) (s : State) : Host.Outcome State Fault Refusal :=
  packetRow specMtrSave effMtrSave p s

/-- MTR_EVENT_WAIT (R382). -/
def execMtrEventWait (p : Pkt) (s : State) : Host.Outcome State Fault Refusal :=
  packetRow specMtrEventWait effMtrEventWait p s

/-- MTR_EVENT_READ (R382). -/
def execMtrEventRead (p : Pkt) (s : State) : Host.Outcome State Fault Refusal :=
  packetRow specMtrEventRead effMtrEventRead p s

/-- MTR_EVENT_DISARM (R383). -/
def execMtrEventDisarm (p : Pkt) (s : State) : Host.Outcome State Fault Refusal :=
  packetRow specMtrEventDisarm effMtrEventDisarm p s

/-- CAN_FIELDS (R397). -/
def execCanFields (p : Pkt) (s : State) : Host.Outcome State Fault Refusal :=
  packetRow specCanFields effCanFields p s

/-- CAN_WAIT (R399). -/
def execCanWait (p : Pkt) (s : State) : Host.Outcome State Fault Refusal :=
  packetRow specCanWait effCanWait p s

/-- CAN_DISARM (R399). -/
def execCanDisarm (p : Pkt) (s : State) : Host.Outcome State Fault Refusal :=
  packetRow specCanDisarm effCanDisarm p s

/-- CAN_RECOVER (R398). -/
def execCanRecover (p : Pkt) (s : State) : Host.Outcome State Fault Refusal :=
  packetRow specCanRecover effCanRecover p s

end Sys2Proof.Machine
end

