-- ==== Sys2Proof/Machine/CmdModel.lean ====
section
/-!
DEFINITION. The meanings of commands: Model, plan and placement commands, groups 0x02–0x04 (spec/05, 06, 08).
-/

namespace Sys2Proof.Machine

/-- MODEL_WRITE_OBJECTS (R133). -/
def execModelWriteObjects (p : Pkt) (s : State) : Host.Outcome State Fault Refusal :=
  packetRow specModelWriteObjects effModelWriteObjects p s

/-- MODEL_WRITE_MEAS (R133). -/
def execModelWriteMeas (p : Pkt) (s : State) : Host.Outcome State Fault Refusal :=
  packetRow specModelWriteMeas effModelWriteMeas p s

/-- MODEL_COMMIT (R135). -/
def execModelCommit (p : Pkt) (s : State) : Host.Outcome State Fault Refusal :=
  packetRow specModelCommit effModelCommit p s

/-- MODEL_READ (R133). -/
def execModelRead (p : Pkt) (s : State) : Host.Outcome State Fault Refusal :=
  packetRow specModelRead effModelRead p s

/-- MODEL_DISCARD (R133). -/
def execModelDiscard (p : Pkt) (s : State) : Host.Outcome State Fault Refusal :=
  packetRow specModelDiscard effModelDiscard p s

/-- MEAS_WRITE_VALUES (R134). -/
def execMeasWriteValues (p : Pkt) (s : State) : Host.Outcome State Fault Refusal :=
  packetRow specMeasWriteValues effMeasWriteValues p s

/-- MODEL_SIGNATURE (R133). -/
def execModelSignature (p : Pkt) (s : State) : Host.Outcome State Fault Refusal :=
  packetRow specModelSignature effModelSignature p s

/-- PLAN_LOAD (R154). -/
def execPlanLoad (p : Pkt) (s : State) : Host.Outcome State Fault Refusal :=
  packetRow specPlanLoad effPlanLoad p s

/-- PLAN_UNLOAD (R161). -/
def execPlanUnload (p : Pkt) (s : State) : Host.Outcome State Fault Refusal :=
  packetRow specPlanUnload effPlanUnload p s

/-- PLAN_QUERY (R161). -/
def execPlanQuery (p : Pkt) (s : State) : Host.Outcome State Fault Refusal :=
  packetRow specPlanQuery effPlanQuery p s

/-- PLAN_BOUND (R149). -/
def execPlanBound (p : Pkt) (s : State) : Host.Outcome State Fault Refusal :=
  packetRow specPlanBound effPlanBound p s

/-- PLAN_POLICY (R160). -/
def execPlanPolicy (p : Pkt) (s : State) : Host.Outcome State Fault Refusal :=
  packetRow specPlanPolicy effPlanPolicy p s

/-- PLACE_QUERY (R213). -/
def execPlaceQuery (p : Pkt) (s : State) : Host.Outcome State Fault Refusal :=
  packetRow specPlaceQuery effPlaceQuery p s

/-- PLACE_REBUILD (R212). -/
def execPlaceRebuild (p : Pkt) (s : State) : Host.Outcome State Fault Refusal :=
  packetRow specPlaceRebuild effPlaceRebuild p s

/-- PLACE_PREDICT (R212). -/
def execPlacePredict (p : Pkt) (s : State) : Host.Outcome State Fault Refusal :=
  packetRow specPlacePredict effPlacePredict p s

end Sys2Proof.Machine
end

