-- ==== Sys2Proof/Machine/CmdNet.lean ====
section
/-!
DEFINITION. The meanings of commands: Time, launch and Trellis commands, groups 0x0D and 0x0E (spec/14, 18).
-/

namespace Sys2Proof.Machine

/-- TIME_READ (R343). -/
def execTimeRead (p : Pkt) (s : State) : Host.Outcome State Fault Refusal :=
  packetRow specTimeRead effTimeRead p s

/-- TIME_SET (R329). -/
def execTimeSet (p : Pkt) (s : State) : Host.Outcome State Fault Refusal :=
  packetRow specTimeSet effTimeSet p s

/-- TIME_ACCEPT (R329). -/
def execTimeAccept (p : Pkt) (s : State) : Host.Outcome State Fault Refusal :=
  packetRow specTimeAccept effTimeAccept p s

/-- PTP_STATUS (R343). -/
def execPtpStatus (p : Pkt) (s : State) : Host.Outcome State Fault Refusal :=
  packetRow specPtpStatus effPtpStatus p s

/-- SUBST_WRITE (R335). -/
def execSubstWrite (p : Pkt) (s : State) : Host.Outcome State Fault Refusal :=
  packetRow specSubstWrite effSubstWrite p s

/-- LAUNCH_QUEUE (R344). -/
def execLaunchQueue (p : Pkt) (s : State) : Host.Outcome State Fault Refusal :=
  packetRow specLaunchQueue effLaunchQueue p s

/-- LAUNCH_CANCEL (R344). -/
def execLaunchCancel (p : Pkt) (s : State) : Host.Outcome State Fault Refusal :=
  packetRow specLaunchCancel effLaunchCancel p s

/-- TRL_QUERY (R425). -/
def execTrlQuery (p : Pkt) (s : State) : Host.Outcome State Fault Refusal :=
  packetRow specTrlQuery effTrlQuery p s

/-- RED_FAILOVER (R422). -/
def execRedFailover (p : Pkt) (s : State) : Host.Outcome State Fault Refusal :=
  packetRow specRedFailover effRedFailover p s

/-- RED_REVERT_NOW (R423). -/
def execRedRevertNow (p : Pkt) (s : State) : Host.Outcome State Fault Refusal :=
  packetRow specRedRevertNow effRedRevertNow p s

/-- RED_RESYNC (R418). -/
def execRedResync (p : Pkt) (s : State) : Host.Outcome State Fault Refusal :=
  packetRow specRedResync effRedResync p s

/-- GRN_QUERY (R444). -/
def execGrnQuery (p : Pkt) (s : State) : Host.Outcome State Fault Refusal :=
  packetRow specGrnQuery effGrnQuery p s

end Sys2Proof.Machine
end

