-- ==== Sys2Proof/Machine/CmdPanel.lean ====
section
/-!
DEFINITION. The meanings of commands: Panel, RTC and health commands, groups 0x11 and 0x12 (spec/21, 22).
-/

namespace Sys2Proof.Machine

/-- PAV_FLIP (R467). -/
def execPavFlip (p : Pkt) (s : State) : Host.Outcome State Fault Refusal :=
  packetRow specPavFlip effPavFlip p s

/-- PAV_STRESS_READ (R473). -/
def execPavStressRead (p : Pkt) (s : State) : Host.Outcome State Fault Refusal :=
  packetRow specPavStressRead effPavStressRead p s

/-- PAV_STRESS_PRESET (R473). -/
def execPavStressPreset (p : Pkt) (s : State) : Host.Outcome State Fault Refusal :=
  packetRow specPavStressPreset effPavStressPreset p s

/-- RTC_SET (R490). -/
def execRtcSet (p : Pkt) (s : State) : Host.Outcome State Fault Refusal :=
  packetRow specRtcSet effRtcSet p s

/-- RTC_ALARM (R480). -/
def execRtcAlarm (p : Pkt) (s : State) : Host.Outcome State Fault Refusal :=
  packetRow specRtcAlarm effRtcAlarm p s

/-- RTC_UNLOCK (R483). -/
def execRtcUnlock (p : Pkt) (s : State) : Host.Outcome State Fault Refusal :=
  packetRow specRtcUnlock effRtcUnlock p s

/-- RTC_TRIM (R479). -/
def execRtcTrim (p : Pkt) (s : State) : Host.Outcome State Fault Refusal :=
  packetRow specRtcTrim effRtcTrim p s

/-- HLT_REFRESH (R487). -/
def execHltRefresh (p : Pkt) (s : State) : Host.Outcome State Fault Refusal :=
  packetRow specHltRefresh effHltRefresh p s

/-- HLT_BAT_TEST (R488). -/
def execHltBatTest (p : Pkt) (s : State) : Host.Outcome State Fault Refusal :=
  packetRow specHltBatTest effHltBatTest p s

end Sys2Proof.Machine
end

