-- ==== Sys2Proof/Machine/CmdSolve.lean ====
section
/-!
DEFINITION. The meanings of commands: Solver and run-ahead commands, groups 0x05–0x07 (spec/09, 10, 11).
-/

namespace Sys2Proof.Machine

/-- SHEAF_SUBMIT (R215). -/
def execSheafSubmit (p : Pkt) (s : State) : Host.Outcome State Fault Refusal :=
  packetRow specSheafSubmit effSheafSubmit p s

/-- SHEAF_CANCEL (R232). -/
def execSheafCancel (p : Pkt) (s : State) : Host.Outcome State Fault Refusal :=
  packetRow specSheafCancel effSheafCancel p s

/-- SHEAF_QUERY (R232). -/
def execSheafQuery (p : Pkt) (s : State) : Host.Outcome State Fault Refusal :=
  packetRow specSheafQuery effSheafQuery p s

/-- LSQ_SUBMIT (R235). -/
def execLsqSubmit (p : Pkt) (s : State) : Host.Outcome State Fault Refusal :=
  packetRow specLsqSubmit effLsqSubmit p s

/-- LSQ_CANCEL (R254). -/
def execLsqCancel (p : Pkt) (s : State) : Host.Outcome State Fault Refusal :=
  packetRow specLsqCancel effLsqCancel p s

/-- LSQ_QUERY (R254). -/
def execLsqQuery (p : Pkt) (s : State) : Host.Outcome State Fault Refusal :=
  packetRow specLsqQuery effLsqQuery p s

/-- RA_CONFIG (R259). -/
def execRaConfig (p : Pkt) (s : State) : Host.Outcome State Fault Refusal :=
  packetRow specRaConfig effRaConfig p s

/-- RA_INPUTS (R260). -/
def execRaInputs (p : Pkt) (s : State) : Host.Outcome State Fault Refusal :=
  packetRow specRaInputs effRaInputs p s

/-- RA_FORECAST (R261). -/
def execRaForecast (p : Pkt) (s : State) : Host.Outcome State Fault Refusal :=
  packetRow specRaForecast effRaForecast p s

/-- RA_EXTRAPOLATE (R262). -/
def execRaExtrapolate (p : Pkt) (s : State) : Host.Outcome State Fault Refusal :=
  packetRow specRaExtrapolate effRaExtrapolate p s

/-- RA_SQUASH (R270). -/
def execRaSquash (p : Pkt) (s : State) : Host.Outcome State Fault Refusal :=
  packetRow specRaSquash effRaSquash p s

/-- RA_QUERY (R276). -/
def execRaQuery (p : Pkt) (s : State) : Host.Outcome State Fault Refusal :=
  packetRow specRaQuery effRaQuery p s

end Sys2Proof.Machine
end

