-- ==== Sys2Proof/Machine/CmdStore.lean ====
section
/-!
DEFINITION. The meanings of commands: Granary, recorder and Silo commands, groups 0x0F and 0x10 (spec/19, 20).
-/

namespace Sys2Proof.Machine

/-- GRN_COMPACT (R434). -/
def execGrnCompact (p : Pkt) (s : State) : Host.Outcome State Fault Refusal :=
  packetRow specGrnCompact effGrnCompact p s

/-- GRN_SNAPSHOT (R442). -/
def execGrnSnapshot (p : Pkt) (s : State) : Host.Outcome State Fault Refusal :=
  packetRow specGrnSnapshot effGrnSnapshot p s

/-- GRN_MODEL_RESTORE (R442). -/
def execGrnModelRestore (p : Pkt) (s : State) : Host.Outcome State Fault Refusal :=
  packetRow specGrnModelRestore effGrnModelRestore p s

/-- GRN_FW_WRITE (R443). -/
def execGrnFwWrite (p : Pkt) (s : State) : Host.Outcome State Fault Refusal :=
  packetRow specGrnFwWrite effGrnFwWrite p s

/-- EVR_READ (R442). -/
def execEvrRead (p : Pkt) (s : State) : Host.Outcome State Fault Refusal :=
  packetRow specEvrRead effEvrRead p s

/-- EVR_CLEAR (R440). -/
def execEvrClear (p : Pkt) (s : State) : Host.Outcome State Fault Refusal :=
  packetRow specEvrClear effEvrClear p s

/-- EVR_LOG (R442). -/
def execEvrLog (p : Pkt) (s : State) : Host.Outcome State Fault Refusal :=
  packetRow specEvrLog effEvrLog p s

/-- SEC_GENERATE (R457). -/
def execSecGenerate (p : Pkt) (s : State) : Host.Outcome State Fault Refusal :=
  packetRow specSecGenerate effSecGenerate p s

/-- SEC_IMPORT (R457). -/
def execSecImport (p : Pkt) (s : State) : Host.Outcome State Fault Refusal :=
  packetRow specSecImport effSecImport p s

/-- SEC_EXPORT (R457). -/
def execSecExport (p : Pkt) (s : State) : Host.Outcome State Fault Refusal :=
  packetRow specSecExport effSecExport p s

/-- SEC_DELETE (R457). -/
def execSecDelete (p : Pkt) (s : State) : Host.Outcome State Fault Refusal :=
  packetRow specSecDelete effSecDelete p s

/-- SEC_DERIVE (R452). -/
def execSecDerive (p : Pkt) (s : State) : Host.Outcome State Fault Refusal :=
  packetRow specSecDerive effSecDerive p s

/-- SEC_CIPHER (R458). -/
def execSecCipher (p : Pkt) (s : State) : Host.Outcome State Fault Refusal :=
  packetRow specSecCipher effSecCipher p s

/-- SEC_SIGN (R455). -/
def execSecSign (p : Pkt) (s : State) : Host.Outcome State Fault Refusal :=
  packetRow specSecSign effSecSign p s

/-- SEC_VERIFY (R452). -/
def execSecVerify (p : Pkt) (s : State) : Host.Outcome State Fault Refusal :=
  packetRow specSecVerify effSecVerify p s

/-- SEC_ATTEST (R456). -/
def execSecAttest (p : Pkt) (s : State) : Host.Outcome State Fault Refusal :=
  packetRow specSecAttest effSecAttest p s

/-- SEC_PUBKEY (R457). -/
def execSecPubkey (p : Pkt) (s : State) : Host.Outcome State Fault Refusal :=
  packetRow specSecPubkey effSecPubkey p s

/-- SEC_RANDOM (R457). -/
def execSecRandom (p : Pkt) (s : State) : Host.Outcome State Fault Refusal :=
  packetRow specSecRandom effSecRandom p s

/-- PAV_DRAW (R473). -/
def execPavDraw (p : Pkt) (s : State) : Host.Outcome State Fault Refusal :=
  packetRow specPavDraw effPavDraw p s

end Sys2Proof.Machine
end

