-- ==== Sys2Proof/Machine/CmdSystem.lean ====
section
/-!
DEFINITION. The meanings of commands: System and ring commands, groups 0x00 and 0x01 (spec/02_command_interface.md, 04_modes_boot_recovery.md).
-/

namespace Sys2Proof.Machine

/-- IDENTIFY (R68). -/
def execIdentify (p : Pkt) (s : State) : Host.Outcome State Fault Refusal :=
  packetRow specIdentify effIdentify p s

/-- GET_MODE (R66). -/
def execGetMode (p : Pkt) (s : State) : Host.Outcome State Fault Refusal :=
  packetRow specGetMode effGetMode p s

/-- SET_MODE (R97). -/
def execSetMode (p : Pkt) (s : State) : Host.Outcome State Fault Refusal :=
  packetRow specSetMode effSetMode p s

/-- READ_STATE (R115). -/
def execReadState (p : Pkt) (s : State) : Host.Outcome State Fault Refusal :=
  packetRow specReadState effReadState p s

/-- FENCE (R69). -/
def execFence (p : Pkt) (s : State) : Host.Outcome State Fault Refusal :=
  packetRow specFence effFence p s

/-- ECHO (R66). -/
def execEcho (p : Pkt) (s : State) : Host.Outcome State Fault Refusal :=
  packetRow specEcho effEcho p s

/-- GET_COUNTERS (R70). -/
def execGetCounters (p : Pkt) (s : State) : Host.Outcome State Fault Refusal :=
  packetRow specGetCounters effGetCounters p s

/-- SET_FRAME (R20). -/
def execSetFrame (p : Pkt) (s : State) : Host.Outcome State Fault Refusal :=
  packetRow specSetFrame effSetFrame p s

/-- RING_CONFIG (R71). -/
def execRingConfig (p : Pkt) (s : State) : Host.Outcome State Fault Refusal :=
  packetRow specRingConfig effRingConfig p s

/-- RING_RESET (R72). -/
def execRingReset (p : Pkt) (s : State) : Host.Outcome State Fault Refusal :=
  packetRow specRingReset effRingReset p s

/-- CLASS_BUDGET (R161). -/
def execClassBudget (p : Pkt) (s : State) : Host.Outcome State Fault Refusal :=
  packetRow specClassBudget effClassBudget p s

/-- CLASS_QUERY (R164). -/
def execClassQuery (p : Pkt) (s : State) : Host.Outcome State Fault Refusal :=
  packetRow specClassQuery effClassQuery p s

end Sys2Proof.Machine
end

