-- ==== Sys2Proof/Machine/Field.lean ====
section
/-!
DEFINITION. The meanings of commands: Loops, logic, launches, measurement, metering and CAN events (spec/12–17).
-/

namespace Sys2Proof.Machine

/-- LOGIC_SCAN_START (R309). -/
def execLogicScanStart (dur : Nat) (s : State) : Host.Outcome State Fault Refusal :=
  devRow (scanStart dur) s

/-- LOGIC_SCAN_RESUME (R311). -/
def execLogicScanResume (dur : Nat) (s : State) : Host.Outcome State Fault Refusal :=
  devRow (scanResume dur) s

/-- LOGIC_SCAN_OVERRUN (R313). -/
def execLogicScanOverrun (s : State) : Host.Outcome State Fault Refusal :=
  devRow scanOverrun s

/-- LOOP_SAMPLE (R288). -/
def execLoopSample (s : State) : Host.Outcome State Fault Refusal :=
  devRow loopSample s

/-- LAUNCH_FIRE (R340). -/
def execLaunchFire (s : State) : Host.Outcome State Fault Refusal :=
  devRow launchFire s

/-- SETPOINT_REPEAT_SEND (R338). -/
def execSetpointRepeatSend (s : State) : Host.Outcome State Fault Refusal :=
  devRow setpointRepeat s

/-- PWM_PERIOD_START (R353). -/
def execPwmPeriodStart (n : Fin 16) (s : State) : Host.Outcome State Fault Refusal :=
  devRow (pwmPeriodStart n.val) s

/-- PULSE_OUTPUT_PULSE (R355). -/
def execPulseOutputPulse (n : Fin 8) (s : State) : Host.Outcome State Fault Refusal :=
  devRow (pulseOutput n.val) s

/-- PULSE_INPUT_EDGE (R356). -/
def execPulseInputEdge (n : Fin 16) (rising : Bool) (s : State) : Host.Outcome State Fault Refusal :=
  devRow (pulseEdge n.val rising) s

/-- HOLD_N_CHANGE (R352). -/
def execHoldNChange (ext : Bool) (sense : Bool) (s : State) : Host.Outcome State Fault Refusal :=
  devRow (holdChange ext sense) s

/-- ADC_TRIGGER_TIMER (R347). -/
def execAdcTriggerTimer (n : Fin 8) (s : State) : Host.Outcome State Fault Refusal :=
  devRow (adcTimer n.val) s

/-- ADC_SEQUENCE_REQUEST (R348). -/
def execAdcSequenceRequest (s : State) : Host.Outcome State Fault Refusal :=
  devRow adcRequests s

/-- ADC_CONVERSION_COMPLETE (R349). -/
def execAdcConversionComplete (c : Fin 2) (vin : Int) (vref : Nat) (refOk : Bool) (s : State) : Host.Outcome State Fault Refusal :=
  devRow (adcComplete c.val vin vref refOk) s

/-- MTR_SAMPLE (R362). -/
def execMtrSample (codes : List Int) (s : State) : Host.Outcome State Fault Refusal :=
  devRow (meterSample codes) s

/-- PSEUDO_CYCLE (R364). -/
def execPseudoCycle (n : Fin 3) (s : State) : Host.Outcome State Fault Refusal :=
  devRow (pseudoCycle n.val) s

/-- ZERO_CROSSING_LOSS (R375). -/
def execZeroCrossingLoss (n : Fin 3) (s : State) : Host.Outcome State Fault Refusal :=
  devRow (zxLoss n.val) s

/-- MTR_TEMP_READ (R367). -/
def execMtrTempRead (temp : Int) (s : State) : Host.Outcome State Fault Refusal :=
  devRow (meterTemp temp) s

/-- HEAT_CIRCUIT_COMPUTE (R373). -/
def execHeatCircuitCompute (c : Nat) (s : State) : Host.Outcome State Fault Refusal :=
  devRow (heatCompute c) s

/-- PERIODIC_SAVE (R379). -/
def execPeriodicSave (s : State) : Host.Outcome State Fault Refusal :=
  devRow periodicSave s

/-- METERING_PULSE_DUE (R377). -/
def execMeteringPulseDue (n : Nat) (s : State) : Host.Outcome State Fault Refusal :=
  devRow (pulseDue n) s

/-- CAN_FRAME_RECEIVED (R391). -/
def execCanFrameReceived (n : Fin 8) (id : Nat) (format : Nat) (data : List Byte) (dur : Nat) (lec : Nat) (eights : Nat) (s : State) : Host.Outcome State Fault Refusal :=
  devRow (canReceived n.val id format data dur lec eights) s

/-- CAN_FRAME_TRANSMITTED (R394). -/
def execCanFrameTransmitted (n : Fin 8) (dur : Nat) (lec : Nat) (exempt : Bool) (eights : Nat) (tdcv : Nat) (s : State) : Host.Outcome State Fault Refusal :=
  devRow (canTransmitted n.val dur lec exempt eights tdcv) s

/-- CAN_RECOVERY_COMPLETE (R398). -/
def execCanRecoveryComplete (n : Fin 8) (s : State) : Host.Outcome State Fault Refusal :=
  devRow (canRecovered n.val) s

/-- CAN_TIMING_TAKEUP (R389). -/
def execCanTimingTakeup (n : Fin 8) (s : State) : Host.Outcome State Fault Refusal :=
  devRow (canTakeup n.val) s

/-- CAN_BUS_INTEGRATION (R389). -/
def execCanBusIntegration (n : Fin 8) (s : State) : Host.Outcome State Fault Refusal :=
  devRow (canIntegrated n.val) s

end Sys2Proof.Machine
end

