-- ==== Sys2Proof/Machine/Boot.lean ====
section
/-!
DEFINITION. Resets, the boot ROM and the first start, the supplies and the reference
(spec/01_architecture.md R16, R17, spec/04_modes_boot_recovery.md R96, R99, R100, R106–R113,
spec/18_trellis_redundancy.md R405, spec/19_granary_recorder.md R433, R436, spec/20_silo_security.md R449–R454,
spec/23_electrical_package.md R497, R499).
-/

namespace Sys2Proof.Machine

/-! ### What a reset leaves (R96, R106) -/

/-- Entries of the register tables that stand in the always-on domain: the RTC block but for RTC_PSTAT. -/
def alwaysOnRegs (m : SMap (Option Word)) : SMap (Option Word) :=
  m.filter (fun kv => isRtcReg kv.1 && decide (kv.1 ≠ Reg.rtcPstat))

/-- The Granary as its memories keep it through a reset. -/
def granaryKept (g : GranSt) : GranSt :=
  { GranSt.reset with
    formatted := g.formatted, recs := g.recs, nextSeq := g.nextSeq, nextPos := g.nextPos, items := g.items,
    ckA := g.ckA, ckB := g.ckB, fwA := g.fwA, fwB := g.fwB, fwWrites := g.fwWrites, erase := g.erase,
    mramWrites := g.mramWrites, retired := g.retired, evr := g.evr, evFull := g.evFull }

/-- The Silo: the sealed root, the root shares of the always-on domain, which slots had expired, and the leaf indices
whose record committed and whose signature was not released (log 55). -/
def siloKept (x : SiloSt) : SiloSt :=
  { SiloSt.reset with
    sealedRoot := x.sealedRoot, rootShare0 := x.rootShare0, rootShare1 := x.rootShare1, drbg := x.drbg, noise := x.noise,
    noiseFlag := x.noiseFlag, lost := x.lost + (x.signq.filter (·.committed)).length,
    expired := if x.slots.isEmpty then x.expired else (x.slots.filter (fun kv => kv.2.state = .expired)).map (·.1) }

/-- The stores of the command so far with every byte of the unit's own memory cleared; host memory and foreign windows
stay (log 67). -/
def wiped (d : Dev) : List (Nat × Byte) :=
  ((d.mem.map (·.1) ++ d.wr.map (·.1)).filter (fun a => decide (a < 0x8000000000))).map (fun a => (a, (0 : Byte))) ++
  d.wr.filter (fun w => decide (0x8000000000 ≤ w.1 ∧ w.1 < mirrorIn))

/-- Everything volatile at its reset value, in a mode; what stands outside the main domain is kept (log 24, 66, 67). -/
def cleared (mode : Mode) (low : Bool) (d : Dev) : Dev :=
  { Dev.reset with
    sys := { SysSt.reset with
      mode := mode, resetLow := low, pfail := d.sys.pfail, refPresent := d.sys.refPresent, refSel := d.sys.refSel,
      bootSel := d.sys.bootSel, rollback := d.sys.rollback, nor := d.sys.nor }
    rg := { RegSt.reset with
      present := alwaysOnRegs d.rg.present, applied := alwaysOnRegs d.rg.applied, landed := alwaysOnRegs d.rg.landed }
    mem := d.mem
    wr := wiped d
    grn := granaryKept d.grn
    sec := siloKept d.sec
    trl := { TrlSt.reset with enumInLow := d.trl.enumInLow }
    iox := { IoxSt.reset with piLevel := d.iox.piLevel, gpioIn := d.iox.gpioIn, holdExt := d.iox.holdExt, sense := d.iox.sense }
    rtc := { d.rtc with key := none, commit := none, sets := [] } }

/-- A reset of the main domain with its cause bit; a mode change into BOOT is recorded and raises vector 65 (R103)
(log 23, 24, 65, 66). -/
def resetDev (cause : Nat) (low : Bool) (d : Dev) : Dev :=
  let d1 := cleared .boot low d
  let d2 := setF Reg.sysBootStat 1 1 (b2n d.sys.bootSel) (setF Reg.sysRefStat 1 1 (b2n d.sys.refSel) (setP Reg.sysResetCause cause d1))
  if d.sys.mode = .boot then d2 else modeChanged d.sys.mode .boot cause (now d) d2

/-- POWER_ON_RESET: the main rails have risen; BOOT begins at the release of RESET_N (R497) (log 65). -/
def powerOn (d : Dev) : Dev :=
  if d.sys.mode ≠ .backup then d else resetDev 1 true { d with sys.pfail := false }

/-- MAIN_SUPPLY_LOSS: the device enters BACKUP, which is a mode change as any other (R103) (log 23, 24). -/
def supplyLoss (d : Dev) : Dev :=
  if d.sys.mode = .backup then d
  else modeChanged d.sys.mode .backup 0 (now d) (cleared .backup d.sys.resetLow d)

/-- RESET_N_ASSERT. -/
def resetAssert (d : Dev) : Dev :=
  if d.sys.resetLow then d
  else if d.sys.mode = .backup then { d with sys.resetLow := true }
  else resetDev 2 true d

/-! ### The boot ROM (R107–R113) -/

/-- SYS_BOOT_STAT.STAGE. -/
def stage (n : Nat) (d : Dev) : Dev := setF Reg.sysBootStat 23 16 n d
/-- SYS_BOOT_STAT.ERR; the device stays as it is until the next reset (R108) (log 69). -/
def bootError (n : Nat) (d : Dev) : Dev := setF Reg.sysBootStat 15 8 n d

/-- The failure code of a check of R109 (log 69). -/
def checkErr : Nat → Nat
  | 1 => 0x06 | 2 => 0x07 | 3 => 0x08 | 6 => 0x09 | _ => 0x0A

/-- The places where the boot ROM looks for firmware, in order: source, slot, contents (R109). -/
def bootPlaces (d : Dev) : List (Nat × Nat × List Byte) :=
  let nor := [(1, 0, d.sys.nor.take 0x800000), (1, 1, (d.sys.nor.drop 0x800000).take 0x800000)]
  let grn := [(2, 0, d.grn.fwA), (2, 1, d.grn.fwB)]
  if d.sys.bootSel then grn ++ nor else nor ++ grn

/-- Step 6: the first image that passes; ERR keeps the first check that failed (log 69). -/
def findImage : List (Nat × Nat × List Byte) → Dev → Option (List Byte) × Dev
  | [], d => (none, d)
  | (src, slot, b) :: l, d =>
    match fwFault d.sys.rollback b with
    | none => (some b, setF Reg.sysBootStat 4 4 slot (setF Reg.sysBootStat 3 2 src d))
    | some k => findImage l (if fld d Reg.sysBootStat 15 8 = 0 then bootError (checkErr k) d else d)

/-- Step 7: the Protection Table is taken from the image and locked. -/
def takeImage (b : List Byte) (d : Dev) : Dev :=
  setF Reg.sysBootStat 31 31 1
    { d with sys.prot := smPutList 0 [] 0 (sliceB b 0x1000 2048), sys.fwVersion := fieldLE b 8 4, sys.secVersion := fieldLE b 0xC 4,
             sys.fwBody := sliceB b 0x20 32 }

/-! ### The first start (R112, R449, R454) -/

/-- The ASCII labels of the attestation key. -/
def labelAtt : List Byte := [0x49, 0x53, 0x56, 0x2D, 0x41, 0x54, 0x54, 0x2D]
def labelAttI : List Byte := labelAtt ++ [0x49]
def labelAttSeed : List Byte := labelAtt ++ [0x53, 0x45, 0x45, 0x44]

/-- Slots 0 and 1 as the root gives them (R446, R449, R454). -/
def deviceSlots (root : Nat) (d : Dev) : Dev :=
  let r := leBytes 32 root
  let seed := leNat (kdf r labelAttSeed 32)
  let ident := leNat (kdf r labelAttI 16)
  let s0 : Slot := { Slot.none with attr := 0x50000020, state := .ready }
  let s1 : Slot := { Slot.none with attr := 0x30000008, state := .ready, share0 := BitVec.ofNat 512 (seed + ident <<< 256), height := 15 }
  putSlot 1 s1 (setSlot 0 s0 d)

/-- The root enters the masking engine as two shares under a fresh mask. -/
def holdRoot (root : Nat) (d : Dev) : Dev :=
  let r := drbgDraw d
  let m : BitVec 512 := BitVec.ofNat 512 (r.1 % 2 ^ 256)
  { r.2 with sec.rootShare0 := BitVec.ofNat 512 root ^^^ m, sec.rootShare1 := m, sec.rootOk := true }

/-- The Granary is formatted: an empty journal and recorder, a checkpoint of generation 0, and the superblock last (log 30). -/
def format (d : Dev) : Dev :=
  let bs := poolBlocks d (Config.ckptBlocks 0).toNat []
  let g := granaryKept d.grn
  let d1 := eraseBlocks bs { d with grn := { GranSt.reset with
    fwA := g.fwA, fwB := g.fwB, fwWrites := g.fwWrites, erase := g.erase, retired := g.retired, formatted := true
    ckA := some ⟨0, 0, 0, true, [], 0, bs⟩
    mramWrites := smSet 0 g.mramWrites 0 (smGet 0 g.mramWrites 0 + 0x10000) } }
  setF Reg.sysBootStat 7 7 1 d1

/-- PROVISION; none where the entropy source fails (log 30). -/
def provision (e : BootEnv) (d : Dev) : Option Dev :=
  if !e.entropyOk then none
  else
    let r := drbgDraw { d with sec := { siloKept d.sec with expired := [], lost := 0 } }
    let root := r.1 % 2 ^ 256
    let d1 := deviceSlots root (holdRoot root { r.2 with sec.sealedRoot := some (BitVec.ofNat 256 root) })
    some (format d1)

/-! ### Recovery (R436, R450, R451) -/

/-- Checkpoints as the mount finds them (log 70). -/
def mountCkpts (e : BootEnv) (d : Dev) : Dev :=
  { d with grn.ckA := d.grn.ckA.map (fun c => { c with valid := c.valid && !e.lostA }),
           grn.ckB := d.grn.ckB.map (fun c => { c with valid := c.valid && !e.lostB }) }

/-- The items that a checkpoint and the records after it give. -/
def replay (c : Ckpt) (recs : List JRec) : Persist :=
  recs.foldl (fun m r => if c.sc < r.seq ∧ 2 ≤ r.type ∧ r.data ≠ [] then smSet [] m (itemKey r.type r.key) r.data else m) c.items

/-- The items of one TYPE by key (log 96). -/
def itemsOf (items : Persist) (type : Nat) : SMap (List Nat) :=
  (items.filter (fun kv => kv.1 / 0x100000 = type)).map (fun kv => (kv.1 % 0x100000, kv.2))

/-- Slots 2–255 from their records, a COMPAT slot with its check (R450); a wrap that does not unwrap gives FAILED (log 71). -/
def restoreSlots (e : BootEnv) (items : Persist) (d : Dev) : Dev :=
  (itemsOf items 3).foldl (fun d kv =>
    let x := slotOfData kv.2
    if x.state = .empty then d
    else
      let y : Slot := { x with state := if e.badSlots.contains kv.1 then .failed
                                        else if d.sec.expired.contains kv.1 then .expired else x.state }
      let d1 := putSlot kv.1 y d
      if attrCompat y.attr && !compatOk y then failCompat kv.1 d1 else d1) d

/-- Leaf indices of LMS slots (log 55). -/
def restoreIndices (items : Persist) (d : Dev) : Dev :=
  (itemsOf items 4).foldl (fun d kv =>
    if (slotOf d kv.1).state = .empty then d else setSlot kv.1 { slotOf d kv.1 with next := kv.2.getD 1 0 } d) d

/-- A cluster that an earlier test retired; a spare takes its number (R189) (log 72). -/
def restoreCluster (d : Dev) (kv : Nat × List Nat) : Dev :=
  let c := clusterOf d kv.1
  if kv.2.getD 1 0 = 0 then setCluster kv.1 { c with kaFails := kv.2.getD 0 0 } d
  else
    let d1 := setCluster kv.1 { c with state := 2, logical := 0x3F, kaFails := kv.2.getD 0 0 } d
    if c.state ≠ 0 then d1
    else match (List.range 34).find? (fun i => decide ((clusterOf d1 i).state = 1)) with
      | some s => setCluster s { clusterOf d1 s with state := 0, logical := c.logical } d1
      | none => renumber d1

/-- What the owners of the other items restore. -/
def restoreOwners (items : Persist) (d : Dev) : Dev :=
  let rec_ := smGet [] items (itemKey 13 0)
  let pol := smGet [] items (itemKey 10 0)
  let str := smGet [] items (itemKey 11 0)
  let d1 := setP Reg.evrClears (rec_.getD 1 0) (setP Reg.evrLost (rec_.getD 0 0) d)
  let d2 := if pol = [] then d1 else
    { d1 with pln.requireSigned := pol.getD 0 0 = 1, pln.lock := pol.getD 1 0 = 1, pln.policySlot := pol.getD 2 0 }
  let d3 := (itemsOf items 9).foldl restoreCluster { d2 with pav.stress := itemStress (str.length / 2) str }
  healthRestore items (meterRestore (itemsOf items 2) d3)

/-- Journal recovery of step 8; none where no valid checkpoint is found (log 55, 70, 72). -/
def recover (e : BootEnv) (d : Dev) : Option Dev :=
  let d0 := mountCkpts e d
  match newestCkpt d0.grn with
  | none => none
  | some c =>
    let newer (x : Option Ckpt) : Bool := match x with
      | some y => !y.valid && decide (c.gen < y.gen)
      | none => false
    let back := newer d0.grn.ckA || newer d0.grn.ckB
    let items := replay c d0.grn.recs
    let d1 := { d0 with grn.items := items, grn.fallback := back }
    let root := (d1.sec.sealedRoot.getD 0).toNat
    let d2 := restoreIndices items (restoreSlots e items (deviceSlots root (holdRoot root d1)))
    let d3 := setF Reg.grnMedia 31 16 d2.grn.retired.length (addF Reg.grnMedia 15 0 e.badPages (bump 0xF 7 e.badPages (restoreOwners items d2)))
    let d4 := if back then bump 0xF 4 1 (event 0x0F 3 [c.gen] (raiseVec 69 d3)) else d3
    let d5 := if d4.sec.noiseFlag then event 0x10 3 [] { d4 with sec.noiseFlag := false } else d4
    let d6 := bump 0x10 6 d5.sec.lost { d5 with sec.requests := 0, sec.expired := [], sec.lost := 0 }
    some (siloSecond (rtcStart (if e.entropyOk then d6 else entropyFailure d6)))

/-! ### Steps 9 and 10 -/

/-- The fabric self-test, replacement of clusters that fail, the governor; then the sequencer starts. While PFAIL_N is
latched the self-test waits (R100) (log 27). -/
def bootFabric (e : BootEnv) (d : Dev) : Dev :=
  let d0 := stage 0x0A d
  if d0.sys.pfail then { d0 with sys.bootPaused := true }
  else
    let d1 := (List.range 34).foldl (fun d k =>
      let t := e.tests.getD k (true, 255)
      testResult k t.2 t.1 d) { d0 with sys.bootPaused := false }
    let d2 := substituteAll d1
    let d3 := applyGroups (1 <<< groupOf d2 Reg.thrCtl) (setF Reg.thrCtl 0 0 1 d2)
    { stage 0x0F (passTicks e.ticks d3) with sys.seqOn := true }

/-- Step 8 and what follows (log 73). -/
def bootFirmware (e : BootEnv) (d : Dev) : Dev :=
  if !d.grn.formatted then
    let d1 := enterMode .provision 0 (stage 0x08 d)
    match provision e d1 with
    | none => bootError 0x0B d1
    | some d2 => bootFabric e d2
  else
    let d1 := stage 0x09 d
    if !e.sealOk then bootError 0x05 d1
    else match recover e d1 with
      | none => bootError 0x05 d1
      | some d2 => bootFabric e d2

/-- The boot ROM, from step 1 (log 27, 28, 29, 68). -/
def boot (e : BootEnv) (d : Dev) : Dev :=
  let d0 := enumFollow (if e.enumLow then setF Reg.trlStat 4 0 1 d else d)
  let d1 := { d0 with trl.enumInLow := e.enumLow, sys.refPresent := e.refOk, sys.nor := e.nor.getD d0.sys.nor }
  if !e.refOk then bootError 1 (stage 1 (setF Reg.sysRefStat 0 0 1 d1))
  else if !e.avsAck then bootError 2 (stage 2 d1)
  else if !e.selfOk then bootError 3 (stage 3 d1)
  else if !e.dramOk then bootError 4 (stage 4 d1)
  else if !e.granaryOk then bootError 5 (stage 5 d1)
  else
    let d2 := stage 6 (setF Reg.sysBootStat 7 7 (b2n d1.grn.formatted) d1)
    match findImage (bootPlaces d2) d2 with
    | (none, d3) => d3
    | (some b, d3) => bootFirmware e (takeImage b (stage 7 d3))

/-- RESET_N_RELEASE: the straps are sampled and the boot ROM runs; in BACKUP only the pin changes. -/
def resetRelease (e : BootEnv) (d : Dev) : Dev :=
  if !d.sys.resetLow then d
  else if d.sys.mode = .backup then { d with sys.resetLow := false }
  else
    let d1 := { d with sys.resetLow := false, sys.refSel := e.refSel, sys.bootSel := e.bootSel }
    boot e (setF Reg.sysBootStat 1 1 (b2n e.bootSel) (setF Reg.sysRefStat 1 1 (b2n e.refSel) d1))

/-- LOCKSTEP_DIVERGENCE and WATCHDOG_EXPIRY: a reset that samples no strap (R111) (log 74). -/
def internalReset (cause : Nat) (e : BootEnv) (d : Dev) : Dev :=
  if d.sys.mode = .backup ∨ d.sys.resetLow then d else boot e (resetDev cause false d)

/-! ### PFAIL_N (R99, R100, R433) and the reference (R17) -/

/-- The firmware runs. -/
def firmwareRuns (d : Dev) : Bool := decide (2 ≤ d.sys.mode.code) || d.sys.seqOn || d.sys.bootPaused

/-- PFAIL_N_LATCH. -/
def pfailLatch (d : Dev) : Dev :=
  if d.sys.mode = .backup ∨ d.sys.resetLow ∨ d.sys.pfail then d
  else
    let d1 := raiseVec 68 { d with sys.pfail := true }
    let shed := d1.pln.runs.any (fun r => decide (r.phase ≠ .queued) && [3, 4, 5, 13].contains r.cls)
    let d2 := holdCause 4 (shedLoad d1)
    let d3 := if d2.sys.mode = .standby ∧ shed then setSynced false d2 else d2
    if firmwareRuns d3 then pfailCommit d3 else d3

/-- PFAIL_N_RELEASE without a reset: appends and metering resume, a standby that shed a run asks for an image, a boot that
waited at its self-test goes on (log 27). -/
def pfailRelease (e : BootEnv) (d : Dev) : Dev :=
  if !d.sys.pfail then d
  else if d.sys.mode = .backup ∨ d.sys.resetLow then { d with sys.pfail := false }
  else
    let d1 := meterResume (granaryResume { d with sys.pfail := false })
    let d2 := if actingStandby d1 && !synced d1 && !d1.trl.imageReq then requestImage d1 else d1
    if d2.sys.bootPaused then bootFabric e d2 else d2

/-- REFERENCE_LOSS. -/
def referenceLoss (d : Dev) : Dev :=
  if !d.sys.refPresent ∨ d.sys.mode = .backup ∨ d.sys.resetLow then d
  else raiseVec 69 (orP Reg.sysRefStat 5 { d with sys.refPresent := false })

/-- REFERENCE_RELOCK. -/
def referenceRelock (d : Dev) : Dev :=
  if d.sys.refPresent ∨ d.sys.mode = .backup ∨ d.sys.resetLow then d
  else setF Reg.sysRefStat 0 0 0 { d with sys.refPresent := true }

end Sys2Proof.Machine
end

