-- ==== Sys2Proof/Machine/Frame.lean ====
section
/-!
DEFINITION. The frame boundary (spec/01_architecture.md R18–R29): what happens on its tick, in order.
-/

namespace Sys2Proof.Machine

/-! ### The sequencer (R18–R22, R29) -/

/-- The multiple of L that the next boundary stands for; time passes to it unless it has been reached (log 128). -/
def nextMultiple (d : Dev) : Nat :=
  match d.sys.lastBoundary with
  | none => roundUp (now d) d.sys.frameLen
  | some b => b + d.sys.frameLen

/-- A pending frame length takes effect at the boundary t or at one passed over; the frame plan is withdrawn and run-ahead
ends (R20, R152, R259). -/
def takeLength (t : Nat) (d : Dev) : Dev :=
  match d.sys.frameNew with
  | some f => if t < f.effect then d else raDisable (withdrawPlan { d with sys.frameLen := f.len, sys.frameNew := none })
  | none => d

/-- The multiple reached and the boundaries passed since the last one, with a length change on the way. -/
def reached (d : Dev) : Nat × Nat :=
  let l := d.sys.frameLen
  let first := nextMultiple d
  let plain : Nat × Nat := (now d / l * l, (now d / l * l - first) / l + 1)
  match d.sys.frameNew with
  | some f =>
    if now d < f.effect then plain
    else (now d / f.len * f.len, (f.effect - first) / l + 1 + (now d / f.len * f.len - f.effect) / f.len)
  | none => plain

/-- The boundary fires: one, whatever was passed over (R22) (log 21, 128). -/
def fireBoundary (d : Dev) : Dev :=
  let d1 := advanceTo (nextMultiple d) d
  let r := reached d1
  let d2 := takeLength r.1 { d1 with sys.lastBoundary := some r.1, adc.timerLast := [] }
  addF Reg.sysFrameSlip 31 0 (r.2 - 1) d2

/-- Steps 2 and 3 of the frame that began at b have not ended (R27) (log 21). -/
def frameLate (b : Nat) (d : Dev) : Bool :=
  d.cle.scans.any (fun s => s.cap.t = b) || d.clp.jobs.any (fun j => decide (j.cap.t = b) && !jobEnded d j)

/-! ### Entry to CONFIG (R29, R43, R442) -/

/-- Ring 0 is enabled over the mailbox (R43), afresh even where it stood STOPPED: RING_RESET cannot address it (R43, R49)
(log 132). -/
def enableMailbox (d : Dev) : Dev :=
  if (ringOf d 0).st = .active then d
  else setRing 0 { freshRing Ring.reset with
    st := .active, loc := true, cls := 0, log2 := 6, sqBase := mailboxBase, cqBase := mailboxBase + 0x1000, intMode := 2 } d

/-- Offset and value pairs of a snapshot. -/
def snapPairs : Nat → List Nat → List (Nat × Nat)
  | 0, _ => []
  | n + 1, l => (l.getD 0 0, l.getD 1 0) :: snapPairs n (l.drop 2)

/-- The newest calibration snapshot is written into its shadows and applied by an immediate strobe of their groups. -/
def applyCalibration (d : Dev) : Dev :=
  let ws := (snapshotOf 1 d).dropLast
  if ws.isEmpty then d
  else
    let ps := snapPairs (ws.length / 2) ws
    let shadow (d : Dev) (p : Nat × Nat) : Dev :=
      let m := accMask (fieldsAt p.1) .rws ||| accMask (fieldsAt p.1) .rwp
      setL p.1 (mergeBits (regL d p.1) p.2 (postMask p.1)) (setP p.1 (mergeBits (regP d p.1) p.2 m) d)
    let mask := ps.foldl (fun m p => m ||| (1 <<< groupOf d p.1)) 0
    applyGroups mask (ps.foldl shadow d)

/-- What every entry to CONFIG brings. -/
def enterConfig (d : Dev) : Dev := applyCalibration (enableMailbox d)

/-- Mode changes of the boundary: the end of the boot, a takeover or handover, a waiting SET_MODE (R29, R96, R101) (log 22). -/
def boundaryModes (t : Nat) (d : Dev) : Dev :=
  let d1 :=
    if d.sys.mode.code < 3 then restartPass (enterMode .config 0 d)
    else modeRequest t (redBoundary d)
  if d1.sys.mode = .config ∧ d.sys.mode ≠ .config then enterConfig d1 else d1

/-! ### Budgets, placement, model -/

/-- DEGRADED, with vector 65 when it changes (R95, R103). -/
def followDegraded (d : Dev) : Dev :=
  let d1 := setDegraded d
  if d1.sys.degraded = d.sys.degraded then d1 else raiseVec 65 d1

/-- Spares take over, N_eff is compared with the last boundary's (R189, R206), the band is predicted, plans and cuts take
effect, the governor targets the floors then in force, budgets renew and host transfers that waited for theirs are served
(R153–R158, R177, R178, R182) (log 22). -/
def boundaryBudgets (t : Nat) (d : Dev) : Dev :=
  let d1 := substituteAll d
  let n := nBoundary d1
  let d2 := { (if n < d1.plc.nLast then replaceDue d1 else d1) with plc.nLast := n }
  let d3 := governor (applyCuts (budgetWaitEffect t (setBandMax (rearmGovernor (replaceBoundary d2)))))
  let d4 := renewBudgets d3
  followDegraded (serveBar2 d4.cmd.bar2 d4)

/-! ### Capture (R23 step 1, R24, R126) -/

/-- Samples of the logic words that descriptors name (source 7). -/
def logicSamples (t : Nat) (d : Dev) : List Sample :=
  ((d.mdl.com.meas.filter (fun kv => kv.2.source = 7)).map (fun kv => kv.2.sourceIndex)).dedup.map
    (fun w => ⟨7, w, fOfInt f64 (lwordI d.cle w), t, false⟩)

/-- What the boundary latches: the capture image and the samples of every source (log 114). -/
def latchAll (t : Nat) (d : Dev) : Capture × List Sample × Dev :=
  let io := captureIO t d
  let mt := meterVals io.2.2
  let cn := canSamples mt.2
  let tl := telemetrySamples (canPair t cn.2)
  (io.1, io.2.1 ++ mt.1 ++ cn.1 ++ tl.1 ++ logicSamples t tl.2, tl.2)

/-- The capture of frame k and the work that starts with it. On an acting standby the primary's items are awaited (R415,
R416); anywhere else the list is updated, steps 2 and 3 fall due and run-ahead periods resolve (log 22). -/
def captureFrame (t tp : Nat) (d : Dev) : Dev :=
  let frozen := freezeSetpoints d
  let c := latchAll t d
  let d1 := meterBoundary c.1 tp { c.2.2 with cap := c.1 }
  if mirroring d1 then
    { d1 with trl.stepsWait := some (c.1, frozen),
              trl.items := some (c.2.1.map (fun s => ⟨s.source, s.index, s.raw, s.ts, s.atLimit⟩)) }
  else
    let d2 := frameSteps c.1 frozen (captureList c.2.1 t d1.sys.frameLen (sendMirror c.1 c.2.1 t d1))
    if actingStandby d2 then raStandby d2 else raBoundary d2

/-- Parts of the last frame's mirror that have not arrived by the boundary are late. -/
def staleMirror (d : Dev) : Dev :=
  let d1 := if d.trl.stepsWait.isSome then mirrorLate true d else d
  if d1.trl.items.isSome then mirrorLate false d1 else d1

/-! ### The boundary -/

/-- What reaches the unit at the boundary: GPIO input levels and PEER_OWN_N (log 7). -/
def takePins (levels : Nat) (peerLow : Bool) (d : Dev) : Dev := setPeerOwn peerLow { d with iox.gpioIn := levels }

/-- The boundary of a unit that runs in CONFIG or above, or enters CONFIG (log 22, 53). -/
def boundaryWork (tp : Nat) (d : Dev) : Dev :=
  let t := frameStart d
  let d1 := boundaryModes t (staleMirror (strobeBoundary d))
  let d2 := publishSetpoints (publishState (modelCommitEffect t (boundaryBudgets t d1)))
  let d3 := captureFrame t tp d2
  let d4 := adcTrigger 24 (pwmFrameSync d3)
  snapshots (reportsBoundary (markBoundary d4))

/-- FRAME_BOUNDARY. A unit whose lease has lapsed resets with cause WATCHDOG instead (R414) (log 21, 22, 53). -/
def frameBoundary (levels : Nat) (peerLow : Bool) (e : BootEnv) (d : Dev) : Dev :=
  if !d.sys.seqOn then d
  else
    let b := d.sys.lastBoundary
    let d1 := fireBoundary d
    if !d1.trl.lease then internalReset 8 e d1
    else
      let d2 := if frameLate (b.getD 0) d1 ∧ b.isSome then addF Reg.sysFrameLate 31 0 1 d1 else d1
      boundaryWork (b.getD (frameStart d2)) (takePins levels peerLow (releaseSignature d2))

end Sys2Proof.Machine
end

