-- ==== Sys2Proof/Machine/Start.lean ====
section
/-!
DEFINITION. The fetch of an entry that its flags or its ring held back, and the start of a launch-timed command
(spec/02_command_interface.md R45, R53, R56–R61), and what the device does by itself when no command waits.
-/

namespace Sys2Proof.Machine

/-- An opcode's checks and its effect. -/
abbrev OpRow := OpSpec × (Nat → Pkt → Dev → Dev)

/-- Opcodes of the rows IDENTIFY to CLASS_QUERY. -/
def opSystem : List OpRow :=
  [(specIdentify, effIdentify),
   (specGetMode, effGetMode),
   (specSetMode, effSetMode),
   (specReadState, effReadState),
   (specFence, effFence),
   (specEcho, effEcho),
   (specGetCounters, effGetCounters),
   (specSetFrame, effSetFrame),
   (specRingConfig, effRingConfig),
   (specRingReset, effRingReset),
   (specClassBudget, effClassBudget),
   (specClassQuery, effClassQuery)]

/-- Opcodes of the rows MODEL_WRITE_OBJECTS to PLACE_PREDICT. -/
def opModel : List OpRow :=
  [(specModelWriteObjects, effModelWriteObjects),
   (specModelWriteMeas, effModelWriteMeas),
   (specModelCommit, effModelCommit),
   (specModelRead, effModelRead),
   (specModelDiscard, effModelDiscard),
   (specMeasWriteValues, effMeasWriteValues),
   (specModelSignature, effModelSignature),
   (specPlanLoad, effPlanLoad),
   (specPlanUnload, effPlanUnload),
   (specPlanQuery, effPlanQuery),
   (specPlanBound, effPlanBound),
   (specPlanPolicy, effPlanPolicy),
   (specPlaceQuery, effPlaceQuery),
   (specPlaceRebuild, effPlaceRebuild),
   (specPlacePredict, effPlacePredict)]

/-- Opcodes of the rows SHEAF_SUBMIT to RA_QUERY. -/
def opSolve : List OpRow :=
  [(specSheafSubmit, effSheafSubmit),
   (specSheafCancel, effSheafCancel),
   (specSheafQuery, effSheafQuery),
   (specLsqSubmit, effLsqSubmit),
   (specLsqCancel, effLsqCancel),
   (specLsqQuery, effLsqQuery),
   (specRaConfig, effRaConfig),
   (specRaInputs, effRaInputs),
   (specRaForecast, effRaForecast),
   (specRaExtrapolate, effRaExtrapolate),
   (specRaSquash, effRaSquash),
   (specRaQuery, effRaQuery)]

/-- Opcodes of the rows LOOP_WRITE to WINDOW_DISARM. -/
def opControl : List OpRow :=
  [(specLoopWrite, effLoopWrite),
   (specLoopRetune, effLoopRetune),
   (specLoopEnable, effLoopEnable),
   (specSpWrite, effSpWrite),
   (specSpMap, effSpMap),
   (specSpPublish, effSpPublish),
   (specTraceArm, effTraceArm),
   (specTraceRead, effTraceRead),
   (specLogicLoad, effLogicLoad),
   (specLogicWordWrite, effLogicWordWrite),
   (specLogicPatch, effLogicPatch),
   (specLogicVarsWrite, effLogicVarsWrite),
   (specLogicClear, effLogicClear),
   (specLogicAck, effLogicAck),
   (specLogicRead, effLogicRead),
   (specAdcStart, effAdcStart),
   (specWindowArm, effWindowArm),
   (specWindowDisarm, effWindowDisarm)]

/-- Opcodes of the rows MTR_PRESET to CAN_RECOVER. -/
def opMeter : List OpRow :=
  [(specMtrPreset, effMtrPreset),
   (specMtrHeatTable, effMtrHeatTable),
   (specMtrSave, effMtrSave),
   (specMtrEventWait, effMtrEventWait),
   (specMtrEventRead, effMtrEventRead),
   (specMtrEventDisarm, effMtrEventDisarm),
   (specCanFields, effCanFields),
   (specCanWait, effCanWait),
   (specCanDisarm, effCanDisarm),
   (specCanRecover, effCanRecover)]

/-- Opcodes of the rows TIME_READ to GRN_QUERY. -/
def opNet : List OpRow :=
  [(specTimeRead, effTimeRead),
   (specTimeSet, effTimeSet),
   (specTimeAccept, effTimeAccept),
   (specPtpStatus, effPtpStatus),
   (specSubstWrite, effSubstWrite),
   (specLaunchQueue, effLaunchQueue),
   (specLaunchCancel, effLaunchCancel),
   (specTrlQuery, effTrlQuery),
   (specRedFailover, effRedFailover),
   (specRedRevertNow, effRedRevertNow),
   (specRedResync, effRedResync),
   (specGrnQuery, effGrnQuery)]

/-- Opcodes of the rows GRN_COMPACT to PAV_DRAW. -/
def opStore : List OpRow :=
  [(specGrnCompact, effGrnCompact),
   (specGrnSnapshot, effGrnSnapshot),
   (specGrnModelRestore, effGrnModelRestore),
   (specGrnFwWrite, effGrnFwWrite),
   (specEvrRead, effEvrRead),
   (specEvrClear, effEvrClear),
   (specEvrLog, effEvrLog),
   (specSecGenerate, effSecGenerate),
   (specSecImport, effSecImport),
   (specSecExport, effSecExport),
   (specSecDelete, effSecDelete),
   (specSecDerive, effSecDerive),
   (specSecCipher, effSecCipher),
   (specSecSign, effSecSign),
   (specSecVerify, effSecVerify),
   (specSecAttest, effSecAttest),
   (specSecPubkey, effSecPubkey),
   (specSecRandom, effSecRandom),
   (specPavDraw, effPavDraw)]

/-- Opcodes of the rows PAV_FLIP to HLT_BAT_TEST. -/
def opPanel : List OpRow :=
  [(specPavFlip, effPavFlip),
   (specPavStressRead, effPavStressRead),
   (specPavStressPreset, effPavStressPreset),
   (specRtcSet, effRtcSet),
   (specRtcAlarm, effRtcAlarm),
   (specRtcUnlock, effRtcUnlock),
   (specRtcTrim, effRtcTrim),
   (specHltRefresh, effHltRefresh),
   (specHltBatTest, effHltBatTest)]

/-- Every defined opcode. -/
def opRows : List OpRow := opSystem ++ opModel ++ opSolve ++ opControl ++ opMeter ++ opNet ++ opStore ++ opPanel

/-- The row of an opcode. -/
def opRow (opcode : Nat) : Option OpRow := opRows.find? (fun r => r.1.opcode = opcode)

/-- A fetched command starts: check 1, then the other checks and its effect (R53). -/
def startOp (id : Nat) (p : Pkt) (d : Dev) : Dev :=
  match opRow p.opcode.toNat with
  | none => complete id (refuse stBadOpcode 0) d
  | some r => startCmd r.1 (mirrored r.1 r.2) id p d

/-- The first ring whose head entry the device fetches now (log 2, 129). -/
def fetchDue (d : Dev) : Option (Fin 64) := (List.finRange 64).find? (fun n => canFetch d n && fetchable d (headEntry d n))

/-- The device fetches the head entry of a ring from memory and starts it, or completes it CANCELLED when the command linked
to it failed (R45, R53, R58) (log 129). -/
def fetchHead (n : Fin 64) (d : Dev) : Dev :=
  let p := headEntry d n
  let d1 := match opRow p.opcode.toNat with
    | some r => stageMirror r.1 p d
    | none => d
  let d2 := fetch p d1
  if linkFailed (ringOf d n) then complete d.cmd.nextId (refuse stCancelled 0) d2 else startOp d.cmd.nextId p d2

/-- A budget command waits for its boundary, not for a start of its own (R159). -/
def heldBudget (d : Dev) (c : Cmd) : Bool := (d.pln.wait.map (·.cmd)) == some c.id

/-- The waiting launch-timed command whose time comes first, by fetch order among equals. -/
def nextTimed (d : Dev) : Option Cmd :=
  (d.cmd.cmds.filter (fun c => decide (c.phase = .waiting) && !heldBudget d c)).foldl (fun best c =>
    match best with
    | none => some c
    | some b => if c.pkt.launchTime.toNat < b.pkt.launchTime.toNat then some c else best) none

/-- A launch-timed command takes effect, unless check 5 now refuses it (R61). A mirrored one takes the effect it has on its primary,
which is in RUN (R275). -/
def timedEffect (c : Cmd) (d : Dev) : Dev :=
  match opRow c.pkt.opcode.toNat with
  | none => d
  | some r =>
    let d0 := setPhase c.id .active (stageMirror r.1 c.pkt d)
    let ms := modesOf r.1 c.pkt
    if !c.ringless && !modeIn d0 ms then refuseStart r.1.opcode c.id (conflictMode d0 ms) d0
    else match r.1.object c.pkt (if c.ringless then { d0 with sys.mode := .run } else d0) with
      | some x => refuseStart r.1.opcode c.id x d0
      | none => mirrored r.1 r.2 c.id c.pkt d0

/-- LAUNCH_TIMED_COMMAND_START: time comes to the earliest launch time, and its command takes effect. -/
def timedStart (d : Dev) : Dev :=
  match nextTimed d with
  | none => d
  | some c => timedEffect c (advanceTo c.pkt.launchTime.toNat d)

/-- An RTC_SET whose second has come. -/
def rtcSetReady (d : Dev) : Bool := (d.rtc.sets.take 1).any (fun x => decide (x.2.1 ≤ now d))

/-- What the device does when no command waits: a firmware write in progress ends, a
signature being computed is released, an RTC_SET takes its instant, a
ring's head entry is fetched, and otherwise one 250 MHz tick passes (DESIGN CHOICE, log 2) (log 53). -/
def idle (d : Dev) : Dev :=
  if d.grn.fwBusy.isSome then fwDone d
  else if d.sec.signq.any (·.committed) then releaseSignature d
  else if rtcSetReady d then rtcSetDue d
  else match fetchDue d with
    | some n => fetchHead n d
    | none => passTicks 1 d

end Sys2Proof.Machine
end

