-- ==== Sys2Proof/Machine/Frames.lean ====
section
/-!
DEFINITION. The meanings of commands: The frame boundary, and the instants of the pace domain and the run scheduler (spec/01, 06, 07, 08, 11).
-/

namespace Sys2Proof.Machine

/-- A pace window ends; entering BELOW declares a fault of the unit where RED_CTL asks for it (R422). -/
def paceEnd (raw : List Nat) (d : Dev) : Dev :=
  let d1 := paceWindowEnd raw d
  if d1.thr.below ∧ !d.thr.below then declareFault 3 d1 else d1

/-- LAUNCH_TIMED_COMMAND_START (R60). -/
def execLaunchTimedCommandStart (s : State) : Host.Outcome State Fault Refusal :=
  devRow timedStart s

/-- FRAME_BOUNDARY (R19). -/
def execFrameBoundary (levels : BitVec 96) (peerLow : Bool) (e : BootEnv) (s : State) : Host.Outcome State Fault Refusal :=
  devRow (frameBoundary levels.toNat peerLow e) s

/-- RE_PLACEMENT (R206). -/
def execRePlacement (s : State) : Host.Outcome State Fault Refusal :=
  devRow rePlacement s

/-- SHARE_RERUN (R204). -/
def execShareRerun (id : Nat) (unit : Nat) (s : State) : Host.Outcome State Fault Refusal :=
  devRow (shareRerun id unit) s

/-- RE_SOLVE_START (R271). -/
def execReSolveStart (cmd : Nat) (s : State) : Host.Outcome State Fault Refusal :=
  devRow (reSolveStart cmd) s

/-- GUARD_PASS (R89). -/
def execGuardPass (olds : List Nat) (s : State) : Host.Outcome State Fault Refusal :=
  devRow (guardPass olds) s

/-- PACE_WINDOW_END (R173). -/
def execPaceWindowEnd (raw : List Nat) (s : State) : Host.Outcome State Fault Refusal :=
  devRow (paceEnd raw) s

/-- AVS_RESPONSE (R181). -/
def execAvsResponse (good : Bool) (s : State) : Host.Outcome State Fault Refusal :=
  devRow (avsResponse good) s

/-- GOVERNOR_REPEAT (R179). -/
def execGovernorRepeat (s : State) : Host.Outcome State Fault Refusal :=
  devRow governorRepeat s

/-- GOVERNOR_LOWER (R179). -/
def execGovernorLower (s : State) : Host.Outcome State Fault Refusal :=
  devRow governorLower s

/-- FABRIC_RUN_START (R196). -/
def execFabricRunStart (id : Nat) (s : State) : Host.Outcome State Fault Refusal :=
  devRow (runStart id) s

/-- DEADLINE_REACHED (R183). -/
def execDeadlineReached (id : Nat) (s : State) : Host.Outcome State Fault Refusal :=
  devRow (deadlineReached id) s

/-- SHEAF_STATUS_PHASE (R227). -/
def execSheafStatusPhase (id : Nat) (s : State) : Host.Outcome State Fault Refusal :=
  devRow (sheafStatusPhase id) s

/-- LSQ_STATUS_PHASE (R252). -/
def execLsqStatusPhase (id : Nat) (s : State) : Host.Outcome State Fault Refusal :=
  devRow (lsqStatusPhase id) s

end Sys2Proof.Machine
end

