-- ==== Sys2Proof/Machine/Kernels.lean ====
section
/-!
DEFINITION. The meanings of commands: The kernels of plan records (spec/07, 09, 10, 11).
-/

namespace Sys2Proof.Machine

/-- ARG bit 0 of LM_DAMP. -/
def dampRec (x : KRec) : Bool := !bitAt x.arg 0
def decideRec (x : KRec) : Bool := bitAt x.arg 0

/-- A known-answer record; fewer than 32 clusters and spares left declare a fault of the unit where RED_CTL asks (R422). -/
def selfTest (slot entry : Nat) (res : List (Bool × Nat)) (d : Dev) : Dev :=
  let d1 := knownAnswer slot entry res d
  let good (e : Dev) : Nat := (e.thr.clusters.filter (fun c => c.state ≠ 2)).length
  if good d1 < good d ∧ good d1 < 32 then declareFault 2 d1 else d1

/-- FABRIC_NOP (R147). -/
def execFabricNop (id : Nat) (s : State) : Host.Outcome State Fault Refusal :=
  devRow (kernelRow 0x00 anyRec (plain fun _ _ d => d) id) s

/-- LOOP_BEGIN (R148). -/
def execLoopBegin (id : Nat) (s : State) : Host.Outcome State Fault Refusal :=
  devRow (kernelRow 0x01 anyRec (plain fun _ _ d => d) id) s

/-- LOOP_TEST (R185). -/
def execLoopTest (id : Nat) (s : State) : Host.Outcome State Fault Refusal :=
  devRow (kernelRow 0x02 anyRec testBody id) s

/-- LOOP_END (R148). -/
def execLoopEnd (id : Nat) (s : State) : Host.Outcome State Fault Refusal :=
  devRow (kernelRow 0x03 anyRec (plain fun _ _ d => d) id) s

/-- COPY (R222). -/
def execCopy (id : Nat) (s : State) : Host.Outcome State Fault Refusal :=
  devRow (kernelRow 0x04 anyRec (plain copyBody) id) s

/-- FILL (R147). -/
def execFill (id : Nat) (s : State) : Host.Outcome State Fault Refusal :=
  devRow (kernelRow 0x05 anyRec (plain fillBody) id) s

/-- GATHER_MEAS (R246). -/
def execGatherMeas (id : Nat) (s : State) : Host.Outcome State Fault Refusal :=
  devRow (kernelRow 0x06 anyRec (plain (lsqOnly gatherBody)) id) s

/-- PUBLISH (R246). -/
def execPublish (id : Nat) (s : State) : Host.Outcome State Fault Refusal :=
  devRow (kernelRow 0x07 anyRec (plain copyBody) id) s

/-- AXPY (R222). -/
def execAxpy (id : Nat) (s : State) : Host.Outcome State Fault Refusal :=
  devRow (kernelRow 0x08 anyRec (plain axpyBody) id) s

/-- DOT (R147). -/
def execDot (id : Nat) (s : State) : Host.Outcome State Fault Refusal :=
  devRow (kernelRow 0x09 anyRec (plain dotBody) id) s

/-- GEMV (R147). -/
def execGemv (id : Nat) (s : State) : Host.Outcome State Fault Refusal :=
  devRow (kernelRow 0x0A anyRec (plain gemvBody) id) s

/-- GEMM (R147). -/
def execGemm (id : Nat) (s : State) : Host.Outcome State Fault Refusal :=
  devRow (kernelRow 0x0B anyRec (plain gemmBody) id) s

/-- SYRK (R147). -/
def execSyrk (id : Nat) (s : State) : Host.Outcome State Fault Refusal :=
  devRow (kernelRow 0x0C anyRec (plain syrkBody) id) s

/-- BPOTRF (R221). -/
def execBpotrf (id : Nat) (s : State) : Host.Outcome State Fault Refusal :=
  devRow (kernelRow 0x10 anyRec (plain batchBody) id) s

/-- BLDLT (R221). -/
def execBldlt (id : Nat) (s : State) : Host.Outcome State Fault Refusal :=
  devRow (kernelRow 0x11 anyRec (plain batchBody) id) s

/-- BGETRF (R221). -/
def execBgetrf (id : Nat) (s : State) : Host.Outcome State Fault Refusal :=
  devRow (kernelRow 0x12 anyRec (plain batchBody) id) s

/-- BGEQRF (R221). -/
def execBgeqrf (id : Nat) (s : State) : Host.Outcome State Fault Refusal :=
  devRow (kernelRow 0x13 anyRec (plain batchBody) id) s

/-- BTRS (R221). -/
def execBtrs (id : Nat) (s : State) : Host.Outcome State Fault Refusal :=
  devRow (kernelRow 0x14 anyRec (plain batchBody) id) s

/-- BRESID (R221). -/
def execBresid (id : Nat) (s : State) : Host.Outcome State Fault Refusal :=
  devRow (kernelRow 0x15 anyRec (plain batchBody) id) s

/-- BPERM (R221). -/
def execBperm (id : Nat) (s : State) : Host.Outcome State Fault Refusal :=
  devRow (kernelRow 0x16 anyRec (plain batchBody) id) s

/-- BQR_APPLY (R221). -/
def execBqrApply (id : Nat) (s : State) : Host.Outcome State Fault Refusal :=
  devRow (kernelRow 0x17 anyRec (plain batchBody) id) s

/-- POTRF (R248). -/
def execPotrf (id : Nat) (s : State) : Host.Outcome State Fault Refusal :=
  devRow (kernelRow 0x18 anyRec (plain (lsqOnly trunkBody)) id) s

/-- TRS (R246). -/
def execTrs (id : Nat) (s : State) : Host.Outcome State Fault Refusal :=
  devRow (kernelRow 0x19 anyRec (plain (lsqOnly trsBody)) id) s

/-- JAC_EVAL (R246). -/
def execJacEval (id : Nat) (s : State) : Host.Outcome State Fault Refusal :=
  devRow (kernelRow 0x1A anyRec (plain (lsqOnly jacBody)) id) s

/-- JTWJ (R246). -/
def execJtwj (id : Nat) (s : State) : Host.Outcome State Fault Refusal :=
  devRow (kernelRow 0x1B anyRec (plain (lsqOnly jtwjBody)) id) s

/-- BLOCK_ELIM (R246). -/
def execBlockElim (id : Nat) (s : State) : Host.Outcome State Fault Refusal :=
  devRow (kernelRow 0x1C anyRec (plain (lsqOnly elimBody)) id) s

/-- BLOCK_BACK (R246). -/
def execBlockBack (id : Nat) (s : State) : Host.Outcome State Fault Refusal :=
  devRow (kernelRow 0x1D anyRec (plain (lsqOnly backBody)) id) s

/-- LM_DAMP_DAMP (R246). -/
def execLmDampDamp (id : Nat) (s : State) : Host.Outcome State Fault Refusal :=
  devRow (kernelRow 0x1E dampRec (plain (lsqOnly dampBody)) id) s

/-- LM_DAMP_DECIDE (R247). -/
def execLmDampDecide (id : Nat) (s : State) : Host.Outcome State Fault Refusal :=
  devRow (kernelRow 0x1E decideRec (plain (lsqOnly decideBody)) id) s

/-- BOX_PROJECT (R246). -/
def execBoxProject (id : Nat) (s : State) : Host.Outcome State Fault Refusal :=
  devRow (kernelRow 0x1F anyRec (plain (lsqOnly boxBody)) id) s

/-- EXTRAPOLATE (R262). -/
def execExtrapolate (id : Nat) (s : State) : Host.Outcome State Fault Refusal :=
  devRow (kernelRow 0x20 anyRec (plain extrapolateBody) id) s

/-- TOL_COMPARE (R262). -/
def execTolCompare (id : Nat) (s : State) : Host.Outcome State Fault Refusal :=
  devRow (kernelRow 0x21 anyRec (plain tolCompareBody) id) s

/-- KNOWN_ANSWER (R188). -/
def execKnownAnswer (slot : Nat) (entry : Nat) (margins : List Nat) (pass : List Bool) (s : State) : Host.Outcome State Fault Refusal :=
  devRow (selfTest slot entry (pass.zip margins)) s

end Sys2Proof.Machine
end

