-- ==== Sys2Proof/Machine/Mirror.lean ====
section
/-!
DEFINITION. The bulk part of the mirror and the sync image on an acting standby (spec/18_trellis_redundancy.md R415–R418).
-/

namespace Sys2Proof.Machine

/-- Where the buffer of a mirrored command stands on the standby: one of eight areas of the device data region, by the
command's number (log 75). -/
def mirrorBuf (id : Nat) : Nat := 0x20000000 + id % 8 * 0x1000000

/-- A mirrored command is applied as the primary applied it: accepted already, no completion to any ring (R416). A host value
write changes nothing here, because its records come with the capture items (log 75). -/
def applyMirrored (d : Dev) (m : MirrorCmd) : Dev :=
  match opRow m.pkt.opcode.toNat with
  | none => d
  | some r =>
    let id := d.cmd.nextId
    let cls := if m.pkt.classOvr.toNat = 0xFF then m.cls else m.pkt.classOvr.toNat
    let pkt := { m.pkt with classOvr := u8 cls, bufAddr := if r.1.bufUse = .none then m.pkt.bufAddr else u64 (mirrorBuf id) }
    let c : Cmd := { id := id, pkt := pkt, phase := .active, cls := cls, ringless := true }
    let d1 := wrKeys (mirrorBuf id) m.data
      { d with cmd.cmds := d.cmd.cmds ++ [c], cmd.nextId := id + 1, trl.mirrored := d.trl.mirrored ++ [(id, m.cls)] }
    if r.1.opcode = 0x0206 then complete id (ok 0 0 0 0) d1
    else if bitAt pkt.flags.toNat 1 ∧ pkt.launchTime.toNat ≠ 0 then
      (if r.1.early then r.2 id pkt (setPhase id .waiting d1) else setPhase id .waiting d1)
    else r.2 id pkt d1

/-- Setpoints that mirrored commands of the frame before have set stand in the frozen table of this frame's steps, as on the
primary, whose boundary came after them (R283, R291, R416; log 77). -/
def refreeze (t : Nat) (b d : Dev) : Dev :=
  let fix := fun (m : SMap Nat) => (List.range 1024).foldl (fun m n =>
    let v := regP d (Reg.clpSp n)
    if regP b (Reg.clpSp n) = v then m else smSet 0 m n v) m
  { d with trl.stepsWait := d.trl.stepsWait.map (fun w => (w.1, fix w.2)),
           clp.jobs := d.clp.jobs.map (fun j => if j.cap.t = t then { j with frozen := fix j.frozen } else j) }

/-- The commands of a part, accepted by the primary in the frame before: they name the boundary of this frame where it was
the next one, and what waited for that boundary takes effect now. -/
def applyPart (b : BulkPart) (d : Dev) : Dev :=
  let l := d.sys.frameLen
  let t := frameStart d
  let d0 := { d with trl.mirrored := d.trl.mirrored.filter (fun m => (findCmd d m.1).isSome) }
  let back := { d0 with tim.acc := d0.tim.acc - l * 2 ^ 32, sys.lastBoundary := d0.sys.lastBoundary.map (· - l) }
  let d1 := b.cmds.foldl applyMirrored back
  let d2 := { d1 with tim.acc := d.tim.acc, sys.lastBoundary := d.sys.lastBoundary }
  let d3 := refreeze t d (publishSetpoints (modelCommitEffect t (budgetWaitEffect t d2)))
  let d4 := if d3.ra.newCfg.isSome then raApply d3 else d3
  b.seqs.foldl (fun d x => setSubst x.1 { substOf d x.1 with outSeq := x.2 } d)
    { d4 with mdl.hostVals := d4.mdl.hostVals ++ b.hosts.map (fun h => ⟨h.1, h.2.1, h.2.2⟩) }

/-- The items of the frame enter the measurement list: local sources the unit's own, fast ones as they came, the others from
the part (R415, R416); then run-ahead goes on. -/
def enterPart (b : BulkPart) (d : Dev) : Dev :=
  let own := (d.trl.items.getD []).filter (fun x => !([0, 5, 6].contains x.source))
  raStandby (enterItems (own ++ b.items.filter (fun x => [0, 5, 6].contains x.source)) { d with trl.items := none })

/-- MIRROR_BULK_PART. While a sync image is awaited the commands are kept for it (log 76). -/
def mirrorBulk (b : BulkPart) (d : Dev) : Dev :=
  if !mirroring d ∨ d.trl.items.isNone ∨ b.frame ≠ frameNo d then d
  else
    let d1 := charge 12 .beats (Config.trellisBeats 2).toNat { d with trl.avail := some b.avail }
    if d1.trl.imageReq then enterPart { b with hosts := [] } { d1 with trl.bulks := d1.trl.bulks ++ [b] }
    else enterPart b (applyPart b d1)

/-- SYNC_IMAGE: the state of T_s, and after it the commands the primary accepted from T_s on. -/
def syncImage (x : SyncImage) (d : Dev) : Dev :=
  if !actingStandby d ∨ !d.trl.imageReq then d
  else
    let later := d.trl.bulks.filter (fun b => decide (x.ts < b.frame * d.sys.frameLen))
    let d1 := bump 0xE 5 1 (charge 12 .beats (Config.trellisBeats 3).toNat (installImage x d))
    let d2 := { d1 with trl.imageReq := false, trl.imageDone := true, trl.runsUntil := x.runsUntil, trl.bulks := [] }
    let d3 := later.foldl (fun d b => applyPart b d) d2
    d3.trl.resync.foldl (fun d id => complete id (ok (lo32 x.ts) (hi32 x.ts) 0 0) d) { d3 with trl.resync := [] }

end Sys2Proof.Machine
end

