-- ==== Sys2Proof/Machine/Network.lean ====
section
/-!
DEFINITION. The meanings of commands: Ethernet, time and Trellis events (spec/14, 18).
-/

namespace Sys2Proof.Machine

/-- SYNC (R328). -/
def execSync (h : PtpHdr) (twoStep : Bool) (secs : Nat) (ns : Nat) (s : State) : Host.Outcome State Fault Refusal :=
  devRow (ptpSync h twoStep secs ns) s

/-- FOLLOW_UP (R326). -/
def execFollowUp (h : PtpHdr) (secs : Nat) (ns : Nat) (s : State) : Host.Outcome State Fault Refusal :=
  devRow (ptpFollowUp h secs ns) s

/-- ANNOUNCE (R326). -/
def execAnnounce (h : PtpHdr) (prio1 : Nat) (cls : Nat) (accuracy : Nat) (variance : Nat) (prio2 : Nat) (gm : Nat) (steps : Nat) (s : State) : Host.Outcome State Fault Refusal :=
  devRow (ptpAnnounce h prio1 cls accuracy variance prio2 gm steps) s

/-- ANNOUNCE_RECEIPT_TIMEOUT (R328). -/
def execAnnounceReceiptTimeout (x : Fin 2) (s : State) : Host.Outcome State Fault Refusal :=
  devRow (receiptTimeout x.val) s

/-- DELAY_REQ (R326). -/
def execDelayReq (h : PtpHdr) (s : State) : Host.Outcome State Fault Refusal :=
  devRow (ptpDelayReq h) s

/-- DELAY_RESP (R326). -/
def execDelayResp (h : PtpHdr) (secs : Nat) (ns : Nat) (s : State) : Host.Outcome State Fault Refusal :=
  devRow (ptpDelayResp h secs ns) s

/-- PDELAY_REQ (R332). -/
def execPdelayReq (h : PtpHdr) (turn : Nat) (s : State) : Host.Outcome State Fault Refusal :=
  devRow (ptpPdelayReq h turn) s

/-- PDELAY_RESP (R326). -/
def execPdelayResp (h : PtpHdr) (twoStep : Bool) (s : State) : Host.Outcome State Fault Refusal :=
  devRow (ptpPdelayResp h twoStep) s

/-- PTP_MESSAGE_TRANSMIT (R332). -/
def execPtpMessageTransmit (port : Fin 4) (kind : Fin 4) (s : State) : Host.Outcome State Fault Refusal :=
  devRow (ptpTransmit port.val kind.val) s

/-- ARP_REQUEST (R334). -/
def execArpRequest (port : Fin 4) (addr : List Byte) (from_ : Nat) (s : State) : Host.Outcome State Fault Refusal :=
  devRow (arpRequest port.val addr from_) s

/-- TELEMETRY_DATAGRAM (R337). -/
def execTelemetryDatagram (port : Fin 4) (dport : Nat) (src : List Byte) (dst : List Byte) (data : List Byte) (s : State) : Host.Outcome State Fault Refusal :=
  devRow (telemetry port.val dport src dst data) s

/-- ETHERNET_FRAME_DROP (R334). -/
def execEthernetFrameDrop (port : Fin 4) (ptp : Bool) (s : State) : Host.Outcome State Fault Refusal :=
  devRow (ethDrop port.val ptp) s

/-- TIME_ALARM (R329). -/
def execTimeAlarm (n : Fin 4) (s : State) : Host.Outcome State Fault Refusal :=
  devRow (timeAlarm n.val) s

/-- ENUM_IN_FALL (R405). -/
def execEnumInFall (up : Nat) (s : State) : Host.Outcome State Fault Refusal :=
  devRow (enumInFall up) s

/-- TRELLIS_LINK_TRAINED (R405). -/
def execTrellisLinkTrained (down : Bool) (s : State) : Host.Outcome State Fault Refusal :=
  devRow (linkTrained down) s

/-- TRELLIS_CRC_FAILURE (R403). -/
def execTrellisCrcFailure (down : Bool) (again : Nat) (s : State) : Host.Outcome State Fault Refusal :=
  devRow (crcFailure down again) s

/-- TIME_MARK (R408). -/
def execTimeMark (dep : Nat) (step : Bool) (delay : Nat) (s : State) : Host.Outcome State Fault Refusal :=
  devRow (timeMark dep step delay) s

/-- HEALTH_REPORT_SEND (R410). -/
def execHealthReportSend (s : State) : Host.Outcome State Fault Refusal :=
  devRow healthReportSend s

/-- HEALTH_REPORT (R410). -/
def execHealthReport (data : List Byte) (hostM : Nat) (guestM : Nat) (images : Nat) (s : State) : Host.Outcome State Fault Refusal :=
  devRow (healthReport data hostM guestM images) s

/-- HEALTH_REPORT_MISSED (R410). -/
def execHealthReportMissed (a : Nat) (s : State) : Host.Outcome State Fault Refusal :=
  devRow (healthReportMissed a) s

/-- LEASE_LAPSE (R414). -/
def execLeaseLapse (s : State) : Host.Outcome State Fault Refusal :=
  devRow leaseLapse s

/-- FORWARDED_LAUNCH (R341). -/
def execForwardedLaunch (recs : List (Nat × Nat × Nat × Nat)) (s : State) : Host.Outcome State Fault Refusal :=
  devRow (forwardedLaunch recs) s

/-- MIRROR_FAST_PART (R416). -/
def execMirrorFastPart (adc : List (Nat × Nat × Nat × Bool)) (win : Nat) (levels : Nat) (gpio : Nat) (counts : List (Nat × Nat)) (s : State) : Host.Outcome State Fault Refusal :=
  devRow (mirrorFast ⟨adc, win, levels, gpio, counts⟩) s

/-- MIRROR_BULK_PART (R416). -/
def execMirrorBulkPart (b : BulkPart) (s : State) : Host.Outcome State Fault Refusal :=
  devRow (mirrorBulk b) s

/-- MIRROR_LATE (R416). -/
def execMirrorLate (fast : Bool) (s : State) : Host.Outcome State Fault Refusal :=
  devRow (mirrorLate fast) s

/-- SYNC_IMAGE (R418). -/
def execSyncImage (x : Machine.SyncImage) (s : State) : Host.Outcome State Fault Refusal :=
  devRow (syncImage x) s

/-- WINDOW_TRAFFIC (R35). -/
def execWindowTraffic (o : Nat) (write : Bool) (len : Nat) (msg : WindowMsg) (s : State) : Host.Outcome State Fault Refusal :=
  devRow (windowTraffic o write len msg) s

/-- TAKEOVER (R420). -/
def execTakeover (s : State) : Host.Outcome State Fault Refusal :=
  devRow takeover s

/-- REVERT_REQUEST (R423). -/
def execRevertRequest (s : State) : Host.Outcome State Fault Refusal :=
  devRow revertRequest s

/-- HANDOVER_RELEASE (R424). -/
def execHandoverRelease (s : State) : Host.Outcome State Fault Refusal :=
  devRow handoverRelease s

/-- HANDOVER (R424). -/
def execHandover (peerLow : Bool) (s : State) : Host.Outcome State Fault Refusal :=
  devRow (handover peerLow) s

/-- ETHERNET_LINK_CHANGE (R333). -/
def execEthernetLinkChange (port : Fin 4) (speed : Nat) (s : State) : Host.Outcome State Fault Refusal :=
  devRow (ethLink port.val speed) s

end Sys2Proof.Machine
end

