-- ==== Sys2Proof/Machine/Power.lean ====
section
/-!
DEFINITION. The meanings of commands: Resets, supplies and the boot (spec/01_architecture.md, 04_modes_boot_recovery.md, 23_electrical_package.md).
-/

namespace Sys2Proof.Machine

/-- POWER_ON_RESET (R497). -/
def execPowerOnReset (s : State) : Host.Outcome State Fault Refusal :=
  devRow powerOn s

/-- MAIN_SUPPLY_LOSS (R497). -/
def execMainSupplyLoss (s : State) : Host.Outcome State Fault Refusal :=
  devRow supplyLoss s

/-- RESET_N_ASSERT (R96). -/
def execResetNAssert (s : State) : Host.Outcome State Fault Refusal :=
  devRow resetAssert s

/-- RESET_N_RELEASE (R107). -/
def execResetNRelease (e : BootEnv) (s : State) : Host.Outcome State Fault Refusal :=
  devRow (resetRelease e) s

/-- LOCKSTEP_DIVERGENCE (R111). -/
def execLockstepDivergence (e : BootEnv) (s : State) : Host.Outcome State Fault Refusal :=
  devRow (internalReset 4 e) s

/-- WATCHDOG_EXPIRY (R111). -/
def execWatchdogExpiry (e : BootEnv) (s : State) : Host.Outcome State Fault Refusal :=
  devRow (internalReset 8 e) s

/-- PFAIL_N_LATCH (R100). -/
def execPfailNLatch (s : State) : Host.Outcome State Fault Refusal :=
  devRow pfailLatch s

/-- PFAIL_N_RELEASE (R100). -/
def execPfailNRelease (e : BootEnv) (s : State) : Host.Outcome State Fault Refusal :=
  devRow (pfailRelease e) s

/-- REFERENCE_LOSS (R17). -/
def execReferenceLoss (s : State) : Host.Outcome State Fault Refusal :=
  devRow referenceLoss s

/-- REFERENCE_RELOCK (R17). -/
def execReferenceRelock (s : State) : Host.Outcome State Fault Refusal :=
  devRow referenceRelock s

end Sys2Proof.Machine
end

