-- ==== Sys2Proof/Machine/Upkeep.lean ====
section
/-!
DEFINITION. The meanings of commands: Granary, recorder, Silo, panel, RTC and health events (spec/19–22).
-/

namespace Sys2Proof.Machine

/-- The stress journal of the hour, with the alarms its prediction can raise (R471, R489) (log 105). -/
def stressHour (d : Dev) : Dev := hltAlarms (hltLeast (stressJournal d))

/-- JOURNAL_APPEND_COMMIT (R431). -/
def execJournalAppendCommit (s : State) : Host.Outcome State Fault Refusal :=
  devRow appendCommit s

/-- APPEND_WAIT_TIMEOUT (R432). -/
def execAppendWaitTimeout (s : State) : Host.Outcome State Fault Refusal :=
  devRow appendTimeout s

/-- CHECKPOINT_DUE (R434). -/
def execCheckpointDue (s : State) : Host.Outcome State Fault Refusal :=
  devRow checkpointDue s

/-- CHECKPOINT_COMPLETE (R435). -/
def execCheckpointComplete (s : State) : Host.Outcome State Fault Refusal :=
  devRow checkpointComplete s

/-- EVENT_RECORD (R439). -/
def execEventRecord (s : State) : Host.Outcome State Fault Refusal :=
  devRow eventRecord s

/-- REMASK_PASS (R450). -/
def execRemaskPass (s : State) : Host.Outcome State Fault Refusal :=
  devRow remaskPass s

/-- ENTROPY_TEST_FAILURE (R453). -/
def execEntropyTestFailure (s : State) : Host.Outcome State Fault Refusal :=
  devRow entropyFailure s

/-- DRBG_RESEED (R453). -/
def execDrbgReseed (s : State) : Host.Outcome State Fault Refusal :=
  devRow drbgReseed s

/-- PANEL_FRAME_START (R465). -/
def execPanelFrameStart (s : State) : Host.Outcome State Fault Refusal :=
  devRow panelFrameStart s

/-- PANEL_LINE (R468). -/
def execPanelLine (s : State) : Host.Outcome State Fault Refusal :=
  devRow panelLine s

/-- STRESS_JOURNAL (R471). -/
def execStressJournal (s : State) : Host.Outcome State Fault Refusal :=
  devRow stressHour s

/-- RTC_SECOND (R475). -/
def execRtcSecond (s : State) : Host.Outcome State Fault Refusal :=
  devRow rtcSecond s

/-- TRIM_CORRECTION (R479). -/
def execTrimCorrection (s : State) : Host.Outcome State Fault Refusal :=
  devRow trimCorrection s

/-- OSC_STOP_DETECT (R485). -/
def execOscStopDetect (s : State) : Host.Outcome State Fault Refusal :=
  devRow oscStop s

/-- INTERFACE_LOCK (R482). -/
def execInterfaceLock (vaon : Bool) (s : State) : Host.Outcome State Fault Refusal :=
  devRow (interfaceLock vaon) s

/-- SWITCH_TO_VBAT (R481). -/
def execSwitchToVbat (s : State) : Host.Outcome State Fault Refusal :=
  devRow switchToVbat s

/-- SWITCH_BACK_TO_VAON (R481). -/
def execSwitchBackToVaon (s : State) : Host.Outcome State Fault Refusal :=
  devRow switchToVaon s

/-- ALWAYS_ON_RESET (R484). -/
def execAlwaysOnReset (s : State) : Host.Outcome State Fault Refusal :=
  devRow alwaysOnReset s

/-- UNLOCK_READY (R483). -/
def execUnlockReady (s : State) : Host.Outcome State Fault Refusal :=
  devRow unlockReady s

/-- HEALTH_RECORD (R487). -/
def execHealthRecord (s : State) : Host.Outcome State Fault Refusal :=
  devRow healthRecord s

/-- BAT_LOAD_TEST_END (R488). -/
def execBatLoadTestEnd (vo : Nat) (vl : Nat) (s : State) : Host.Outcome State Fault Refusal :=
  devRow (batTestEnd vo vl) s

/-- NAND_BLOCK_RETIREMENT (R428). -/
def execNandBlockRetirement (b : Nat) (s : State) : Host.Outcome State Fault Refusal :=
  devRow (nandRetire b) s

/-- RECORDER_STATE_APPEND (R430). -/
def execRecorderStateAppend (s : State) : Host.Outcome State Fault Refusal :=
  devRow recorderStateAppend s

end Sys2Proof.Machine
end

