-- ==== Sys2Proof/Machine/Dispatch.lean ====
section
/-!
DEFINITION. One arm per command: the meaning it calls.
-/

namespace Sys2Proof.Machine

/-- The effect of a command on everything but the queue. -/
def exec (i : Instr) (s : State) : Host.Outcome State Fault Refusal :=
  match i with
  | .identify p => Sys2Proof.Machine.execIdentify p s
  | .getMode p => Sys2Proof.Machine.execGetMode p s
  | .setMode p => Sys2Proof.Machine.execSetMode p s
  | .readState p => Sys2Proof.Machine.execReadState p s
  | .fence p => Sys2Proof.Machine.execFence p s
  | .echo p => Sys2Proof.Machine.execEcho p s
  | .getCounters p => Sys2Proof.Machine.execGetCounters p s
  | .setFrame p => Sys2Proof.Machine.execSetFrame p s
  | .ringConfig p => Sys2Proof.Machine.execRingConfig p s
  | .ringReset p => Sys2Proof.Machine.execRingReset p s
  | .classBudget p => Sys2Proof.Machine.execClassBudget p s
  | .classQuery p => Sys2Proof.Machine.execClassQuery p s
  | .modelWriteObjects p => Sys2Proof.Machine.execModelWriteObjects p s
  | .modelWriteMeas p => Sys2Proof.Machine.execModelWriteMeas p s
  | .modelCommit p => Sys2Proof.Machine.execModelCommit p s
  | .modelRead p => Sys2Proof.Machine.execModelRead p s
  | .modelDiscard p => Sys2Proof.Machine.execModelDiscard p s
  | .measWriteValues p => Sys2Proof.Machine.execMeasWriteValues p s
  | .modelSignature p => Sys2Proof.Machine.execModelSignature p s
  | .planLoad p => Sys2Proof.Machine.execPlanLoad p s
  | .planUnload p => Sys2Proof.Machine.execPlanUnload p s
  | .planQuery p => Sys2Proof.Machine.execPlanQuery p s
  | .planBound p => Sys2Proof.Machine.execPlanBound p s
  | .planPolicy p => Sys2Proof.Machine.execPlanPolicy p s
  | .placeQuery p => Sys2Proof.Machine.execPlaceQuery p s
  | .placeRebuild p => Sys2Proof.Machine.execPlaceRebuild p s
  | .placePredict p => Sys2Proof.Machine.execPlacePredict p s
  | .sheafSubmit p => Sys2Proof.Machine.execSheafSubmit p s
  | .sheafCancel p => Sys2Proof.Machine.execSheafCancel p s
  | .sheafQuery p => Sys2Proof.Machine.execSheafQuery p s
  | .lsqSubmit p => Sys2Proof.Machine.execLsqSubmit p s
  | .lsqCancel p => Sys2Proof.Machine.execLsqCancel p s
  | .lsqQuery p => Sys2Proof.Machine.execLsqQuery p s
  | .raConfig p => Sys2Proof.Machine.execRaConfig p s
  | .raInputs p => Sys2Proof.Machine.execRaInputs p s
  | .raForecast p => Sys2Proof.Machine.execRaForecast p s
  | .raExtrapolate p => Sys2Proof.Machine.execRaExtrapolate p s
  | .raSquash p => Sys2Proof.Machine.execRaSquash p s
  | .raQuery p => Sys2Proof.Machine.execRaQuery p s
  | .loopWrite p => Sys2Proof.Machine.execLoopWrite p s
  | .loopRetune p => Sys2Proof.Machine.execLoopRetune p s
  | .loopEnable p => Sys2Proof.Machine.execLoopEnable p s
  | .spWrite p => Sys2Proof.Machine.execSpWrite p s
  | .spMap p => Sys2Proof.Machine.execSpMap p s
  | .spPublish p => Sys2Proof.Machine.execSpPublish p s
  | .traceArm p => Sys2Proof.Machine.execTraceArm p s
  | .traceRead p => Sys2Proof.Machine.execTraceRead p s
  | .logicLoad p => Sys2Proof.Machine.execLogicLoad p s
  | .logicWordWrite p => Sys2Proof.Machine.execLogicWordWrite p s
  | .logicPatch p => Sys2Proof.Machine.execLogicPatch p s
  | .logicVarsWrite p => Sys2Proof.Machine.execLogicVarsWrite p s
  | .logicClear p => Sys2Proof.Machine.execLogicClear p s
  | .logicAck p => Sys2Proof.Machine.execLogicAck p s
  | .logicRead p => Sys2Proof.Machine.execLogicRead p s
  | .adcStart p => Sys2Proof.Machine.execAdcStart p s
  | .windowArm p => Sys2Proof.Machine.execWindowArm p s
  | .windowDisarm p => Sys2Proof.Machine.execWindowDisarm p s
  | .mtrPreset p => Sys2Proof.Machine.execMtrPreset p s
  | .mtrHeatTable p => Sys2Proof.Machine.execMtrHeatTable p s
  | .mtrSave p => Sys2Proof.Machine.execMtrSave p s
  | .mtrEventWait p => Sys2Proof.Machine.execMtrEventWait p s
  | .mtrEventRead p => Sys2Proof.Machine.execMtrEventRead p s
  | .mtrEventDisarm p => Sys2Proof.Machine.execMtrEventDisarm p s
  | .canFields p => Sys2Proof.Machine.execCanFields p s
  | .canWait p => Sys2Proof.Machine.execCanWait p s
  | .canDisarm p => Sys2Proof.Machine.execCanDisarm p s
  | .canRecover p => Sys2Proof.Machine.execCanRecover p s
  | .timeRead p => Sys2Proof.Machine.execTimeRead p s
  | .timeSet p => Sys2Proof.Machine.execTimeSet p s
  | .timeAccept p => Sys2Proof.Machine.execTimeAccept p s
  | .ptpStatus p => Sys2Proof.Machine.execPtpStatus p s
  | .substWrite p => Sys2Proof.Machine.execSubstWrite p s
  | .launchQueue p => Sys2Proof.Machine.execLaunchQueue p s
  | .launchCancel p => Sys2Proof.Machine.execLaunchCancel p s
  | .trlQuery p => Sys2Proof.Machine.execTrlQuery p s
  | .redFailover p => Sys2Proof.Machine.execRedFailover p s
  | .redRevertNow p => Sys2Proof.Machine.execRedRevertNow p s
  | .redResync p => Sys2Proof.Machine.execRedResync p s
  | .grnQuery p => Sys2Proof.Machine.execGrnQuery p s
  | .grnCompact p => Sys2Proof.Machine.execGrnCompact p s
  | .grnSnapshot p => Sys2Proof.Machine.execGrnSnapshot p s
  | .grnModelRestore p => Sys2Proof.Machine.execGrnModelRestore p s
  | .grnFwWrite p => Sys2Proof.Machine.execGrnFwWrite p s
  | .evrRead p => Sys2Proof.Machine.execEvrRead p s
  | .evrClear p => Sys2Proof.Machine.execEvrClear p s
  | .evrLog p => Sys2Proof.Machine.execEvrLog p s
  | .secGenerate p => Sys2Proof.Machine.execSecGenerate p s
  | .secImport p => Sys2Proof.Machine.execSecImport p s
  | .secExport p => Sys2Proof.Machine.execSecExport p s
  | .secDelete p => Sys2Proof.Machine.execSecDelete p s
  | .secDerive p => Sys2Proof.Machine.execSecDerive p s
  | .secCipher p => Sys2Proof.Machine.execSecCipher p s
  | .secSign p => Sys2Proof.Machine.execSecSign p s
  | .secVerify p => Sys2Proof.Machine.execSecVerify p s
  | .secAttest p => Sys2Proof.Machine.execSecAttest p s
  | .secPubkey p => Sys2Proof.Machine.execSecPubkey p s
  | .secRandom p => Sys2Proof.Machine.execSecRandom p s
  | .pavDraw p => Sys2Proof.Machine.execPavDraw p s
  | .pavFlip p => Sys2Proof.Machine.execPavFlip p s
  | .pavStressRead p => Sys2Proof.Machine.execPavStressRead p s
  | .pavStressPreset p => Sys2Proof.Machine.execPavStressPreset p s
  | .rtcSet p => Sys2Proof.Machine.execRtcSet p s
  | .rtcAlarm p => Sys2Proof.Machine.execRtcAlarm p s
  | .rtcUnlock p => Sys2Proof.Machine.execRtcUnlock p s
  | .rtcTrim p => Sys2Proof.Machine.execRtcTrim p s
  | .hltRefresh p => Sys2Proof.Machine.execHltRefresh p s
  | .hltBatTest p => Sys2Proof.Machine.execHltBatTest p s
  | .sqTailDoorbell n w => Sys2Proof.Machine.execSqTailDoorbell n w s
  | .cqHeadWrite n w => Sys2Proof.Machine.execCqHeadWrite n w s
  | .updateStrobe => Sys2Proof.Machine.execUpdateStrobe s
  | .updateStrobeImmediate => Sys2Proof.Machine.execUpdateStrobeImmediate s
  | .commitAtStrobe => Sys2Proof.Machine.execCommitAtStrobe s
  | .commitNow => Sys2Proof.Machine.execCommitNow s
  | .captureNextPass => Sys2Proof.Machine.execCaptureNextPass s
  | .winBaseWrite w => Sys2Proof.Machine.execWinBaseWrite w s
  | .hostBaseWrite w => Sys2Proof.Machine.execHostBaseWrite w s
  | .rcClearingRead o => Sys2Proof.Machine.execRcClearingRead o s
  | .latchingRead o => Sys2Proof.Machine.execLatchingRead o s
  | .postedWrite o w => Sys2Proof.Machine.execPostedWrite o w s
  | .postedWriteLands b => Sys2Proof.Machine.execPostedWriteLands b s
  | .rtcCommitDatetime => Sys2Proof.Machine.execRtcCommitDatetime s
  | .rtcCommitAlarm => Sys2Proof.Machine.execRtcCommitAlarm s
  | .rtcCommitCtl => Sys2Proof.Machine.execRtcCommitCtl s
  | .rtcUnlockKey => Sys2Proof.Machine.execRtcUnlockKey s
  | .canLockBuffer n m => Sys2Proof.Machine.execCanLockBuffer n m s
  | .canReleaseBuffer n m => Sys2Proof.Machine.execCanReleaseBuffer n m s
  | .canFifoPop n k => Sys2Proof.Machine.execCanFifoPop n k s
  | .canTxreqWrite n k mask => Sys2Proof.Machine.execCanTxreqWrite n k mask s
  | .canTxabortWrite n k mask => Sys2Proof.Machine.execCanTxabortWrite n k mask s
  | .canBoffRecover n w => Sys2Proof.Machine.execCanBoffRecover n w s
  | .adcStartWrite mask => Sys2Proof.Machine.execAdcStartWrite mask s
  | .timAlarmArm n w => Sys2Proof.Machine.execTimAlarmArm n w s
  | .gpioOutWrite k w => Sys2Proof.Machine.execGpioOutWrite k w s
  | .registerWrite o w => Sys2Proof.Machine.execRegisterWrite o w s
  | .irregularRegisterAccess o narrow write => Sys2Proof.Machine.execIrregularRegisterAccess o narrow write s
  | .bar2Access x write len data => Sys2Proof.Machine.execBar2Access x write len data s
  | .spiWrite a data => Sys2Proof.Machine.execSpiWrite a data s
  | .spiRead a n => Sys2Proof.Machine.execSpiRead a n s
  | .spiStatus => Sys2Proof.Machine.execSpiStatus s
  | .spiUnknownInstruction => Sys2Proof.Machine.execSpiUnknownInstruction s
  | .functionLevelReset => Sys2Proof.Machine.execFunctionLevelReset s
  | .ringTransferFailure n completion => Sys2Proof.Machine.execRingTransferFailure n completion s
  | .msixModerationExpiry n => Sys2Proof.Machine.execMsixModerationExpiry n s
  | .launchTimedCommandStart => Sys2Proof.Machine.execLaunchTimedCommandStart s
  | .powerOnReset => Sys2Proof.Machine.execPowerOnReset s
  | .mainSupplyLoss => Sys2Proof.Machine.execMainSupplyLoss s
  | .resetNAssert => Sys2Proof.Machine.execResetNAssert s
  | .resetNRelease e => Sys2Proof.Machine.execResetNRelease e s
  | .lockstepDivergence e => Sys2Proof.Machine.execLockstepDivergence e s
  | .watchdogExpiry e => Sys2Proof.Machine.execWatchdogExpiry e s
  | .pfailNLatch => Sys2Proof.Machine.execPfailNLatch s
  | .pfailNRelease e => Sys2Proof.Machine.execPfailNRelease e s
  | .referenceLoss => Sys2Proof.Machine.execReferenceLoss s
  | .referenceRelock => Sys2Proof.Machine.execReferenceRelock s
  | .frameBoundary levels peerLow e => Sys2Proof.Machine.execFrameBoundary levels peerLow e s
  | .rePlacement => Sys2Proof.Machine.execRePlacement s
  | .shareRerun id unit => Sys2Proof.Machine.execShareRerun id unit s
  | .reSolveStart cmd => Sys2Proof.Machine.execReSolveStart cmd s
  | .guardPass olds => Sys2Proof.Machine.execGuardPass olds s
  | .paceWindowEnd raw => Sys2Proof.Machine.execPaceWindowEnd raw s
  | .avsResponse good => Sys2Proof.Machine.execAvsResponse good s
  | .governorRepeat => Sys2Proof.Machine.execGovernorRepeat s
  | .governorLower => Sys2Proof.Machine.execGovernorLower s
  | .fabricRunStart id => Sys2Proof.Machine.execFabricRunStart id s
  | .deadlineReached id => Sys2Proof.Machine.execDeadlineReached id s
  | .sheafStatusPhase id => Sys2Proof.Machine.execSheafStatusPhase id s
  | .lsqStatusPhase id => Sys2Proof.Machine.execLsqStatusPhase id s
  | .fabricNop id => Sys2Proof.Machine.execFabricNop id s
  | .loopBegin id => Sys2Proof.Machine.execLoopBegin id s
  | .loopTest id => Sys2Proof.Machine.execLoopTest id s
  | .loopEnd id => Sys2Proof.Machine.execLoopEnd id s
  | .copy id => Sys2Proof.Machine.execCopy id s
  | .fill id => Sys2Proof.Machine.execFill id s
  | .gatherMeas id => Sys2Proof.Machine.execGatherMeas id s
  | .publish id => Sys2Proof.Machine.execPublish id s
  | .axpy id => Sys2Proof.Machine.execAxpy id s
  | .dot id => Sys2Proof.Machine.execDot id s
  | .gemv id => Sys2Proof.Machine.execGemv id s
  | .gemm id => Sys2Proof.Machine.execGemm id s
  | .syrk id => Sys2Proof.Machine.execSyrk id s
  | .bpotrf id => Sys2Proof.Machine.execBpotrf id s
  | .bldlt id => Sys2Proof.Machine.execBldlt id s
  | .bgetrf id => Sys2Proof.Machine.execBgetrf id s
  | .bgeqrf id => Sys2Proof.Machine.execBgeqrf id s
  | .btrs id => Sys2Proof.Machine.execBtrs id s
  | .bresid id => Sys2Proof.Machine.execBresid id s
  | .bperm id => Sys2Proof.Machine.execBperm id s
  | .bqrApply id => Sys2Proof.Machine.execBqrApply id s
  | .potrf id => Sys2Proof.Machine.execPotrf id s
  | .trs id => Sys2Proof.Machine.execTrs id s
  | .jacEval id => Sys2Proof.Machine.execJacEval id s
  | .jtwj id => Sys2Proof.Machine.execJtwj id s
  | .blockElim id => Sys2Proof.Machine.execBlockElim id s
  | .blockBack id => Sys2Proof.Machine.execBlockBack id s
  | .lmDampDamp id => Sys2Proof.Machine.execLmDampDamp id s
  | .lmDampDecide id => Sys2Proof.Machine.execLmDampDecide id s
  | .boxProject id => Sys2Proof.Machine.execBoxProject id s
  | .extrapolate id => Sys2Proof.Machine.execExtrapolate id s
  | .tolCompare id => Sys2Proof.Machine.execTolCompare id s
  | .knownAnswer slot entry margins pass => Sys2Proof.Machine.execKnownAnswer slot entry margins pass s
  | .logicScanStart dur => Sys2Proof.Machine.execLogicScanStart dur s
  | .logicScanResume dur => Sys2Proof.Machine.execLogicScanResume dur s
  | .logicScanOverrun => Sys2Proof.Machine.execLogicScanOverrun s
  | .loopSample => Sys2Proof.Machine.execLoopSample s
  | .launchFire => Sys2Proof.Machine.execLaunchFire s
  | .setpointRepeatSend => Sys2Proof.Machine.execSetpointRepeatSend s
  | .pwmPeriodStart n => Sys2Proof.Machine.execPwmPeriodStart n s
  | .pulseOutputPulse n => Sys2Proof.Machine.execPulseOutputPulse n s
  | .pulseInputEdge n rising => Sys2Proof.Machine.execPulseInputEdge n rising s
  | .holdNChange ext sense => Sys2Proof.Machine.execHoldNChange ext sense s
  | .adcTriggerTimer n => Sys2Proof.Machine.execAdcTriggerTimer n s
  | .adcSequenceRequest => Sys2Proof.Machine.execAdcSequenceRequest s
  | .adcConversionComplete c vin vref refOk => Sys2Proof.Machine.execAdcConversionComplete c vin vref refOk s
  | .mtrSample codes => Sys2Proof.Machine.execMtrSample codes s
  | .pseudoCycle n => Sys2Proof.Machine.execPseudoCycle n s
  | .zeroCrossingLoss n => Sys2Proof.Machine.execZeroCrossingLoss n s
  | .mtrTempRead temp => Sys2Proof.Machine.execMtrTempRead temp s
  | .heatCircuitCompute c => Sys2Proof.Machine.execHeatCircuitCompute c s
  | .periodicSave => Sys2Proof.Machine.execPeriodicSave s
  | .meteringPulseDue n => Sys2Proof.Machine.execMeteringPulseDue n s
  | .canFrameReceived n id format data dur lec eights => Sys2Proof.Machine.execCanFrameReceived n id format data dur lec eights s
  | .canFrameTransmitted n dur lec exempt eights tdcv => Sys2Proof.Machine.execCanFrameTransmitted n dur lec exempt eights tdcv s
  | .canRecoveryComplete n => Sys2Proof.Machine.execCanRecoveryComplete n s
  | .canTimingTakeup n => Sys2Proof.Machine.execCanTimingTakeup n s
  | .sync h twoStep secs ns => Sys2Proof.Machine.execSync h twoStep secs ns s
  | .followUp h secs ns => Sys2Proof.Machine.execFollowUp h secs ns s
  | .announce h prio1 cls accuracy variance prio2 gm steps => Sys2Proof.Machine.execAnnounce h prio1 cls accuracy variance prio2 gm steps s
  | .announceReceiptTimeout x => Sys2Proof.Machine.execAnnounceReceiptTimeout x s
  | .delayReq h => Sys2Proof.Machine.execDelayReq h s
  | .delayResp h secs ns => Sys2Proof.Machine.execDelayResp h secs ns s
  | .pdelayReq h turn => Sys2Proof.Machine.execPdelayReq h turn s
  | .pdelayResp h twoStep => Sys2Proof.Machine.execPdelayResp h twoStep s
  | .ptpMessageTransmit port kind => Sys2Proof.Machine.execPtpMessageTransmit port kind s
  | .arpRequest port addr from_ => Sys2Proof.Machine.execArpRequest port addr from_ s
  | .telemetryDatagram port dport src dst data => Sys2Proof.Machine.execTelemetryDatagram port dport src dst data s
  | .ethernetFrameDrop port ptp => Sys2Proof.Machine.execEthernetFrameDrop port ptp s
  | .timeAlarm n => Sys2Proof.Machine.execTimeAlarm n s
  | .enumInFall up => Sys2Proof.Machine.execEnumInFall up s
  | .trellisLinkTrained down => Sys2Proof.Machine.execTrellisLinkTrained down s
  | .trellisCrcFailure down again => Sys2Proof.Machine.execTrellisCrcFailure down again s
  | .timeMark dep step delay => Sys2Proof.Machine.execTimeMark dep step delay s
  | .healthReportSend => Sys2Proof.Machine.execHealthReportSend s
  | .healthReport data hostM guestM images => Sys2Proof.Machine.execHealthReport data hostM guestM images s
  | .healthReportMissed a => Sys2Proof.Machine.execHealthReportMissed a s
  | .leaseLapse => Sys2Proof.Machine.execLeaseLapse s
  | .forwardedLaunch recs => Sys2Proof.Machine.execForwardedLaunch recs s
  | .mirrorFastPart adc win levels gpio counts => Sys2Proof.Machine.execMirrorFastPart adc win levels gpio counts s
  | .mirrorBulkPart b => Sys2Proof.Machine.execMirrorBulkPart b s
  | .mirrorLate fast => Sys2Proof.Machine.execMirrorLate fast s
  | .syncImage x => Sys2Proof.Machine.execSyncImage x s
  | .windowTraffic o write len msg => Sys2Proof.Machine.execWindowTraffic o write len msg s
  | .takeover => Sys2Proof.Machine.execTakeover s
  | .revertRequest => Sys2Proof.Machine.execRevertRequest s
  | .handoverRelease => Sys2Proof.Machine.execHandoverRelease s
  | .handover peerLow => Sys2Proof.Machine.execHandover peerLow s
  | .journalAppendCommit => Sys2Proof.Machine.execJournalAppendCommit s
  | .appendWaitTimeout => Sys2Proof.Machine.execAppendWaitTimeout s
  | .checkpointDue => Sys2Proof.Machine.execCheckpointDue s
  | .checkpointComplete => Sys2Proof.Machine.execCheckpointComplete s
  | .eventRecord => Sys2Proof.Machine.execEventRecord s
  | .remaskPass => Sys2Proof.Machine.execRemaskPass s
  | .entropyTestFailure => Sys2Proof.Machine.execEntropyTestFailure s
  | .drbgReseed => Sys2Proof.Machine.execDrbgReseed s
  | .panelFrameStart => Sys2Proof.Machine.execPanelFrameStart s
  | .panelLine => Sys2Proof.Machine.execPanelLine s
  | .stressJournal => Sys2Proof.Machine.execStressJournal s
  | .rtcSecond => Sys2Proof.Machine.execRtcSecond s
  | .trimCorrection => Sys2Proof.Machine.execTrimCorrection s
  | .oscStopDetect => Sys2Proof.Machine.execOscStopDetect s
  | .interfaceLock vaon => Sys2Proof.Machine.execInterfaceLock vaon s
  | .switchToVbat => Sys2Proof.Machine.execSwitchToVbat s
  | .switchBackToVaon => Sys2Proof.Machine.execSwitchBackToVaon s
  | .alwaysOnReset => Sys2Proof.Machine.execAlwaysOnReset s
  | .unlockReady => Sys2Proof.Machine.execUnlockReady s
  | .healthRecord => Sys2Proof.Machine.execHealthRecord s
  | .batLoadTestEnd vo vl => Sys2Proof.Machine.execBatLoadTestEnd vo vl s
  | .spiWriteLands => Sys2Proof.Machine.execSpiWriteLands s
  | .canBusIntegration n => Sys2Proof.Machine.execCanBusIntegration n s
  | .ethernetLinkChange port speed => Sys2Proof.Machine.execEthernetLinkChange port speed s
  | .nandBlockRetirement b => Sys2Proof.Machine.execNandBlockRetirement b s
  | .recorderStateAppend => Sys2Proof.Machine.execRecorderStateAppend s

end Sys2Proof.Machine
end

