-- ==== Sys2Proof/Machine/Step.lean ====
section
/-!
DEFINITION. One step of the block: the command at the front of the queue, or what the device does by itself.
-/

namespace Sys2Proof.Machine

/-- The command at the front of the queue takes effect; with an empty queue the device goes on by itself (log 2, 6). -/
def step (s : State) : Host.Outcome State Fault Refusal :=
  match s.pending with
  | c :: cs => exec c { s with pending := cs }
  | [] => .next (settle s (idle s.dev))

/-- `s` with the command that a word spells in front of its queue (log 4). -/
def State.withFetchWord (s : State) (nbits w : Nat) : State :=
  match decodeTableWord nbits w with
  | some c => { s with pending := c :: s.pending }
  | none => s

end Sys2Proof.Machine
end

