-- ==== Sys2Proof/Machine/Arbiter.lean ====
section
/-!
DEFINITION. Arbitration on the interconnect: which request a memory target grants in a round (spec/08_placement.md R210, R211).
Commands run one after another here, so that a target has one requester at a time and no credit is ever left behind: the credits
are an operand of a round, not of State (notes/assumptions/142.md).
-/

namespace Sys2Proof.Machine

/-- A request for a beat: the path of its leaf from the root of the target's tree, by child numbers, and the class of the work it
serves; class 16 stands for the capture publication of step 1 of R23 (log 142). -/
structure ArbReq where
  path : List Nat
  cls : Nat
  deriving DecidableEq, Repr

/-- The level of a class (R210). -/
def arbLevel (c : Nat) : Nat :=
  if [6, 7, 8, 9, 12, 16].contains c then 0 else if [1, 2].contains c then 1 else if [3, 4, 5].contains c then 3 else 2

/-- The order of classes within level 3: SLOT_ORDER of the frame plan in force, else 3, 4, 5. -/
def arbOrder (d : Dev) : List Nat :=
  match d.pln.fp with
  | some fp => fp.slotOrder.filter (fun c => [3, 4, 5].contains c)
  | none => [3, 4, 5]

/-- The requests that a round serves: of classes not paused, those of the highest level, and within level 3 those of its first
class (R210) (log 142). -/
def arbServed (paused : Nat → Bool) (order : List Nat) (rs : List ArbReq) : List ArbReq :=
  let act := rs.filter (fun r => !paused r.cls)
  match [0, 1, 2, 3].find? (fun l => act.any (fun r => arbLevel r.cls = l)) with
  | none => []
  | some 3 => (match order.find? (fun c => act.any (fun r => r.cls = c)) with
    | some c => act.filter (fun r => r.cls = c)
    | none => [])
  | some l => act.filter (fun r => arbLevel r.cls = l)

/-- Credits of a tree by the path of the child that holds them; a child without an entry has 0. -/
abbrev ArbCredits := List (List Nat × Int)

/-- The credit of a child. -/
def creditOf (cr : ArbCredits) (p : List Nat) : Int := ((cr.find? (fun e => e.1 = p)).map (·.2)).getD 0

/-- Active leaves beneath a child. -/
def arbWeight (act : List (List Nat)) (p : List Nat) : Nat := act.countP (fun l => p.isPrefixOf l)

/-- The children of a node with active leaves beneath them, each with its credit once its weight is added. -/
def arbKids (act : List (List Nat)) (cr : ArbCredits) (p : List Nat) : List (Nat × Int) :=
  ((List.range 64).filter (fun c => decide (arbWeight act (p ++ [c]) ≠ 0))).map
    (fun c => (c, creditOf cr (p ++ [c]) + arbWeight act (p ++ [c])))

/-- The child with the largest credit, the lowest index on ties. -/
def arbPick (ks : List (Nat × Int)) : Option Nat :=
  (ks.foldl (fun (a : Option (Nat × Int)) k => match a with
    | none => some k
    | some b => if b.2 < k.2 then some k else some b) none).map (·.1)

/-- A node grants among its children: the child picked, and the credits after it; children without active leaves lose theirs
(log 142). -/
def arbNode (act : List (List Nat)) (cr : ArbCredits) (p : List Nat) : Option Nat × ArbCredits :=
  let ks := arbKids act cr p
  match arbPick ks with
  | none => (none, cr)
  | some c =>
    let total : Nat := (ks.map (fun k => arbWeight act (p ++ [k.1]))).foldl (· + ·) 0
    let others := cr.filter (fun e => decide (e.1.length ≠ p.length + 1) || !p.isPrefixOf e.1)
    let after : ArbCredits := ks.map (fun k => (p ++ [k.1], if k.1 = c then k.2 - (total : Int) else k.2))
    (some c, others ++ after.filter (fun e => decide (e.2 ≠ 0)))

/-- A grant passes from a node to a leaf at most `n` levels below it (R211). -/
def arbDescend (act : List (List Nat)) : Nat → List Nat → ArbCredits → List Nat × ArbCredits
  | 0, p, cr => (p, cr)
  | n + 1, p, cr =>
    match arbNode act cr p with
    | (none, _) => (p, cr)
    | (some c, cr1) => if act.contains (p ++ [c]) then (p ++ [c], cr1) else arbDescend act n (p ++ [c]) cr1

/-- A round of a target: the leaf granted, if any requests, and the credits after it (log 142). -/
def arbRound (paused : Nat → Bool) (order : List Nat) (rs : List ArbReq) (cr : ArbCredits) : Option (List Nat) × ArbCredits :=
  let act := ((arbServed paused order rs).map (·.path)).dedup
  if act.isEmpty then (none, cr)
  else
    let o := arbDescend act 8 [] cr
    (some o.1, o.2)

/-- The leaves granted in n rounds of the same requests. -/
def arbRounds (paused : Nat → Bool) (order : List Nat) (rs : List ArbReq) : Nat → ArbCredits → List (List Nat)
  | 0, _ => []
  | n + 1, cr =>
    let o := arbRound paused order rs cr
    o.1.toList ++ arbRounds paused order rs n o.2

/-- The path of a cluster's tile engine: the fabric branch, its quadrant, its place there (log 142). -/
def fabricPath (k : Nat) : List Nat :=
  if k < 9 then [0, 0, k] else if k < 18 then [0, 1, k - 9] else if k < 26 then [0, 2, k - 18] else [0, 3, k - 26]

end Sys2Proof.Machine
end

