-- ==== Sys2Proof/Safety.lean ====
section
/-!
DEFINITION. The terms in which claims about the block are stated: when a packet starts, the device at that moment, a state
between two commands, the invariant of memory and of the write log.
-/

namespace Sys2Proof.Machine

/-- The packet's launch-time flag makes it wait (R60); a TRACE_ARM with TRIG 6 uses its time otherwise (R296). -/
def waitsLaunch (sp : OpSpec) (p : Pkt) : Bool :=
  decide (bitAt p.flags.toNat 1 = true ∧ p.launchTime.toNat ≠ 0 ∧
    (!(decide (sp.opcode = 0x0807) && decide (bits (param p 1) 19 16 = 6))) = true)

/-- The device with the packet's entry in its submission ring (R45). -/
def placed (sp : OpSpec) (p : Pkt) (s : State) : Dev := placeEntry p (stageMirror sp p s.dev)

/-- The device when the packet's entry has been fetched (R45, R53). -/
def fetched (sp : OpSpec) (p : Pkt) (s : State) : Dev := fetch p (placed sp p s)

/-- The device when the packet's own effect begins: fetched, accepted, and what its input buffer covers of the register mirror
read. -/
def begun (sp : OpSpec) (p : Pkt) (s : State) : Dev :=
  mirrored sp (fun _ _ d => d) 0 p (noteAccepted sp p (fetched sp p s))

/-- The packet's entry is the next one of a ring that the device serves, is held back by no fence, link or serial order, is not
cancelled by the command linked to it (R45, R56–R58), and carries the row's opcode. -/
def reaches (sp : OpSpec) (p : Pkt) (s : State) : Bool :=
  let d := stageMirror sp p s.dev
  takesEntry d (ringN p) && decide ((ringOf d (ringN p)).filled = 0) && fetchable (placed sp p s) p &&
  !linkFailed (ringOf (placed sp p s) (ringN p)) && decide (p.opcode.toNat = sp.opcode)

/-- It also passes acceptance checks 2 to 6 (R53) and does not wait for a launch time (R60): its own effect begins. -/
def starts (sp : OpSpec) (p : Pkt) (s : State) : Bool :=
  reaches sp p s && (accept sp p (fetched sp p s)).isNone && !waitsLaunch sp p

/-- The journal takes a record of this type and length: it refuses none and the record fits beside the reserve (R431). -/
def journalTakes (d : Dev) (type len : Nat) : Prop :=
  d.grn.refuse = false ∧ retainedBytes d.grn + queuedBytes d.grn + jBytes type len ≤ jRing - jReserve

/-- Run `id` stands at a record of kernel `code` whose turn it is, and its class pays now what the record still needs (R139, R145,
R155–R157). -/
def recordReady (d : Dev) (code id : Nat) (cond : KRec → Bool) (r : Run) : Prop :=
  findRun d id = some r ∧ recordEnds d r code cond = true

/-- A command that is an entry of a submission ring: its opcode's checks and its packet (R50, R53). -/
def packetOf : Instr → Option (OpSpec × Pkt)
  | .identify p => some (specIdentify, p)
  | .getMode p => some (specGetMode, p)
  | .setMode p => some (specSetMode, p)
  | .readState p => some (specReadState, p)
  | .fence p => some (specFence, p)
  | .echo p => some (specEcho, p)
  | .getCounters p => some (specGetCounters, p)
  | .setFrame p => some (specSetFrame, p)
  | .ringConfig p => some (specRingConfig, p)
  | .ringReset p => some (specRingReset, p)
  | .classBudget p => some (specClassBudget, p)
  | .classQuery p => some (specClassQuery, p)
  | .modelWriteObjects p => some (specModelWriteObjects, p)
  | .modelWriteMeas p => some (specModelWriteMeas, p)
  | .modelCommit p => some (specModelCommit, p)
  | .modelRead p => some (specModelRead, p)
  | .modelDiscard p => some (specModelDiscard, p)
  | .measWriteValues p => some (specMeasWriteValues, p)
  | .modelSignature p => some (specModelSignature, p)
  | .planLoad p => some (specPlanLoad, p)
  | .planUnload p => some (specPlanUnload, p)
  | .planQuery p => some (specPlanQuery, p)
  | .planBound p => some (specPlanBound, p)
  | .planPolicy p => some (specPlanPolicy, p)
  | .placeQuery p => some (specPlaceQuery, p)
  | .placeRebuild p => some (specPlaceRebuild, p)
  | .placePredict p => some (specPlacePredict, p)
  | .sheafSubmit p => some (specSheafSubmit, p)
  | .sheafCancel p => some (specSheafCancel, p)
  | .sheafQuery p => some (specSheafQuery, p)
  | .lsqSubmit p => some (specLsqSubmit, p)
  | .lsqCancel p => some (specLsqCancel, p)
  | .lsqQuery p => some (specLsqQuery, p)
  | .raConfig p => some (specRaConfig, p)
  | .raInputs p => some (specRaInputs, p)
  | .raForecast p => some (specRaForecast, p)
  | .raExtrapolate p => some (specRaExtrapolate, p)
  | .raSquash p => some (specRaSquash, p)
  | .raQuery p => some (specRaQuery, p)
  | .loopWrite p => some (specLoopWrite, p)
  | .loopRetune p => some (specLoopRetune, p)
  | .loopEnable p => some (specLoopEnable, p)
  | .spWrite p => some (specSpWrite, p)
  | .spMap p => some (specSpMap, p)
  | .spPublish p => some (specSpPublish, p)
  | .traceArm p => some (specTraceArm, p)
  | .traceRead p => some (specTraceRead, p)
  | .logicLoad p => some (specLogicLoad, p)
  | .logicWordWrite p => some (specLogicWordWrite, p)
  | .logicPatch p => some (specLogicPatch, p)
  | .logicVarsWrite p => some (specLogicVarsWrite, p)
  | .logicClear p => some (specLogicClear, p)
  | .logicAck p => some (specLogicAck, p)
  | .logicRead p => some (specLogicRead, p)
  | .adcStart p => some (specAdcStart, p)
  | .windowArm p => some (specWindowArm, p)
  | .windowDisarm p => some (specWindowDisarm, p)
  | .mtrPreset p => some (specMtrPreset, p)
  | .mtrHeatTable p => some (specMtrHeatTable, p)
  | .mtrSave p => some (specMtrSave, p)
  | .mtrEventWait p => some (specMtrEventWait, p)
  | .mtrEventRead p => some (specMtrEventRead, p)
  | .mtrEventDisarm p => some (specMtrEventDisarm, p)
  | .canFields p => some (specCanFields, p)
  | .canWait p => some (specCanWait, p)
  | .canDisarm p => some (specCanDisarm, p)
  | .canRecover p => some (specCanRecover, p)
  | .timeRead p => some (specTimeRead, p)
  | .timeSet p => some (specTimeSet, p)
  | .timeAccept p => some (specTimeAccept, p)
  | .ptpStatus p => some (specPtpStatus, p)
  | .substWrite p => some (specSubstWrite, p)
  | .launchQueue p => some (specLaunchQueue, p)
  | .launchCancel p => some (specLaunchCancel, p)
  | .trlQuery p => some (specTrlQuery, p)
  | .redFailover p => some (specRedFailover, p)
  | .redRevertNow p => some (specRedRevertNow, p)
  | .redResync p => some (specRedResync, p)
  | .grnQuery p => some (specGrnQuery, p)
  | .grnCompact p => some (specGrnCompact, p)
  | .grnSnapshot p => some (specGrnSnapshot, p)
  | .grnModelRestore p => some (specGrnModelRestore, p)
  | .grnFwWrite p => some (specGrnFwWrite, p)
  | .evrRead p => some (specEvrRead, p)
  | .evrClear p => some (specEvrClear, p)
  | .evrLog p => some (specEvrLog, p)
  | .secGenerate p => some (specSecGenerate, p)
  | .secImport p => some (specSecImport, p)
  | .secExport p => some (specSecExport, p)
  | .secDelete p => some (specSecDelete, p)
  | .secDerive p => some (specSecDerive, p)
  | .secCipher p => some (specSecCipher, p)
  | .secSign p => some (specSecSign, p)
  | .secVerify p => some (specSecVerify, p)
  | .secAttest p => some (specSecAttest, p)
  | .secPubkey p => some (specSecPubkey, p)
  | .secRandom p => some (specSecRandom, p)
  | .pavDraw p => some (specPavDraw, p)
  | .pavFlip p => some (specPavFlip, p)
  | .pavStressRead p => some (specPavStressRead, p)
  | .pavStressPreset p => some (specPavStressPreset, p)
  | .rtcSet p => some (specRtcSet, p)
  | .rtcAlarm p => some (specRtcAlarm, p)
  | .rtcUnlock p => some (specRtcUnlock, p)
  | .rtcTrim p => some (specRtcTrim, p)
  | .hltRefresh p => some (specHltRefresh, p)
  | .hltBatTest p => some (specHltBatTest, p)
  | _ => none

/-- Commands whose effect stores no byte of memory and completes no other command. -/
def storesNothing : Instr → Bool
  | .updateStrobe | .commitAtStrobe | .captureNextPass | .winBaseWrite _ | .hostBaseWrite _ => true
  | .canLockBuffer _ _ | .canReleaseBuffer _ _ | .canFifoPop _ _ | .canTimingTakeup _ => true
  | .timAlarmArm _ _ | .adcStartWrite _ | .pwmPeriodStart _ | .pulseInputEdge _ _ | .holdNChange _ _ => true
  | .spiWrite _ _ | .spiStatus | .spiUnknownInstruction => true
  | .announce _ _ _ _ _ _ _ _ | .delayReq _ | .delayResp _ _ _ | .pdelayReq _ _ | .pdelayResp _ _ => true
  | .ptpMessageTransmit _ _ | .arpRequest _ _ _ | .telemetryDatagram _ _ _ _ _ => true
  | .ethernetFrameDrop _ _ | .ethernetLinkChange _ _ => true
  | .referenceLoss | .referenceRelock | .drbgReseed | .entropyTestFailure => true
  | .trimCorrection | .switchBackToVaon | .unlockReady | .oscStopDetect => true
  | _ => false

/-- Network commands that change only the network's own state, registers and counters. -/
def netOnly : Instr → Bool
  | .announce _ _ _ _ _ _ _ _ | .delayReq _ | .delayResp _ _ _ | .pdelayReq _ _ | .pdelayResp _ _ => true
  | .ptpMessageTransmit _ _ | .arpRequest _ _ _ | .ethernetFrameDrop _ _ | .ethernetLinkChange _ _ => true
  | _ => false

/-- Events of the always-on domain that change only the clock, registers, the recorder and counters. -/
def clockOnly : Instr → Bool
  | .trimCorrection | .switchBackToVaon | .unlockReady | .oscStopDetect => true
  | _ => false

/-- Between two commands the write log is empty (R53: a command's stores are done when it completes). -/
def noLog (s : State) : Prop := s.dev.wr = []

/-- No RING_RESET is under way, so the end of a command completes none (R72). -/
def noReset (s : State) : Prop := s.dev.cmd.resetting = []

/-- What every step keeps: memory and the tables of registers and rings in canonical form, and an empty write log. -/
def Inv (s : State) : Prop :=
  Memory.wf s.dev.mem = true ∧ s.dev.wr = [] ∧ smWf none s.dev.rg.present = true ∧ smWf none s.dev.rg.applied = true ∧
  smWf Ring.reset s.dev.cmd.rings = true

end Sys2Proof.Machine
end

