-- ==== Sys2Proof/Certificates/Slice0/Obligations.lean ====
section
/-!
DEFINITION. The statements about the ISV-9420 model, for the provers.
-/

section

open Sys2Proof Sys2Proof.Machine

/-- Completion of IDENTIFY, GET_MODE, ECHO, GET_COUNTERS and SET_FRAME: results, buffer and the change each makes
(R67, R68, R70, R158). -/
def Rows.IdentityAndCounterRowsComplete : Prop := ∀ (p : Pkt) (s : State),
  (starts specIdentify p s = true →
    let d := begun specIdentify p s
    exec (.identify p) s = .next (settle s (complete s.dev.cmd.nextId
      (ok 0x94201FB3 (ownAddr d <<< 8 + 0xB1) d.sys.fwVersion 0)
      (if bufL p = 0 then d else wrBytes (bufA p) (identityBlock d) d)))) ∧
  (starts specGetMode p s = true →
    let d := begun specGetMode p s
    exec (.getMode p) s = .next (settle s (complete s.dev.cmd.nextId
      (ok ((if d.sys.degraded then 8 else 0) + d.sys.mode.code) d.thr.band (now d % 2 ^ 32) (now d / 2 ^ 32)) d))) ∧
  (starts specEcho p s = true →
    exec (.echo p) s = .next (settle s (complete s.dev.cmd.nextId
      (ok (param p 0) (param p 1) (param p 2) (param p 3)) (begun specEcho p s)))) ∧
  (starts specGetCounters p s = true →
    let d := begun specGetCounters p s
    let g := param p 0
    let n := min (counterCount g) (bufL p / 8)
    let d1 := wrBytes (bufA p) ((List.range n).flatMap (fun i => leBytes 8 (ctr d g i).toNat)) d
    exec (.getCounters p) s = .next (settle s (complete s.dev.cmd.nextId
      ⟨if n < counterCount g then 0x0001 else 0x0000, 0, counterCount g, n, 0, 0⟩
      (if param p 1 % 2 = 1 then
        { d1 with cmd.counters := (List.range n).foldl (fun m i => smSet 0 m (0x1000 * g + i) 0) d1.cmd.counters }
       else d1)))) ∧
  (starts specSetFrame p s = true →
    let d := begun specSetFrame p s
    let e := frameEffect d.sys.frameLen (param p 0) (now d)
    exec (.setFrame p) s = .next (settle s (complete s.dev.cmd.nextId (ok (lo32 e) (hi32 e) 0 0)
      { d with sys.frameNew := some ⟨param p 0, e⟩ })))

/-- Completion of SET_MODE in its three forms: the present mode (at once), HOLD (at once), another mode (at the next boundary)
(R97, R98). -/
def Rows.SetModeCompletes : Prop := ∀ (p : Pkt) (s : State), starts specSetMode p s = true →
  let d := begun specSetMode p s
  (param p 0 = d.sys.mode.code →
    exec (.setMode p) s = .next (settle s (complete s.dev.cmd.nextId (ok 0 0 0 0) d))) ∧
  (param p 0 = 6 → d.sys.mode.code ≠ 6 →
    exec (.setMode p) s = .next (settle s (complete s.dev.cmd.nextId (ok 0 0 0 0) (enterMode .hold 1 d)))) ∧
  (param p 0 ≠ d.sys.mode.code → param p 0 ≠ 6 → d.sys.modeReq = none →
    exec (.setMode p) s = .next (settle s
      { d with sys.modeReq := some ⟨Mode.ofCode (param p 0), s.dev.cmd.nextId, p.launchTime.toNat⟩ }))

/-- Completion of READ_STATE and FENCE: a snapshot of at most 4,096 bytes is taken at once and a larger one at the boundary;
a fence completes once every earlier command it covers has (R69, R115). -/
def Rows.ReadStateAndFenceComplete : Prop := ∀ (p : Pkt) (s : State),
  (starts specReadState p s = true →
    let d := begun specReadState p s
    let n := (stateSize (param p 0)).getD 0
    (4096 < n → exec (.readState p) s = .next (settle s { d with cmd.snaps := d.cmd.snaps ++ [s.dev.cmd.nextId] })) ∧
    (n ≤ 4096 → exec (.readState p) s = .next (settle s (readStateNow s.dev.cmd.nextId p d)))) ∧
  (starts specFence p s = true →
    let d := begun specFence p s
    ∀ c, findCmd d s.dev.cmd.nextId = some c →
      (fenceDone d c = true →
        exec (.fence p) s = .next (settle s (complete s.dev.cmd.nextId (ok 0 0 0 0) d))) ∧
      (fenceDone d c = false → exec (.fence p) s = .next (settle s d)))

/-- Completion of RING_CONFIG and RING_RESET: the ring's parameters, indices and phase; the cancelled commands (R71, R72). -/
def Rows.RingRowsComplete : Prop := ∀ (p : Pkt) (s : State),
  (starts specRingConfig p s = true →
    let d := begun specRingConfig p s
    let w := param p 1
    let r := { freshRing (ringOf d (param p 0)) with lost := false, lastMsg := none }
    (bitAt w 31 = true →
      exec (.ringConfig p) s = .next (settle s (complete s.dev.cmd.nextId (ok 0 0 0 0)
        (setRing (param p 0)
          { r with st := .active, loc := decide (ringPlace (param64 p 2) (64 * 2 ^ bits w 3 0) = some 1), cls := bits w 7 4,
                   log2 := bits w 3 0, sqBase := param64 p 2, cqBase := param64 p 4, modUs := bits w 25 16,
                   intMode := bits w 9 8 } d)))) ∧
    (bitAt w 31 = false →
      exec (.ringConfig p) s = .next (settle s (complete s.dev.cmd.nextId (ok 0 0 0 0)
        (setRing (param p 0)
          { r with st := .disabled, loc := false, cls := 0, log2 := 0, sqBase := 0, cqBase := 0, modUs := 0,
                   intMode := 0 } d))))) ∧
  (starts specRingReset p s = true →
    let d := begun specRingReset p s
    let n := param p 0
    ((ringOf d n).st = .disabled →
      exec (.ringReset p) s = .next (settle s (complete s.dev.cmd.nextId (ok 0 0 0 0) d))) ∧
    ((ringOf d n).st ≠ .disabled →
      let ids := unstarted d n
      let arms := (d.adc.arms.filter (fun a => ((findCmd d a.1).map (fun c => decide (c.pkt.ring.val = n))).getD false)).map (·.1)
      let d1 := ids.foldl cancelUnstarted (modRing n (fun r => { r with st := .resetting }) d)
      let d2 := cancelCmds { d1 with adc.arms := d1.adc.arms.filter (fun a => !arms.contains a.1) } arms
      exec (.ringReset p) s = .next (settle s
        { d2 with cmd.resetting := d2.cmd.resetting ++ [(s.dev.cmd.nextId, n, ids.length)] })))

/-- Completion of CLASS_BUDGET and CLASS_QUERY (R146, R147): an admitted amendment waits for its boundary. -/
def Rows.ClassRowsComplete : Prop := ∀ (p : Pkt) (s : State),
  (starts specClassBudget p s = true →
    let d := begun specClassBudget p s
    let fc : FloorCeil := ⟨param p 2, param p 3⟩
    ∀ fp u, d.pln.fp = some fp → rowOk (param p 0) (currencyOf (param p 1)) fc = true →
      admission d (amendPlan fp (param p 0) (param p 1) fc) = .inr u →
      exec (.classBudget p) s = .next (settle s
        { d with pln.wait := some (.cls s.dev.cmd.nextId (param p 0) (param p 1) fc p.launchTime.toNat) })) ∧
  (starts specClassQuery p s = true →
    let d := begun specClassQuery p s
    let c := param p 0
    exec (.classQuery p) s = .next (settle s (complete s.dev.cmd.nextId
      (ok (lo32 (smGet 0 d.pln.pauses c)) (budClsStat d c) 0 0)
      (if bufL p = 0 then d else wrBytes (bufA p) (budgetRecord d c) d))))

/-! ### Model, plans, placement -/

/-- Completion of the rows of group 0x02 that write, read or discard the staged model and the measurement list
(R121–R124, R133–R135). -/
def Rows.ModelRowsComplete : Prop := ∀ (p : Pkt) (s : State),
  (starts specModelWriteObjects p s = true →
    let d := begun specModelWriteObjects p s
    exec (.modelWriteObjects p) s = .next (settle s (complete s.dev.cmd.nextId (ok 0 0 0 0)
      { d with
        mdl.stagedObjs := smPutList NetObj.empty d.mdl.stagedObjs (param p 0)
          ((List.range (param p 1)).map (fun i => objOfBytes (rdBytes d (bufA p + 64 * i) 64))) }))) ∧
  (starts specModelWriteMeas p s = true →
    let d := begun specModelWriteMeas p s
    exec (.modelWriteMeas p) s = .next (settle s (complete s.dev.cmd.nextId (ok 0 0 0 0)
      { d with
        mdl.stagedMeas := smPutList MeasDesc.unused d.mdl.stagedMeas (param p 0)
          ((List.range (param p 1)).map (fun i => measOfBytes (rdBytes d (bufA p + 32 * i) 32))) }))) ∧
  (starts specModelRead p s = true →
    let d := begun specModelRead p s
    let entry (i : Nat) : List Byte :=
      match param p 0 with
      | 0 => objBytes (objAt d.mdl.com.objs i)
      | 1 => measBytes (measAt d.mdl.com.meas i) ++ valBytes (valAt d d.mdl.newest i)
      | 2 => objBytes (objAt d.mdl.stagedObjs i)
      | _ => measBytes (measAt d.mdl.stagedMeas i) ++ List.replicate 32 (0 : Byte)
    let bs := (List.range (param p 2)).flatMap (fun i => entry (param p 1 + i))
    param p 0 ≤ 3 →
    exec (.modelRead p) s = .next (settle s (complete s.dev.cmd.nextId (ok bs.length 0 0 0) (wrBytes (bufA p) bs d)))) ∧
  (starts specModelDiscard p s = true →
    let d := begun specModelDiscard p s
    exec (.modelDiscard p) s = .next (settle s (complete s.dev.cmd.nextId (ok 0 0 0 0)
      { d with mdl.stagedObjs := d.mdl.com.objs, mdl.stagedMeas := d.mdl.com.meas }))) ∧
  (starts specMeasWriteValues p s = true →
    let d := begun specMeasWriteValues p s
    let recs := (List.range (param p 0)).map (fun i =>
      let b := rdBytes d (bufA p + 24 * i) 24
      (⟨fieldLE b 0 4, fieldLE b 8 8, fieldLE b 16 8⟩ : HostVal))
    let good := recs.filter (fun h => decide (h.index < 65536 ∧ (measAt d.mdl.com.meas h.index).quantity ≠ 0 ∧
      (measAt d.mdl.com.meas h.index).source = 0))
    let bad := param p 0 - good.length
    exec (.measWriteValues p) s = .next (settle s (complete s.dev.cmd.nextId (ok bad 0 0 0)
      (bump 2 6 bad { d with mdl.hostVals := d.mdl.hostVals ++ good })))) ∧
  (starts specModelSignature p s = true →
    let d := begun specModelSignature p s
    exec (.modelSignature p) s = .next (settle s (complete s.dev.cmd.nextId
      (ok (lo32 (sigStaged d)) (hi32 (sigStaged d)) 0 0) d)))

/-- Completion of MODEL_COMMIT: a staged model without a fault waits for its boundary (R130, R131). -/
def Rows.ModelCommitCompletes : Prop := ∀ (p : Pkt) (s : State), starts specModelCommit p s = true →
  let d := begun specModelCommit p s
  modelFault d = none →
  exec (.modelCommit p) s = .next (settle s
    { d with mdl.wait := some ⟨s.dev.cmd.nextId, p.launchTime.toNat, structuralStaged d⟩ })

/-- Completion of PLAN_LOAD of an image: placed in its slot, its bytes in the slot's store (R165, R166, R199); and of a frame
plan: it waits for its boundary (R151–R153). -/
def Rows.PlanLoadCompletes : Prop := ∀ (p : Pkt) (s : State), starts specPlanLoad p s = true →
  let d := begun specPlanLoad p s
  let b := rdBytes d (bufA p) (bufL p)
  (∀ d2, param p 0 = 0 → imageFault d (pktClass p d) b (bufL p) true = none →
    placeInto (param p 1) (planOfBytes b) (chargePlacement (planOfBytes b) (if allEmpty d then latchSizes d else d)) = .inr d2 →
    let d3 := { d2 with
      pln.slots := smSet PSlot.empty d2.pln.slots (param p 1) ⟨some (planOfBytes b), now d, d2.pln.loads + 1⟩,
      pln.loads := d2.pln.loads + 1 }
    let d4 := wrBytes (0x4000000 * param p 1) (sliceB b 0 (planOfBytes b).imageLen) d3
    exec (.planLoad p) s = .next (settle s (complete s.dev.cmd.nextId
      (ok (planOfBytes b).planId (slotState d4 (param p 1)) 0 0) (bump 3 0 1 d4)))) ∧
  (∀ u, param p 0 = 1 → framePlanFault d (pktClass p d) b (bufL p) = none → framePlanAdmit d (framePlanOf b) = .inr u →
    exec (.planLoad p) s = .next (settle s
      { d with pln.wait := some (.plan s.dev.cmd.nextId (framePlanOf b) p.launchTime.toNat u) }))

/-- Completion of the other rows of group 0x03: PLAN_UNLOAD, PLAN_QUERY, PLAN_BOUND, and PLAN_POLICY, whose record is queued
for the journal and completes it at its commit (R166, R167, R431). -/
def Rows.PlanRowsComplete : Prop := ∀ (p : Pkt) (s : State),
  (starts specPlanUnload p s = true →
    let d := begun specPlanUnload p s
    exec (.planUnload p) s = .next (settle s (complete s.dev.cmd.nextId (ok 0 0 0 0)
      (releaseSlot (param p 0) { d with pln.slots := smSet PSlot.empty d.pln.slots (param p 0) PSlot.empty })))) ∧
  (starts specPlanQuery p s = true →
    let d := begun specPlanQuery p s
    (∀ pl, planIn d (param p 0) = some pl →
      exec (.planQuery p) s = .next (settle s (complete s.dev.cmd.nextId
        (ok pl.planId (slotState d (param p 0) + 256 * pl.entries.length) (lo32 pl.structSig) (hi32 pl.structSig)) d))) ∧
    (planIn d (param p 0) = none →
      exec (.planQuery p) s = .next (settle s (complete s.dev.cmd.nextId (ok 0 0 0 0) d)))) ∧
  (starts specPlanBound p s = true →
    let d := begun specPlanBound p s
    ∀ pl, planIn d (param p 0) = some pl → param p 1 < pl.entries.length →
      let w := (entryAt pl (param p 1)).wcPath
      let t := ceilDiv (1000 * w) (bandRate (if param p 2 = 0xFF then d.thr.band else param p 2))
      exec (.planBound p) s = .next (settle s (complete s.dev.cmd.nextId (ok (lo32 w) (hi32 w) (lo32 t) (hi32 t)) d))) ∧
  (starts specPlanPolicy p s = true →
    let d := begun specPlanPolicy p s
    journalTakes d 0x0A 4 →
    exec (.planPolicy p) s = .next (settle s
      { d with grn.queue := d.grn.queue ++
        [⟨0x0A, 0, [param p 0 % 2, b2n (bitAt (param p 0) 1 || d.pln.lock), param p 1], 4,
          some ⟨s.dev.cmd.nextId, 0, 0, 0, 0, 0⟩, false, none⟩] }))

/-- Completion of PLACE_QUERY, PLACE_REBUILD and PLACE_PREDICT (R207–R209). -/
def Rows.PlaceRowsComplete : Prop := ∀ (p : Pkt) (s : State),
  (starts specPlaceQuery p s = true →
    let d := begun specPlaceQuery p s
    let t := param p 0
    exec (.placeQuery p) s = .next (settle s (complete s.dev.cmd.nextId
      (ok (slotHomes d t).length
        (b2n ((planIn d t).isSome && !unplacedSlot d t) + 2 * b2n (unplacedSlot d t))
        (lo32 (plcDigest d)) (hi32 (plcDigest d)))
      (if bufL p = 0 then d else wrBytes (bufA p) (slotRecord d t) d)))) ∧
  (starts specPlaceRebuild p s = true →
    let d := begun specPlaceRebuild p s
    exec (.placeRebuild p) s = .next (settle s
      { d with plc.rebuild := some s.dev.cmd.nextId, plc.replacePend := true })) ∧
  (starts specPlacePredict p s = true →
    let d := begun specPlacePredict p s
    let b := rdBytes d (bufA p) (bufL p)
    let t := param p 0
    let d1 := releaseSlot t d
    let env : PlaceEnv := ⟨t, planOfBytes b, (if allEmpty d then (latchSizes d).plc.sizes else d.plc.sizes), nEff d⟩
    imageFault d 0 b (bufL p) false = none →
    let start := if poolsEmpty d1.plc.homes = true then 0 else d1.plc.widthSum
    (∀ x, placeSlot d1 env start d1.plc.homes = .inl x →
      exec (.placePredict p) s = .next (settle s (complete s.dev.cmd.nextId (ok x.detail 0 0 0) d))) ∧
    (∀ hs c w, placeSlot d1 env start d1.plc.homes = .inr (hs, c, w) →
      let own := hs.filter (fun h => h.slot = t)
      exec (.placePredict p) s = .next (settle s (complete s.dev.cmd.nextId
        (ok 0 (ceilDiv (poolBytes own 1) 1024) (ceilDiv (poolBytes own 2 + poolBytes own 3) 0x100000)
          (((own.filter (fun h => h.home = 0)).map (fun h => 64 * h.len)).foldl max 0)) d))))

/-! ### Submissions and run-ahead -/

/-- Completion of SHEAF_SUBMIT, LSQ_SUBMIT and RA_EXTRAPOLATE: the run is queued (R216, R241, R257). -/
def Rows.SubmitRowsComplete : Prop := ∀ (p : Pkt) (s : State),
  (starts specSheafSubmit p s = true →
    let d := begun specSheafSubmit p s
    exec (.sheafSubmit p) s = .next (settle s
      (addRun (newRun .sheaf s.dev.cmd.nextId p d.pln.nextRun d) { d with shf := d.shf ++ [newSheaf d.pln.nextRun p d] }))) ∧
  (starts specLsqSubmit p s = true →
    let d := begun specLsqSubmit p s
    exec (.lsqSubmit p) s = .next (settle s
      (addRun (newRun .lsq s.dev.cmd.nextId p d.pln.nextRun d)
        { d with lsq.runs := d.lsq.runs ++ [newLsq d.pln.nextRun p d] }))) ∧
  (starts specRaExtrapolate p s = true →
    let d := begun specRaExtrapolate p s
    exec (.raExtrapolate p) s = .next (settle s
      (addRun (newRun .extrapolate s.dev.cmd.nextId p d.pln.nextRun d) d)))

/-- Completion of the cancel and query rows of groups 0x05 and 0x06: the outstanding submission they name (R217, R218, R242). -/
def Rows.RunCancelAndQueryComplete : Prop := ∀ (p : Pkt) (s : State),
  (starts specSheafCancel p s = true →
    let d := begun specSheafCancel p s
    ∀ c, outstanding d 0x0501 (param p 0) (param p 1) = some c →
      (∀ r, runOfCmd d c.id = some r →
        exec (.sheafCancel p) s = .next (settle s (complete s.dev.cmd.nextId
          (ok (if r.phase = .queued then 0 else 1) 0 0 0) (endRun r (refuse 0x0019 0) d)))) ∧
      (runOfCmd d c.id = none →
        exec (.sheafCancel p) s = .next (settle s (complete s.dev.cmd.nextId (ok 0 0 0 0)
          (commitReady (complete c.id (refuse 0x0019 0) d)))))) ∧
  (starts specLsqCancel p s = true →
    let d := begun specLsqCancel p s
    ∀ c, outstanding d 0x0601 (param p 0) (param p 1) = some c →
      (∀ r, runOfCmd d c.id = some r →
        exec (.lsqCancel p) s = .next (settle s (complete s.dev.cmd.nextId
          (ok (if r.phase = .queued then 0 else 1) 0 0 0) (endRun r (refuse 0x0019 0) d)))) ∧
      (runOfCmd d c.id = none →
        exec (.lsqCancel p) s = .next (settle s (complete s.dev.cmd.nextId (ok 0 0 0 0)
          (commitReady (complete c.id (refuse 0x0019 0) d)))))) ∧
  (starts specSheafQuery p s = true →
    let d := begun specSheafQuery p s
    ∀ c, outstanding d 0x0501 (param p 0) (param p 1) = some c →
      (∀ r, runOfCmd d c.id = some r →
        exec (.sheafQuery p) s = .next (settle s (complete s.dev.cmd.nextId
          (ok r.idx (65536 * (r.passes % 65536) + runPhase d r) (lo32 r.path) (hi32 r.path)) d))) ∧
      (runOfCmd d c.id = none →
        exec (.sheafQuery p) s = .next (settle s (complete s.dev.cmd.nextId (ok 0 (b2n (decide (c.phase ≠ .waiting))) 0 0) d)))) ∧
  (starts specLsqQuery p s = true →
    let d := begun specLsqQuery p s
    ∀ c, outstanding d 0x0601 (param p 0) (param p 1) = some c →
      (∀ r, runOfCmd d c.id = some r →
        exec (.lsqQuery p) s = .next (settle s (complete s.dev.cmd.nextId
          (ok r.idx (65536 * (r.passes % 65536) + runPhase d r) (lo32 r.path) (hi32 r.path)) d))) ∧
      (runOfCmd d c.id = none →
        exec (.lsqQuery p) s = .next (settle s (complete s.dev.cmd.nextId (ok 0 (b2n (decide (c.phase ≠ .waiting))) 0 0) d))))

/-- Completion of RA_CONFIG, RA_INPUTS, RA_FORECAST, RA_SQUASH and RA_QUERY (R259–R277). RA_CONFIG completes when it is
accepted: log 12, the model's reading. -/
def Rows.RunAheadRowsComplete : Prop := ∀ (p : Pkt) (s : State),
  (starts specRaConfig p s = true →
    let d := begun specRaConfig p s
    exec (.raConfig p) s = .next (settle s (complete s.dev.cmd.nextId (ok (lo32 (nextBoundary d)) (hi32 (nextBoundary d)) 0 0)
      { d with ra.newCfg := some (bits (param p 0) 15 0, bits (param p 0) 18 16, param64 p 2) }))) ∧
  (starts specRaInputs p s = true →
    let d := begun specRaInputs p s
    exec (.raInputs p) s = .next (settle s (complete s.dev.cmd.nextId (ok 0 0 0 0)
      { d with ra.inputs := loadInputs (param p 0) (raRecords p d) d.ra.inputs }))) ∧
  (starts specRaForecast p s = true →
    let d := begun specRaForecast p s
    let b := rdBytes d (bufA p) (bufL p)
    ∀ q, periodOf d (param64 p 0) = some q →
      let o := (List.range (param p 2)).foldl (fun (acc : Nat × Dev) k =>
        if fieldLE b (16 * k) 4 < 4096 ∧ (inputAt acc.2 (fieldLE b (16 * k) 4)).mode = 1 ∧
            fIsFin f64 (fieldLE b (16 * k + 8) 8) = true then
          (acc.1, setAssumed q.slot (fieldLE b (16 * k) 4) (fieldLE b (16 * k + 8) 8) acc.2)
        else (acc.1 + 1, acc.2)) (0, d)
      exec (.raForecast p) s = .next (settle s (complete s.dev.cmd.nextId (ok o.1 0 0 0) o.2))) ∧
  (starts specRaSquash p s = true →
    let d := begun specRaSquash p s
    let ps := d.ra.periods.filter (fun q => !q.commitWait && decide (param64 p 0 ≤ q.n))
    let runs := ps.foldl (fun k q => k + ((specRuns d q.n).filter (fun r => r.phase ≠ .queued)).length + q.ended.length +
      (specResolves d q.n).length) 0
    let ls := (entriesWhere d (fun _ e => ps.any (fun q => e.spec == some q.n))).length
    exec (.raSquash p) s = .next (settle s (complete s.dev.cmd.nextId (ok runs ls 0 0)
      (ps.foldl (fun d q => squashPeriod q.n 3 0xFFFFFFFF 0 d) d)))) ∧
  (starts specRaQuery p s = true →
    let d := begun specRaQuery p s
    let n := param64 p 0
    let fl := (periodOf d n).elim 0 pflags
    exec (.raQuery p) s = .next (settle s (complete s.dev.cmd.nextId
      (ok (b2n (periodOpen d n) + 256 * fl + 65536 * (periodRuns d n % 65536)) (periodLaunches d n)
        (lo32 (periodStart d n)) (hi32 (periodStart d n))) d)))

/-! ### Control loops, logic, converters -/

/-- Completion of the rows of group 0x08 that write loop words and setpoints (R283, R286, R293–R295). -/
def Rows.LoopRowsComplete : Prop := ∀ (p : Pkt) (s : State),
  (starts specLoopWrite p s = true →
    let d := begun specLoopWrite p s
    let ws := bufWords p d (param p 1)
    exec (.loopWrite p) s = .next (settle s (complete s.dev.cmd.nextId (ok 0 0 0 0)
      ((List.range ws.length).foldl (fun d i =>
        loopRegWrite (Reg.clpLoopCfg (bits (param p 0) 7 0) + 4 * (bits (param p 0) 11 8 + i)) (ws.getD i 0) d) d)))) ∧
  (starts specLoopEnable p s = true →
    let d := begun specLoopEnable p s
    let o := Reg.clpEn (param p 0 / 32)
    exec (.loopEnable p) s = .next (settle s (complete s.dev.cmd.nextId (ok 0 0 0 0)
      (loopWritten o (regA d o)
        (firmWrite o (putBits (regA d o) (param p 0 % 32) (param p 0 % 32) (param p 1)) d))))) ∧
  (starts specSpWrite p s = true →
    let d := begun specSpWrite p s
    let ws := bufWords p d (param p 1)
    exec (.spWrite p) s = .next (settle s (complete s.dev.cmd.nextId (ok 0 0 0 0)
      ((List.range ws.length).foldl (fun d i => writePlain (Reg.clpSp (param p 0 + i)) (ws.getD i 0) d) d)))) ∧
  (starts specSpMap p s = true →
    let d := begun specSpMap p s
    let ms := spMapRecs p d
    exec (.spMap p) s = .next (settle s (complete s.dev.cmd.nextId (ok 0 0 0 0)
      { d with clp.map := (List.range ms.length).foldl (fun t i =>
        smSet SpMap.unused t (param p 0 + i) (ms.getD i SpMap.unused)) d.clp.map }))) ∧
  (starts specSpPublish p s = true →
    let d := begun specSpPublish p s
    exec (.spPublish p) s = .next (settle s
      { d with clp.pubs := d.clp.pubs ++
        [⟨s.dev.cmd.nextId, param p 0, if bufL p = 0 then none else some (rdBytes d (bufA p) 128)⟩] }))

/-- Completion of LOOP_RETUNE: a running loop outside CONFIG keeps the bundle for its next sample; another loop takes the
twelve words at once (R291, R292). -/
def Rows.LoopRetuneCompletes : Prop := ∀ (p : Pkt) (s : State), starts specLoopRetune p s = true →
  let d := begun specLoopRetune p s
  let k := param p 0
  let ws := bufWords p d 12
  (loopOf d k).retune = none →
  (loopOn d k = true → d.sys.mode ≠ .config →
    exec (.loopRetune p) s = .next (settle s (setLoop k
      { loopOf d k with
        retune := some ⟨s.dev.cmd.nextId, ws, bitAt (param p 1) 0, param p 2, bitAt (param p 1) 1, param p 3⟩ } d))) ∧
  ((loopOn d k = false ∨ d.sys.mode = .config) →
    let c (i : Nat) : Int := sx 32 (ws.getD i 0)
    let x := loopOf d k
    let d1 := setLoop k
      { x with dirty := true,
               iAcc := if bitAt (param p 1) 1 then (clampFlag (sx 32 (param p 3)) (c 7) (c 8)).1 else x.iAcc } d
    let d2 := (List.range 12).foldl (fun d i => firmWrite (Reg.clpLoopShifts k + 4 * i) (ws.getD i 0) d) d1
    let d3 := if bitAt (param p 1) 0 then setReference (param p 2) d2 else d2
    exec (.loopRetune p) s = .next (settle s (complete s.dev.cmd.nextId (ok (lo32 (now d3)) (hi32 (now d3)) 0 0)
      (bump 8 5 1 d3))))

/-- Completion of TRACE_ARM and TRACE_READ (R296–R299). -/
def Rows.TraceRowsComplete : Prop := ∀ (p : Pkt) (s : State),
  (starts specTraceArm p s = true →
    let d := begun specTraceArm p s
    let c := param p 0
    exec (.traceArm p) s = .next (settle s (complete s.dev.cmd.nextId (ok 0 0 0 0)
      (setTrace c { Trace.idle with state := 1, at_ := p.launchTime.toNat }
        (setPA (Reg.clpTrcLevel c) (param p 2) (setPA (Reg.clpTrcCfg c) (param p 1) d)))))) ∧
  (starts specTraceRead p s = true →
    let d := begun specTraceRead p s
    let c := param p 0
    let t := traceOf d c
    let n := min t.recs.length ((bufL p - 32) / 8)
    exec (.traceRead p) s = .next (settle s (complete s.dev.cmd.nextId
      ⟨if n < t.recs.length then 0x0001 else 0x0000, 0, n, t.state, 0, 0⟩
      (charge 14 .beats (beatsOf (32 + 8 * n)) (wrBytes (bufA p) (traceBytes d c n) d)))))

/-- Completion of the rows of group 0x09 that apply at once: program load, variables, clear, acknowledge, read-back
(R312, R314, R316–R318). -/
def Rows.LogicRowsComplete : Prop := ∀ (p : Pkt) (s : State),
  (starts specLogicLoad p s = true →
    let d := begun specLogicLoad p s
    let ws := bufWords p d (param p 0)
    exec (.logicLoad p) s = .next (settle s (complete s.dev.cmd.nextId (ok (progCrc ws) 0 0 0)
      (setP Reg.cleProgCrc (progCrc ws)
        { d with cle.prog := ws, cle.timers := [], cle.counters := [], cle.firstScan := true })))) ∧
  (starts specLogicVarsWrite p s = true →
    let d := begun specLogicVarsWrite p s
    let b := rdBytes d (bufA p) (bufL p)
    (param p 0 = 0 → exec (.logicVarsWrite p) s = .next (settle s (complete s.dev.cmd.nextId (ok 0 0 0 0)
      { d with cle := (List.range (param p 2)).foldl (fun e i =>
          setLbit (param p 1 + i) (decide (fieldLE b i 1 = 1)) e) d.cle }))) ∧
    (param p 0 ≠ 0 → exec (.logicVarsWrite p) s = .next (settle s (complete s.dev.cmd.nextId (ok 0 0 0 0)
      { d with cle := (List.range (param p 2)).foldl (fun e i =>
          setLword (param p 1 + i) (fieldLE b (4 * i) 4) e) d.cle })))) ∧
  (starts specLogicClear p s = true →
    let d := begun specLogicClear p s
    exec (.logicClear p) s = .next (settle s (complete s.dev.cmd.nextId (ok 0 0 0 0)
      { d with cle.bits_ := d.cle.bits_.filter (fun kv => kv.1 < 256),
               cle.words := d.cle.words.filter (fun kv => kv.1 < 64), cle.timers := [], cle.counters := [] }))) ∧
  (starts specLogicAck p s = true →
    let d := begun specLogicAck p s
    let f := regP d Reg.cleFault
    exec (.logicAck p) s = .next (settle s (complete s.dev.cmd.nextId (ok f 0 0 0)
      (bump 9 5 (f % 2 + f / 2 % 2) (setP Reg.cleFault 0 d))))) ∧
  (starts specLogicRead p s = true →
    let d := begun specLogicRead p s
    let ws := (d.cle.prog.drop (param p 0)).take (param p 1)
    exec (.logicRead p) s = .next (settle s (complete s.dev.cmd.nextId (ok ws.length 0 0 0)
      (wrBytes (bufA p) (ws.flatMap (leBytes 4)) d))))

/-- Completion of LOGIC_WORD_WRITE and LOGIC_PATCH: while scans run the change waits for the start of a scan, else it is made
at once with its time as the result (R316, R317). -/
def Rows.LogicChangesComplete : Prop := ∀ (p : Pkt) (s : State),
  (starts specLogicWordWrite p s = true →
    let d := begun specLogicWordWrite p s
    (scansRun d = true → d.cle.queue.length < 64 →
      exec (.logicWordWrite p) s = .next (settle s
        { d with cle.queue := d.cle.queue ++ [.word s.dev.cmd.nextId (param p 0) (param p 1)] })) ∧
    (scansRun d = false →
      exec (.logicWordWrite p) s = .next (settle s (complete s.dev.cmd.nextId (ok (lo32 (now d)) (hi32 (now d)) 0 0)
        (bump 9 3 1 { d with cle := setLword (param p 0) (param p 1) d.cle }))))) ∧
  (starts specLogicPatch p s = true →
    let d := begun specLogicPatch p s
    (scansRun d = true → d.cle.queue.length < 64 →
      exec (.logicPatch p) s = .next (settle s
        { d with cle.queue := d.cle.queue ++ [.patch s.dev.cmd.nextId (param p 0) (param p 1)] })) ∧
    (scansRun d = false →
      let ws := d.cle.prog.set (param p 0) (patchWord (d.cle.prog.getD (param p 0) 0) (sx 32 (param p 1)))
      exec (.logicPatch p) s = .next (settle s (complete s.dev.cmd.nextId (ok (lo32 (now d)) (hi32 (now d)) 0 0)
        (bump 9 4 1 (setP Reg.cleProgCrc (progCrc ws) { d with cle.prog := ws }))))))

/-- Completion of ADC_START, WINDOW_ARM and WINDOW_DISARM (R346, R347, R357–R359). -/
def Rows.ConverterRowsComplete : Prop := ∀ (p : Pkt) (s : State),
  (starts specAdcStart p s = true →
    let d := begun specAdcStart p s
    let qs := (List.range 8).filter (fun q => bitAt (param p 0) q)
    (qs = [] → exec (.adcStart p) s = .next (settle s (complete s.dev.cmd.nextId (ok 0 0 0 0) d))) ∧
    (qs ≠ [] → exec (.adcStart p) s = .next (settle s
      { d with adc.cmds := d.adc.cmds ++ [⟨s.dev.cmd.nextId, qs.length, 0, 0, 0⟩],
               adc.reqs := d.adc.reqs ++
                 qs.map (fun q => ⟨q, d.tim.ticks + bits (seqCfg d q) 15 0, some s.dev.cmd.nextId⟩) }))) ∧
  (starts specWindowArm p s = true →
    let d := begun specWindowArm p s
    let m := outOfBand d (param p 0)
    (param p 1 = 1 → m ≠ 0 →
      exec (.windowArm p) s = .next (settle s (complete s.dev.cmd.nextId
        (ok m (lowBit m) (lo32 (resOf d (lowBit m)).sample) (hi32 (resOf d (lowBit m)).sample)) d))) ∧
    ((param p 1 = 0 ∨ m = 0) →
      exec (.windowArm p) s = .next (settle s { d with adc.arms := d.adc.arms ++ [(s.dev.cmd.nextId, param p 0)] }))) ∧
  (starts specWindowDisarm p s = true →
    let d := begun specWindowDisarm p s
    ∀ a, namedAmong d (d.adc.arms.map (·.1)) (param p 0) (param p 1) = some a →
      exec (.windowDisarm p) s = .next (settle s (complete s.dev.cmd.nextId (ok 0 0 0 0)
        (complete a (refuse 0x0019 0) { d with adc.arms := d.adc.arms.filter (fun x => x.1 ≠ a) }))))

/-! ### Metering and CAN -/

/-- Completion of the rows of group 0x0B (R371, R373, R379–R386). -/
def Rows.MeterRowsComplete : Prop := ∀ (p : Pkt) (s : State),
  (starts specMtrPreset p s = true →
    let d := begun specMtrPreset p s
    let vs := (List.range (param p 1)).map (fun i => rdLE d (bufA p + 8 * i) 8)
    let d1 := presetApply (param p 0) vs d
    let d2 := takeSave 1 (accValues d1) (some s.dev.cmd.nextId) d1
    exec (.mtrPreset p) s = .next (settle s
      { d2 with mtr.accs := d.mtr.accs, mtr.po := d.mtr.po,
                mtr.presets := d.mtr.presets ++ [(s.dev.cmd.nextId, param p 0, vs)] })) ∧
  (starts specMtrHeatTable p s = true →
    let d := begun specMtrHeatTable p s
    let b := rdBytes d (bufA p) 1040
    exec (.mtrHeatTable p) s = .next (settle s (complete s.dev.cmd.nextId
      (ok (lo32 (nextBoundary d)) (hi32 (nextBoundary d)) 0 0)
      { d with
        mtr.staged := smSet none d.mtr.staged (param p 0)
          (some ⟨fieldLE b 0 4, fieldLE b 4 4, (List.range 256).map (fun i => fieldLE b (0x10 + 4 * i) 4)⟩) }))) ∧
  (starts specMtrSave p s = true →
    let d := begun specMtrSave p s
    exec (.mtrSave p) s = .next (settle s
      (takeSave (if param p 0 % 2 = 1 then 3 else 1) (accValues d) (some s.dev.cmd.nextId) d))) ∧
  (starts specMtrEventWait p s = true →
    let d := begun specMtrEventWait p s
    exec (.mtrEventWait p) s = .next (settle s
      { d with mtr.waits := d.mtr.waits ++ [(s.dev.cmd.nextId, bits (param p 0) 2 0, bits (param p 0) 7 4)] })) ∧
  (starts specMtrEventRead p s = true →
    let d := begun specMtrEventRead p s
    let rs := d.mtr.fifo.filter (fun r => decide ((r.seq + 2 ^ 32 - param p 0) % 2 ^ 32 < 2 ^ 31))
    let fit := rs.take (bufL p / 32)
    (∀ r l, d.mtr.fifo = r :: l →
      exec (.mtrEventRead p) s = .next (settle s (complete s.dev.cmd.nextId
        ⟨if fit.length < rs.length then 0x0001 else 0x0000, 0, fit.length, r.seq, 0, 0⟩
        (wrBytes (bufA p) (fit.flatMap pqBytes) d)))) ∧
    (d.mtr.fifo = [] → ∃ v, exec (.mtrEventRead p) s = .next (settle s (complete s.dev.cmd.nextId
        ⟨0x0000, 0, 0, v, 0, 0⟩ d)))) ∧
  (starts specMtrEventDisarm p s = true →
    let d := begun specMtrEventDisarm p s
    ∀ a, namedAmong d (d.mtr.waits.map (·.1)) (param p 0) (param p 1) = some a →
      exec (.mtrEventDisarm p) s = .next (settle s (complete s.dev.cmd.nextId (ok 0 0 0 0)
        (complete a (refuse 0x0019 0) { d with mtr.waits := d.mtr.waits.filter (fun x => x.1 ≠ a) }))))

/-- Completion of the rows of group 0x0C (R399–R402). -/
def Rows.CanRowsComplete : Prop := ∀ (p : Pkt) (s : State),
  (starts specCanFields p s = true →
    let d := begun specCanFields p s
    exec (.canFields p) s = .next (settle s (complete s.dev.cmd.nextId (ok 0 0 0 0)
      ((List.range (param p 1)).foldl (fun e i =>
        let b := canFieldAt p d i
        { e with
          can.fields := smSet ⟨0, 0, 0, 0⟩ e.can.fields (param p 0 + i)
            ⟨fieldLE b 0 1, fieldLE b 1 1, fieldLE b 2 1, fieldLE b 3 1⟩ }) d)))) ∧
  (starts specCanWait p s = true →
    let d := begun specCanWait p s
    (∀ n e, canHolds d (param p 0) (param p 1) = some (n, e) →
      let t := if bitAt e 3 then (canOf d n).since0 else (canOf d n).since1
      exec (.canWait p) s = .next (settle s (complete s.dev.cmd.nextId (ok (n + 256 * e) (lo32 t) (hi32 t) 0) d))) ∧
    (canHolds d (param p 0) (param p 1) = none →
      exec (.canWait p) s = .next (settle s
        { d with can.waits := d.can.waits ++ [(s.dev.cmd.nextId, param p 0, param p 1)] }))) ∧
  (starts specCanDisarm p s = true →
    let d := begun specCanDisarm p s
    ∀ a, namedAmong d (d.can.waits.map (·.1)) (param p 0) (param p 1) = some a →
      exec (.canDisarm p) s = .next (settle s (complete s.dev.cmd.nextId (ok 0 0 0 0)
        (complete a (refuse 0x0019 0) { d with can.waits := d.can.waits.filter (fun x => x.1 ≠ a) })))) ∧
  (starts specCanRecover p s = true →
    let d := begun specCanRecover p s
    exec (.canRecover p) s = .next (settle s (complete s.dev.cmd.nextId
      (ok (b2n (canStatBit d (param p 0) 31)) 0 0 0) (canRecover (param p 0) d))))

/-! ### Time, launches, Trellis -/

/-- Completion of TIME_READ, TIME_SET, TIME_ACCEPT, PTP_STATUS and SUBST_WRITE (R327, R328, R335, R336). -/
def Rows.TimeRowsComplete : Prop := ∀ (p : Pkt) (s : State),
  (starts specTimeRead p s = true →
    let d := begun specTimeRead p s
    exec (.timeRead p) s = .next (settle s (complete s.dev.cmd.nextId
      (ok (lo32 (now d)) (hi32 (now d)) (timStat d) (enc 32 d.tim.rate)) d))) ∧
  (starts specTimeSet p s = true →
    let d := begun specTimeSet p s
    let v := param64 p 0
    let d1 := stepTime (if param p 2 % 2 = 1 then sx 64 v else (v : Int) - now d) d
    exec (.timeSet p) s = .next (settle s (complete s.dev.cmd.nextId (ok (lo32 (now d1)) (hi32 (now d1)) 0 0) d1))) ∧
  (starts specTimeAccept p s = true →
    let d := begun specTimeAccept p s
    let by_ := -(domOf d (activeDom d)).theta
    exec (.timeAccept p) s = .next (settle s (complete s.dev.cmd.nextId
      (ok (lo32 (enc 64 by_)) (hi32 (enc 64 by_)) 0 0) (setF Reg.timStat 4 3 0 (stepTime by_ d))))) ∧
  (starts specPtpStatus p s = true →
    let d := begun specPtpStatus p s
    exec (.ptpStatus p) s = .next (settle s (complete s.dev.cmd.nextId (ok 128 0 0 0)
      (wrBytes (bufA p) (domBytes d 0 ++ domBytes d 1) d)))) ∧
  (starts specSubstWrite p s = true →
    let d := begun specSubstWrite p s
    exec (.substWrite p) s = .next (settle s (complete s.dev.cmd.nextId (ok 0 0 0 0)
      ((List.range (param p 1)).foldl (fun e i =>
        let b := rdBytes d (bufA p + 32 * i) 32
        setSubst (param p 0 + i)
          { addr := sliceB b 0 16, mac := sliceB b 16 6, port := fieldLE b 0x16 1, slot := fieldLE b 0x17 1,
            udp := fieldLE b 0x18 2, lead := fieldLE b 0x1A 2, repeats := fieldLE b 0x1C 1, gap := fieldLE b 0x1D 1,
            lastSeq := none, outSeq := 0 } e) d))))

/-- Completion of LAUNCH_QUEUE: the records become entries and the first completion, with MORE, gives their number
(R338–R340); and of LAUNCH_CANCEL (R343). -/
def Rows.LaunchRowsComplete : Prop := ∀ (p : Pkt) (s : State),
  (starts specLaunchQueue p s = true →
    let d := begun specLaunchQueue p s
    let t := lTarget p d
    let n := param p 0
    let spec := if isSpec p then some (param64 p 4) else none
    let top := d.lch.q.foldl (fun a kv => max a kv.1) 4095
    let slots := if t = 0 then freeEntries d else (List.range n).map (fun i => top + 1 + i)
    let d1 := ((lrecs p d).zip slots).foldl (fun (e : Dev) r =>
      { e with
        lch.q := smSet none e.lch.q r.2 (some
          { time := r.1.time, value := r.1.value, kind := r.1.kind,
            flags := if isSpec p then 1 + 4 * (param64 p 4 % 64) else 0, index := r.1.index,
            fireAt := (lrecFire d (decide (t = 0)) r.1).toNat, owner := s.dev.cmd.nextId, spec := spec,
            bySpec := isSpec p, late := false }) }) d
    let d2 := { d1 with lch.groups := d1.lch.groups ++ [⟨s.dev.cmd.nextId, n, 0, 0, none, false, false, spec.getD 0, t⟩] }
    exec (.launchQueue p) s = .next (settle s (completeMore s.dev.cmd.nextId (ok n 0 0 0)
      (if t = 0 then d2 else charge 12 .beats (Config.trellisBeats 4).toNat d2)))) ∧
  (starts specLaunchCancel p s = true →
    let d := begun specLaunchCancel p s
    ∀ c, cancelNames p d = some c →
      let n := (entriesWhere d (fun i e => decide (256 < i ∧ e.owner = c))).length
      exec (.launchCancel p) s = .next (settle s (complete s.dev.cmd.nextId (ok n 0 0 0)
        (dropWhere (fun i e => decide (256 < i ∧ e.owner = c)) .cancelled d))))

/-- Completion of TRL_QUERY and of the redundancy rows (R404, R411–R413, R421). -/
def Rows.TrellisRowsComplete : Prop := ∀ (p : Pkt) (s : State),
  (starts specTrlQuery p s = true →
    let d := begun specTrlQuery p s
    exec (.trlQuery p) s = .next (settle s (complete s.dev.cmd.nextId
      (ok (regP d Reg.trlPresent) (regP d Reg.trlHeadLen) 0 0)
      (wrBytes (bufA p) ((List.range 16).flatMap (fun i => reportOf d (i + 1))) d)))) ∧
  (starts specRedFailover p s = true →
    let d := begun specRedFailover p s
    exec (.redFailover p) s = .next (settle s { d with trl.fault := true, trl.failover := some s.dev.cmd.nextId })) ∧
  (starts specRedRevertNow p s = true →
    let d := begun specRedRevertNow p s
    let t := if d.trl.reported then nextBoundary d else frameStart d
    exec (.redRevertNow p) s = .next (settle s (complete s.dev.cmd.nextId (ok (lo32 t) (hi32 t) 0 0)
      { d with trl.revertReq := true }))) ∧
  (starts specRedResync p s = true →
    let d := begun specRedResync p s
    exec (.redResync p) s = .next (settle s
      { requestImage d with trl.resync := d.trl.resync ++ [s.dev.cmd.nextId] }))

/-! ### Granary, recorder, Silo -/

/-- Completion of the rows of group 0x0F that act on the Granary (R432–R436, R440–R443). GRN_FW_WRITE begins
when the image passes the checks of R109, its signature among them (R443); else it is refused. -/
def Rows.GranaryRowsComplete : Prop := ∀ (p : Pkt) (s : State),
  (starts specGrnQuery p s = true →
    let d := begun specGrnQuery p s
    exec (.grnQuery p) s = .next (settle s (complete s.dev.cmd.nextId
      (ok (grnStat d) 0 (lo32 (lastSeq d)) (hi32 (lastSeq d)))
      (if bufL p = 0 then d else wrBytes (bufA p) (grnState d) d)))) ∧
  (starts specGrnCompact p s = true →
    let d := begun specGrnCompact p s
    exec (.grnCompact p) s = .next (settle s (startCkpt (some s.dev.cmd.nextId) d))) ∧
  (starts specGrnSnapshot p s = true →
    let d := begun specGrnSnapshot p s
    let k := param p 0 % 2
    (2 ≤ param p 0 → param p 0 ≤ 3 →
      let ws := (snapshotOf k d).dropLast
      let seq := (snapshotOf k d).getLastD 0
      let n := min ws.length (bufL p / 4)
      exec (.grnSnapshot p) s = .next (settle s (complete s.dev.cmd.nextId
        ⟨if n < ws.length then 0x0001 else 0x0000, 0, n, 0, lo32 seq, hi32 seq⟩
        (wrBytes (bufA p) ((ws.take n).flatMap (leBytes 4)) d)))) ∧
    (param p 0 < 2 → journalTakes d (5 + k) (4 * (snapshotWords k d).length) →
      exec (.grnSnapshot p) s = .next (settle s
        { d with grn.queue := d.grn.queue ++
          [⟨5 + k, 0, snapshotWords k d, 4 * (snapshotWords k d).length,
            some ⟨s.dev.cmd.nextId, 0, (snapshotWords k d).length, 0, 0, 0⟩, false, none⟩] }))) ∧
  (starts specGrnModelRestore p s = true →
    let d := begun specGrnModelRestore p s
    let l := modelItem d
    let n := l.getD 2 0
    let rest := l.drop (3 + 14 * n)
    exec (.grnModelRestore p) s = .next (settle s (complete s.dev.cmd.nextId
      (ok (l.getD 0 0) 0 (lo32 (l.getD 1 0)) (hi32 (l.getD 1 0)))
      { d with mdl.stagedObjs := itemObjs n (l.drop 3), mdl.stagedMeas := itemMeas (rest.length / 9) rest }))) ∧
  (let sp : OpSpec := { specGrnFwWrite with resources := fun _ _ => none }
   starts sp p s = true →
    let d := begun sp p s
    let b := rdBytes d (bufA p) (bufL p)
    s.dev.grn.fwBusy = none → (bufA p + bufL p ≤ 0x2000000000 ∨ 0x2002000000 ≤ bufA p) →
    exec (.grnFwWrite p) s = .next (settle s
      (match fwFault d.sys.rollback b with
       | some n => complete s.dev.cmd.nextId (refuse 0x0022 n) (fetched sp p s)
       | none => { d with grn.fwBusy := some (s.dev.cmd.nextId, param p 0, b) })))

/-- Completion of EVR_READ and EVR_LOG (R437–R439); a record that must wait for the recorder is queued with its command. -/
def Rows.RecorderRowsComplete : Prop := ∀ (p : Pkt) (s : State),
  (starts specEvrRead p s = true →
    let d := begun specEvrRead p s
    let rs := d.grn.evr.drop (param p 0)
    let n := min rs.length (bufL p / 64)
    exec (.evrRead p) s = .next (settle s (complete s.dev.cmd.nextId
      ⟨if n < rs.length then 0x0001 else 0x0000, 0, n, d.grn.evr.length, 0, 0⟩
      (wrBytes (bufA p) ((rs.take n).flatMap evBytes) d)))) ∧
  (starts specEvrLog p s = true →
    let d := begun specEvrLog p s
    let e : EvReq := ⟨0x0F, param p 0, if timeValid d then now d else 0,
      (List.range 7).flatMap (fun k => leBytes 4 (param p (k + 1))) ++ List.replicate 4 (0 : Byte), some s.dev.cmd.nextId⟩
    let waits := recorderPaused d || clearing d || !d.grn.evq.isEmpty
    let dp := if recorderPaused d = true then meetCeil 11 d else d
    (waits = true → d.grn.evq.length < 64 →
      exec (.evrLog p) s = .next (settle s { dp with grn.evq := dp.grn.evq ++ [e] })) ∧
    (waits = true → 64 ≤ d.grn.evq.length →
      exec (.evrLog p) s = .next (settle s (complete s.dev.cmd.nextId (ok 0xFFFFFFFF 0 0 0) (evLose dp)))) ∧
    (waits = false →
      exec (.evrLog p) s = .next (settle s (complete s.dev.cmd.nextId (ok (evNumber d (evWrite e d)) 0 0 0) (evWrite e d)))))

/-- Completion of EVR_CLEAR: the clear record of an order whose signature verifies and whose counts are the recorder's is queued
for the journal (R440). -/
def Rows.RecorderClearCompletes : Prop := ∀ (p : Pkt) (s : State), starts specEvrClear p s = true →
  let d := begun specEvrClear p s
  let k := param p 0
  let b := rdBytes d (bufA p) (bufL p)
  let n := fieldLE b 0x40 4
  0x44 + n ≤ bufL p → sliceB b 0 4 = [0x49, 0x53, 0x56, 0x43] → fieldLE b 4 4 = 1 →
  (sliceB b 0x20 32).all (fun x => x = 0) = true →
  slotRefusalBy d k (fun x => decide (attrType x.attr = 4) && attrUse x.attr 4 && bitAt x.attr 10) (pktClass p d) none = none →
  journalTakes (countUse k d) 12 40 →
  exec (.evrClear p) s = .next (settle s
    (if hssVerify (slotOf d k).pub (sliceB b 0 0x40) (sliceB b 0x44 n) = false then
      complete s.dev.cmd.nextId (refuse 0x0022 0x00) d
     else if fieldLE b 8 16 ≠ Config.serial.toNat ∨ fieldLE b 0x18 4 ≠ d.grn.evr.length ∨
        fieldLE b 0x1C 4 ≠ regP d Reg.evrClears then
      complete s.dev.cmd.nextId ⟨0x0014, 0x03, d.grn.evr.length, regP d Reg.evrClears, 0, 0⟩ d
     else { countUse k d with grn.queue := (countUse k d).grn.queue ++
      [⟨12, 0, [d.grn.evr.length, regP d Reg.evrLost, k, s.dev.cmd.nextId, fieldLE b 0x18 4, fieldLE b 0x1C 4,
          leNat (sha256 b)], 40, some ⟨s.dev.cmd.nextId, 0, 0, 0, 0, 0⟩, false, none⟩] }))

/-- Completion of the rows of group 0x10 that make, export and delete keys (R447, R448, R451, R457): a key of a slot's lifetime
type 1 exists at once, any other when its record commits. A generated key is drawn from the generator, whose output is a free
value. -/
def Rows.KeyRowsComplete : Prop := ∀ (p : Pkt) (s : State),
  (starts specSecGenerate p s = true →
    let d := begun specSecGenerate p s
    let a := param p 1
    slotFree d (param p 0) = true → attrOk a = true → attrType a ≠ 4 →
    let r := drbgDraw d
    let x : Slot :=
      { attr := a, expiry := expiryOf p a 2, state := .ready,
        share0 := BitVec.ofNat 512 (if attrType a = 3 then r.1 % 2 ^ 384 else r.1 % 2 ^ 256), share1 := 0, next := 0,
        height := if attrType a = 3 then 5 * (param p 4 + 1) else 0, uses := 0, pub := [], image := [] }
    exec (.secGenerate p) s = .next (settle s
      (siloCharge p (changeSlot s.dev.cmd.nextId (param p 0) 0 x (attrLife a) r.2)))) ∧
  (starts specSecImport p s = true →
    let d := begun specSecImport p s
    let t := bits (param p 0) 7 0
    let w := bits (param p 0) 15 8
    let a := param p 1
    let b := rdBytes d (bufA p) (bufL p)
    let base : Slot := { Slot.none with attr := a, expiry := expiryOf p a 2, state := .ready }
    slotFree d t = true →
    (bitAt (param p 0) 16 = false → attrOk a = true → attrType a = 4 → bufL p = 60 →
      exec (.secImport p) s = .next (settle s
        (siloCharge p (changeSlot s.dev.cmd.nextId t 1 { base with pub := b } (attrLife a) d)))) ∧
    (bitAt (param p 0) 16 = false → attrOk a = true → attrType a ≠ 3 → attrType a ≠ 4 → bufL p = 40 →
      slotRefusal d w [1] 6 (pktClass p d) none = none →
      exec (.secImport p) s = .next (settle s
        (match kwUnwrap (keyBytes (slotOf d w)) b with
         | none => complete s.dev.cmd.nextId (refuse 0x0022 0x11) d
         | some k => siloCharge p (changeSlot s.dev.cmd.nextId t 1
             { base with share0 := BitVec.ofNat 512 (leNat k) } (attrLife a) (countUse w d))))) ∧
    (bitAt (param p 0) 16 = true → bufL p = 56 → slotRefusal d w [1] 6 (pktClass p d) none = none →
      exec (.secImport p) s = .next (settle s
        (match kwUnwrap (keyBytes (slotOf d w)) b with
         | none => complete s.dev.cmd.nextId (refuse 0x0022 0x11) d
         | some k =>
           let img := k
           let ca := (Config.isvAttr (fieldLE img 0 2) (fieldLE img 2 2) 0).toNat ||| 0x800
           let x : Slot := { Slot.none with attr := ca, expiry := expiryOf p ca 2, state := .ready, image := img,
                                            share0 := BitVec.ofNat 512 (fieldLE img 4 32) }
           if compatOk x = true then siloCharge p (changeSlot s.dev.cmd.nextId t 1 x (attrLife ca) (countUse w d))
           else complete s.dev.cmd.nextId (refuse 0x0021 0x02) d)))) ∧
  (starts specSecExport p s = true →
    let d := begun specSecExport p s
    let x := slotOf d (bits (param p 0) 7 0)
    let w := bits (param p 0) 15 8
    let n := (exportBytes x).length + 8
    n ≤ bufL p →
    slotRefusalBy d (bits (param p 0) 7 0) (fun _ => true) (pktClass p d)
      (if bitAt x.attr 9 then none else some (refuse 0x0013 0x04)) = none →
    slotRefusal d w [1] 6 (pktClass p d) none = none →
    exec (.secExport p) s = .next (settle s (siloCharge p (complete s.dev.cmd.nextId (ok n 0 0 0) (bump 0x10 2 1
      (countUse w (wrBytes (bufA p) (kwWrap (keyBytes (slotOf d w)) (exportBytes x)) d))))))) ∧
  (starts specSecDelete p s = true →
    let d := begun specSecDelete p s
    let k := param p 0
    2 ≤ k → (slotOf d k).state ≠ .empty →
    (keyBusy d k = true →
      exec (.secDelete p) s = .next (settle s
        (siloCharge p { d with sec.deletes := d.sec.deletes ++ [(s.dev.cmd.nextId, k)] }))) ∧
    (keyBusy d k = false →
      exec (.secDelete p) s = .next (settle s
        (siloCharge p (changeSlot s.dev.cmd.nextId k 3 Slot.none (attrLife (slotOf d k).attr) d))))) ∧
  (starts specSecDerive p s = true →
    let d := begun specSecDerive p s
    let k := bits (param p 0) 7 0
    let t := bits (param p 0) 15 8
    let a := param p 1
    slotFree d t = true → attrOk a = true → attrType a ≤ 2 → slotRefusal d k [2, 5] 5 (pktClass p d) none = none →
    let a1 := if k = 0 then putBits a 9 9 0 else a
    let src := if k = 0 then leBytes 32 (d.sec.rootShare0 ^^^ d.sec.rootShare1).toNat else keyBytes (slotOf d k)
    let key := leNat (kdf src (rdBytes d (bufA p) (bufL p)) 32)
    exec (.secDerive p) s = .next (settle s (siloCharge p (changeSlot s.dev.cmd.nextId t 0
      { Slot.none with attr := a1, state := .ready, share0 := BitVec.ofNat 512 key } (attrLife a1)
      (countUse k d)))))

/-- Completion of SEC_CIPHER in its seven operations (R452, R458): results, tag, IV and data; an IV of zeros is
drawn from the generator, whose output is a free value. -/
def Rows.CipherCompletes : Prop := ∀ (p : Pkt) (s : State), starts specSecCipher p s = true →
  let d := begun specSecCipher p s
  let op := bits (param p 0) 10 8
  let key := cKey p d
  let all := cAad p d ++ cData p d
  let at_ := bufA p + 0x18
  let e := bump 0x10 4 1 (countUse (bits (param p 0) 7 0) d)
  let id := s.dev.cmd.nextId
  cipherRefusal p d = none →
  (op = 0 → (cIv p d).all (fun b => b = 0) = false →
    let ct := gcmCrypt key (cIv p d) (cData p d)
    exec (.secCipher p) s = .next (settle s (siloCharge p (complete id (ok (cDataLen p d + 16) 0 0 0)
      (wrBytes (bufA p + 8) (cIv p d) (wrBytes at_ (gcmTag key (cIv p d) (cAad p d) ct)
        (wrBytes (cDataAt p d) ct e))))))) ∧
  (op = 0 → (cIv p d).all (fun b => b = 0) = true →
    let iv := leBytes 12 (drbgDraw e).1
    let ct := gcmCrypt key iv (cData p d)
    exec (.secCipher p) s = .next (settle s (siloCharge p (complete id (ok (cDataLen p d + 28) 0 0 0)
      (wrBytes (bufA p + 8) iv (wrBytes at_ (gcmTag key iv (cAad p d) ct)
        (wrBytes (cDataAt p d) ct (drbgDraw e).2))))))) ∧
  (op = 1 →
    exec (.secCipher p) s = .next (settle s (siloCharge p
      (if gcmTag key (cIv p d) (cAad p d) (cData p d) = (cTag p d).take 16 then
        complete id (ok (cDataLen p d) 0 0 0) (bump 0x10 7 1 (wrBytes (cDataAt p d)
          (gcmCrypt key (cIv p d) (cData p d)) e))
       else complete id (refuse 0x0022 0x10)
         (bump 0x10 8 1 (wrBytes (cDataAt p d) (List.replicate (cDataLen p d) (0 : Byte)) e)))))) ∧
  (op = 2 →
    exec (.secCipher p) s = .next (settle s (siloCharge p (complete id (ok (cmac key all).length 0 0 0)
      (wrBytes at_ (cmac key all) e))))) ∧
  (op = 3 →
    exec (.secCipher p) s = .next (settle s (siloCharge p
      (if cmac key all = (cTag p d).take 16 then complete id (ok 0 0 0 0) (bump 0x10 7 1 e)
       else complete id (refuse 0x0022 0x10) (bump 0x10 8 1 e))))) ∧
  (op = 4 →
    exec (.secCipher p) s = .next (settle s (siloCharge p (complete id (ok (hmac256 key all).length 0 0 0)
      (wrBytes at_ (hmac256 key all) e))))) ∧
  (op = 5 →
    exec (.secCipher p) s = .next (settle s (siloCharge p
      (if hmac256 key all = cTag p d then complete id (ok 0 0 0 0) (bump 0x10 7 1 e)
       else complete id (refuse 0x0022 0x10) (bump 0x10 8 1 e))))) ∧
  (op = 6 →
    exec (.secCipher p) s = .next (settle s (siloCharge p (complete id (ok (sha256 all).length 0 0 0)
      (wrBytes at_ (sha256 all) (bump 0x10 4 1 d))))))

/-- Completion of SEC_SIGN, SEC_VERIFY, SEC_ATTEST, SEC_PUBKEY and SEC_RANDOM (R449, R455, R456, R459): a signature joins the
signing queue, whose front takes its index. -/
def Rows.SignatureRowsComplete : Prop := ∀ (p : Pkt) (s : State),
  (starts specSecSign p s = true →
    let d := begun specSecSign p s
    let k := param p 0
    32 ≤ bufL p → sigLen (slotOf d k) ≤ bufL p → slotRefusal d k [3] 3 (pktClass p d) none = none → d.sec.signq.length < 9 →
    exec (.secSign p) s = .next (settle s (siloCharge p (signFront 1
      { d with sec.signq := d.sec.signq ++
        [⟨s.dev.cmd.nextId, k, bufA p, false, rdBytes d (bufA p) 32, none, false⟩] })))) ∧
  (starts specSecVerify p s = true →
    let d := begun specSecVerify p s
    let k := param p 0
    let n := rdLE d (bufA p + 32) 4
    36 + n ≤ bufL p → slotRefusal d k [4] 4 (pktClass p d) none = none →
    exec (.secVerify p) s = .next (settle s (siloCharge p
      (if hssVerify (slotOf d k).pub (rdBytes d (bufA p) 32) (rdBytes d (bufA p + 36) n) = true then
        complete s.dev.cmd.nextId (ok 0 0 0 0) (bump 0x10 7 1 (countUse k d))
       else complete s.dev.cmd.nextId (refuse 0x0022 0x00) (bump 0x10 8 1 (countUse k d)))))) ∧
  (starts specSecAttest p s = true →
    let d := begun specSecAttest p s
    slotRefusal d 1 [3] 3 (pktClass p d) none = none → d.sec.signq.length < 9 →
    exec (.secAttest p) s = .next (settle s (siloCharge p (signFront 1
      { d with sec.signq := d.sec.signq ++
        [⟨s.dev.cmd.nextId, 1, bufA p, true, attestReport (rdBytes d (bufA p + 0x18) 32) d, none, false⟩] })))) ∧
  (starts specSecPubkey p s = true →
    let d := begun specSecPubkey p s
    let x := slotOf d (param p 0)
    slotRefusalBy d (param p 0) (fun x => decide (attrType x.attr = 3 ∨ attrType x.attr = 4)) (pktClass p d) none = none →
    exec (.secPubkey p) s = .next (settle s (siloCharge p (complete s.dev.cmd.nextId (ok (slotPublic x).length 0 0 0)
      (wrBytes (bufA p) (slotPublic x) d))))) ∧
  (starts specSecRandom p s = true →
    let d := begun specSecRandom p s
    exec (.secRandom p) s = .next (settle s (siloCharge p (complete s.dev.cmd.nextId (ok 0 0 0 0)
      (wrBytes (bufA p) (leBytes (param p 0) (drbgDraw d).1) (drbgDraw d).2)))))

/-! ### Panel, clock, health -/

/-- Completion of the panel rows (R463–R467): a drawing goes to the back buffer at once unless a flip is pending. -/
def Rows.PanelRowsComplete : Prop := ∀ (p : Pkt) (s : State),
  (starts specPavDraw p s = true →
    let d := begun specPavDraw p s
    (d.pav.flip.isSome = true →
      exec (.pavDraw p) s = .next (settle s { d with pav.draws := d.pav.draws ++ [s.dev.cmd.nextId] })) ∧
    (d.pav.flip = none →
      let r := drawRect p
      let m := (List.range (r.2.2.1 * r.2.2.2)).foldl (fun m i =>
        smSet 0 m (320 * (r.2.1 + i / r.2.2.1) + r.1 + i % r.2.2.1) (rdLE d (bufA p + 4 * i) 4)) (backBuf d)
      exec (.pavDraw p) s = .next (settle s (complete s.dev.cmd.nextId (ok 0 0 0 0)
        (charge 9 .beats (beatsOf (bufL p)) (setBack m d)))))) ∧
  (starts specPavFlip p s = true →
    let d := begun specPavFlip p s
    exec (.pavFlip p) s = .next (settle s { d with pav.flip := some s.dev.cmd.nextId })) ∧
  (starts specPavStressRead p s = true →
    let d := begun specPavStressRead p s
    exec (.pavStressRead p) s = .next (settle s (complete s.dev.cmd.nextId (ok (param p 1) 0 0 0)
      (wrBytes (bufA p)
        ((List.range (param p 1)).flatMap (fun i => leBytes 4 (smGet 0 d.pav.stress (param p 0 + i)))) d)))) ∧
  (starts specPavStressPreset p s = true →
    let d := begun specPavStressPreset p s
    let vs := presetVals p d
    let m := (List.range vs.length).foldl (fun m i => smSet 0 m (param p 0 + i) (vs.getD i 0)) d.pav.stress
    journalTakes d 11 stressLen →
    exec (.pavStressPreset p) s = .next (settle s
      { d with pav.presets := d.pav.presets ++ [(s.dev.cmd.nextId, param p 0, vs)],
               grn.queue := d.grn.queue ++
                 [⟨11, 0, stressItem m, stressLen, some ⟨s.dev.cmd.nextId, 0, 0, 0, 0, 0⟩, false, none⟩] }))

/-- Completion of the clock rows (R477–R483): what they post to the registers of the always-on domain. -/
def Rows.ClockRowsComplete : Prop := ∀ (p : Pkt) (s : State),
  (starts specRtcSet p s = true →
    let d := begun specRtcSet p s
    (param p 0 % 2 = 1 →
      exec (.rtcSet p) s = .next (settle s
        { d with rtc.sets := d.rtc.sets ++ [(s.dev.cmd.nextId, nextSecond d, sx 32 (param p 3))] })) ∧
    (param p 0 % 2 = 0 →
      let d1 := firmPost Reg.rtcCommit 1 (firmPost Reg.rtcSetTime (param p 2) (firmPost Reg.rtcSetDate (param p 1) d))
      exec (.rtcSet p) s = .next (settle s (complete s.dev.cmd.nextId
        (ok (lo32 d1.rtc.secs) (hi32 d1.rtc.secs) 0 0) d1)))) ∧
  (starts specRtcAlarm p s = true →
    let d := begun specRtcAlarm p s
    let n := param p 0
    exec (.rtcAlarm p) s = .next (settle s (complete s.dev.cmd.nextId (ok 0 0 0 0)
      (firmPost Reg.rtcCommit (2 <<< n)
        (firmPost (Reg.rtcAlmTime n) (param p 2) (firmPost (Reg.rtcAlmDate n) (param p 1) d)))))) ∧
  (starts specRtcUnlock p s = true →
    let d := begun specRtcUnlock p s
    exec (.rtcUnlock p) s = .next (settle s (complete s.dev.cmd.nextId (ok 0 0 0 0)
      (firmPost Reg.rtcUnlock 0x005A (firmPost Reg.rtcUnlock 0x00A5 d))))) ∧
  (starts specRtcTrim p s = true →
    let d := begun specRtcTrim p s
    exec (.rtcTrim p) s = .next (settle s (complete s.dev.cmd.nextId (ok 0 0 0 0)
      (firmPost Reg.rtcCommit 8 (firmPost Reg.rtcCtl (param p 0) d)))))

/-- Completion of HLT_REFRESH, whose record completes it at its commit, and of HLT_BAT_TEST (R487, R489, R490). -/
def Rows.HealthRowsComplete : Prop := ∀ (p : Pkt) (s : State),
  (starts specHltRefresh p s = true →
    let d := begun specHltRefresh p s
    exec (.hltRefresh p) s = .next (settle s (takeHealth (some s.dev.cmd.nextId) d))) ∧
  (starts specHltBatTest p s = true →
    let d := begun specHltBatTest p s
    (d.rtc.onVbat = true →
      exec (.hltBatTest p) s = .next (settle s (complete s.dev.cmd.nextId
        (ok d.hlt.vo d.hlt.vl (d.hlt.vo - d.hlt.vl) 0) d))) ∧
    (d.rtc.onVbat = false → d.hlt.testAt = none →
      exec (.hltBatTest p) s = .next (settle s
        { d with hlt.test := some s.dev.cmd.nextId, hlt.testAt := some d.tim.ticks })))

/-! ### Register accesses and the outside of the interface -/

/-- Completion of the doorbell rows (R45, R46, R49): a value within the ring is taken; a kept completion is written when the head
makes room. -/
def Rows.DoorbellRowsComplete : Prop := ∀ (n : Fin 64) (w : Word) (s : State), reachable s.dev = true →
  let r := ringOf s.dev n.val
  let v := w.toNat % 4096
  r.st = .active → v < r.depth →
  ((r.sqTail + r.depth - r.sqHead) % r.depth + (v + r.depth - r.sqTail) % r.depth < r.depth →
    exec (.sqTailDoorbell n w) s = .next (settle s
      (modRing n.val (fun r => { r with sqTail := v }) (writeRk (Reg.ringSqTail n.val) w.toNat s.dev)))) ∧
  ((v + r.depth - r.cqHead) % r.depth ≤ (r.cqTail + r.depth - r.cqHead) % r.depth →
    exec (.cqHeadWrite n w) s = .next (settle s
      (flushKept n.val r.kept.length
        (modRing n.val (fun r => { r with cqHead := v }) (writeRk (Reg.ringCqHead n.val) w.toNat s.dev)))))


/-- Completion of the strobe and commit rows (R86, R90): a strobe arms the groups of the update mask or applies them at once;
a commit sets the reference now or marks it for the strobe; a capture starts with the next pass. -/
def Rows.StrobeRowsComplete : Prop := ∀ (s : State), reachable s.dev = true →
  let d := s.dev
  let m := regP d Reg.cfgUpdateMask
  exec .updateStrobe s = .next (settle s (orP Reg.cfgPend m d)) ∧
  exec .updateStrobeImmediate s = .next (settle s
    (applyGroups m (setP Reg.cfgPend (regP d Reg.cfgPend &&& (0xFFFFFFFF - m)) d))) ∧
  exec .commitAtStrobe s = .next (settle s (setF Reg.cfgStat 2 2 1 d)) ∧
  exec .commitNow s = .next (settle s (setReference (regP d Reg.cfgCrcRef) d)) ∧
  exec .captureNextPass s = .next (settle s
    { setF Reg.cfgStat 3 3 1 d with rg.passRestart := decide (d.sys.mode.code < 3) })

/-- Completion of the base-address rows (R40, R92): the low word applies both words; the host base is refused, and counted,
while a host ring is active. -/
def Rows.BaseAddressRowsComplete : Prop := ∀ (w : Word) (s : State), reachable s.dev = true →
  let dw := writePlain Reg.sysWinBaseLo w.toNat s.dev
  let dh := writePlain Reg.sysHostBaseLo w.toNat s.dev
  let busy := (List.range 64).any (fun n => decide ((ringOf s.dev n).st = .active) && !(ringOf s.dev n).loc)
  exec (.winBaseWrite w) s = .next (settle s (setA Reg.sysWinBaseHi (regP dw Reg.sysWinBaseHi) dw)) ∧
  (busy = false →
    exec (.hostBaseWrite w) s = .next (settle s (setA Reg.sysHostBaseHi (regP dh Reg.sysHostBaseHi) dh))) ∧
  (busy = true → exec (.hostBaseWrite w) s = .next (settle s (badAccess s.dev)))

/-- Completion of the reads and writes of registers (R81–R83, R88, R323): a read answers the register's word, clears its RC
fields and latches what it latches; a write stores by the fields' access. -/
def Rows.RegisterAccessRowsComplete : Prop := ∀ (o : Nat) (w : Word) (s : State), reachable s.dev = true →
  o % 4 = 0 → isMsixTable o = false → isMsixPba o = false → o % 0x10000 < 0x8000 → offsetImplemented o = true →
  (exec (.rcClearingRead o) s = .next (settle s
    { latchRead o (clearRead o s.dev) with cmd.lastRead := leBytes 4 (regWord s.dev o) })) ∧
  (exec (.latchingRead o) s = .next (settle s
    { latchRead o (clearRead o s.dev) with cmd.lastRead := leBytes 4 (regWord s.dev o) })) ∧
  (exec (.registerWrite o w) s = .next (settle s (regStore o w.toNat s.dev))) ∧
  (postMask o ≠ 0 → exec (.postedWrite o w) s = .next (settle s (regStore o w.toNat s.dev)))

/-- Completion of IRREGULAR_REGISTER_ACCESS (R81): an access that is not 32 bits wide or not aligned reads as all ones, one to an
offset that is no register reads as zero; each counts and stores nothing. -/
def Rows.IrregularAccessCompletes : Prop := ∀ (o : Nat) (narrow write : Bool) (s : State), reachable s.dev = true →
  let e := badAccess s.dev
  ((narrow = true ∨ o % 4 ≠ 0) →
    exec (.irregularRegisterAccess o narrow write) s = .next (settle s
      { e with cmd.lastRead := if write then s.dev.cmd.lastRead else [0xFF, 0xFF, 0xFF, 0xFF] })) ∧
  (narrow = false → o % 4 = 0 → isMsixTable o = false → isMsixPba o = false → o % 0x10000 < 0x8000 →
    offsetImplemented o = false →
    exec (.irregularRegisterAccess o narrow write) s = .next (settle s
      { e with cmd.lastRead := if write then s.dev.cmd.lastRead else [0, 0, 0, 0] })) ∧
  (narrow = false → write = true → o % 4 = 0 → isMsixTable o = false → isMsixPba o = false → 0x8000 ≤ o % 0x10000 →
    exec (.irregularRegisterAccess o narrow write) s = .next (settle s e))

/-- Completion of the landing of posted writes and of the clock's commits (R88, R477, R479, R480, R483). -/
def Rows.PostedRowsComplete : Prop := ∀ (b o : Nat) (w : Word) (s : State),
  (posted s.dev b = some (o, w) →
    exec (.postedWriteLands b) s = .next (settle s
      (let d := setL o (mergeBits (regL s.dev o) w.toNat (postMask o)) (unpost b s.dev)
       if o = Reg.rtcCommit then rtcCommit w.toNat d else if o = Reg.rtcUnlock then unlockKey w.toNat d else d))) ∧
  (posted s.dev 0 = some (Reg.rtcCommit, w) →
    let d := setL Reg.rtcCommit (mergeBits (regL s.dev Reg.rtcCommit) w.toNat (postMask Reg.rtcCommit)) (unpost 0 s.dev)
    (w.toNat &&& 1 ≠ 0 → exec .rtcCommitDatetime s = .next (settle s (rtcCommit w.toNat d))) ∧
    (w.toNat &&& 6 ≠ 0 → exec .rtcCommitAlarm s = .next (settle s (rtcCommit w.toNat d))) ∧
    (w.toNat &&& 8 ≠ 0 → exec .rtcCommitCtl s = .next (settle s (rtcCommit w.toNat d)))) ∧
  (posted s.dev 0 = some (Reg.rtcUnlock, w) →
    exec .rtcUnlockKey s = .next (settle s (unlockKey w.toNat
      (setL Reg.rtcUnlock (mergeBits (regL s.dev Reg.rtcUnlock) w.toNat (postMask Reg.rtcUnlock)) (unpost 0 s.dev)))))

/-- Completion of the CAN register rows (R392–R394, R398). -/
def Rows.CanRegisterRowsComplete : Prop :=
  ∀ (n : Fin 8) (m : Fin 64) (k : Fin 2) (mask w : Word) (s : State), reachable s.dev = true →
  let d := s.dev
  (exec (.canLockBuffer n m) s = .next (settle s (setMb n.val m.val 2 true d))) ∧
  (mbBit d n.val m.val 2 = false →
    exec (.canReleaseBuffer n m) s = .next (settle s (setMb n.val m.val 0 false d))) ∧
  (mbBit d n.val m.val 2 = true → (cbufOf d n.val m.val).shadow = none →
    exec (.canReleaseBuffer n m) s = .next (settle s (setMb n.val m.val 2 false (setMb n.val m.val 0 false d)))) ∧
  (∀ f, mbBit d n.val m.val 2 = true → (cbufOf d n.val m.val).shadow = some f →
    exec (.canReleaseBuffer n m) s = .next (settle s
      (setMb n.val m.val 2 false (setMb n.val m.val 3 false (setMb n.val m.val 0 true
        (setCbuf n.val m.val { cbufTake (cbufOf d n.val m.val) f with shadow := none } d)))))) ∧
  (∀ f l, fifoOf d n.val k.val = f :: l →
    exec (.canFifoPop n k) s = .next (settle s (setFifo n.val k.val l d))) ∧
  (mask.toNat ≠ 0 → 3 ≤ d.sys.mode.code → d.sys.mode ≠ .standby →
    exec (.canTxreqWrite n k mask) s = .next (settle s
      (canGo n.val ((List.range 32).foldl (fun d b =>
        if bitAt mask.toNat b && decide (mbMode d n.val (32 * k.val + b) = 4) && !mbBit d n.val (32 * k.val + b) 4 then
          setMb n.val (32 * k.val + b) 7 false (setMb n.val (32 * k.val + b) 4 true d)
        else d) d)))) ∧
  (exec (.canTxabortWrite n k mask) s = .next (settle s
    ((List.range 32).foldl (fun d b =>
      if bitAt mask.toNat b && mbBit d n.val (32 * k.val + b) 4 &&
          decide ((canOf d n.val).run ≠ some (32 * k.val + b)) then
        setMb n.val (32 * k.val + b) 6 true (setMb n.val (32 * k.val + b) 4 false d)
      else d) d))) ∧
  (canStatBit (writePlain (Reg.canCtl n.val) w.toNat d) n.val 31 = true →
    exec (.canBoffRecover n w) s = .next (settle s
      (setStat n.val 28 true (writePlain (Reg.canCtl n.val) w.toNat d))))

/-- Completion of ADC_START_WRITE, TIM_ALARM_ARM, GPIO_OUT_WRITE and BAR2_ACCESS (R30, R40, R329, R347, R352): an access through the
window is charged to class 15 and waits while that class is paused. -/
def Rows.PinAndWindowRowsComplete : Prop := ∀ (s : State), reachable s.dev = true →
  let d := s.dev
  (∀ mask : Byte,
    let qs := (List.range 8).filter (fun q =>
      bitAt mask.toNat q && bitAt (seqCfg d q) 31 && decide (bits (seqCfg d q) 29 24 = 25))
    exec (.adcStartWrite mask) s = .next (settle s
      { d with
        adc.reqs := d.adc.reqs ++ qs.map (fun q => (⟨q, d.tim.ticks + bits (seqCfg d q) 15 0, none⟩ : AdcReq)) })) ∧
  (∀ (n : Fin 4) (w : Word),
    let t := 2 ^ 32 * w.toNat + regP d (Reg.timAlarmLo n.val)
    let d1 := setP (Reg.timAlarmHi n.val) w.toNat d
    exec (.timAlarmArm n w) s = .next (settle s
      { d1 with tim.alarms := smSet none d1.tim.alarms n.val (if t = 0 then none else some t) })) ∧
  (∀ (k : Fin 3) (w : Word),
    let d1 := writePlain (Reg.ioxGpioOut k.val) w.toNat d
    (d1.sys.mode = .run → exec (.gpioOutWrite k w) s = .next (settle s (latchGpioOut k.val d1))) ∧
    (d1.sys.mode ≠ .run → exec (.gpioOutWrite k w) s = .next (settle s d1))) ∧
  (∀ (x len : Nat) (data : List Byte),
    let at_ := winBase d + x
    let free := classStops d 15 = false ∧ d.cmd.bar2 = []
    (winReaches d at_ len false = true →
      (free → exec (.bar2Access x false len data) s = .next (settle s
        (charge 15 .beats (beatsAt at_ len) { d with cmd.lastRead := rdBytes d at_ len }))) ∧
      (¬ free → exec (.bar2Access x false len data) s = .next (settle s
        (meetCeil 15 { d with cmd.bar2 := d.cmd.bar2 ++ [⟨at_, len, none⟩] })))) ∧
    (winReaches d at_ data.length true = true →
      (free → exec (.bar2Access x true len data) s = .next (settle s
        (charge 15 .beats (beatsAt at_ data.length) (wrBytes at_ data d)))) ∧
      (¬ free → exec (.bar2Access x true len data) s = .next (settle s
        (meetCeil 15 { d with cmd.bar2 := d.cmd.bar2 ++ [⟨at_, data.length, some data⟩] })))))

/-- Completion of the SPI rows (R76–R79): each counts as a transaction; an accepted write is kept until it lands. -/
def Rows.SpiRowsComplete : Prop := ∀ (s : State), reachable s.dev = true →
  let d := s.dev
  (∀ (a : Nat) (data : List Byte), d.cmd.spiBusy = false → 4 ≤ data.length → data.length ≤ 256 → data.length % 4 = 0 →
    (List.range data.length).any (fun i => decide (spiTarget (a + i) = .none)) = false →
    exec (.spiWrite a data) s = .next (settle s
      (bump 0 6 1 { d with cmd.spiBusy := true, cmd.spiWrite := some (a, data) }))) ∧
  (∀ a n : Nat, (List.range n).any (fun i => decide (spiTarget (a + i) = .none)) = false →
    exec (.spiRead a n) s = .next (settle s (bump 0 6 1 (spiReadFrom (ceilDiv n 4) a n [] d)))) ∧
  (exec .spiStatus s = .next (settle s (bump 0 6 1
    { d with cmd.lastRead := [u8 ((if d.cmd.spiBusy then 1 else 0) + (if d.cmd.spiErr then 2 else 0) + (if irq d then 4 else 0))],
             cmd.spiErr := false }))) ∧
  (exec .spiUnknownInstruction s = .next (settle s (bump 0 7 1 (bump 0 6 1 { d with cmd.spiErr := true })))) ∧
  (∀ a data, d.cmd.spiWrite = some (a, data) →
    exec .spiWriteLands s = .next (settle s (spiLands d)))

/-- Completion of FUNCTION_LEVEL_RESET, RING_TRANSFER_FAILURE, MSIX_MODERATION_EXPIRY and LAUNCH_TIMED_COMMAND_START
(R41, R49, R59–R61). -/
def Rows.InterfaceEventRowsComplete : Prop := ∀ (s : State),
  let d := s.dev
  (reachable d = true →
    (exec .functionLevelReset s = .next (settle s
      ((List.range 63).foldl (fun d i =>
          if (ringOf d (i + 1)).st ≠ .disabled ∧ (ringOf d (i + 1)).loc = false then
            setRing (i + 1) { ringOf d (i + 1) with st := .stopped, lost := true } d
          else d)
        (setPA Reg.sysWinBaseLo 0 (setPA Reg.sysWinBaseHi 0x10 { d with cmd.pcie := PcieCfg.reset, cmd.msix := msixReset, cmd.pba := [] }))))) ∧
    (∀ n : Fin 64, (ringOf d n.val).st ≠ .disabled →
      exec (.ringTransferFailure n true) s = .next (settle s
        (setRing n.val { ringOf d n.val with failing := true } d)) ∧
      (canFetch d n.val = true →
        exec (.ringTransferFailure n false) s = .next (settle s
          (raiseVec 69 (setRing n.val { ringOf d n.val with st := .stopped, xferErr := true, failing := false } d))))) ∧
    (∀ (n : Fin 64) (t : Nat), (ringOf d n.val).msgDue = true → (ringOf d n.val).lastMsg = some t →
      let d1 := advanceTo (t + 1000 * (ringOf d n.val).modUs) d
      exec (.msixModerationExpiry n) s = .next (settle s
        (msixSend n.val (setRing n.val { ringOf d1 n.val with lastMsg := some (now d1), msgDue := false } d1))))) ∧
  (∀ c, nextTimed d = some c → exec .launchTimedCommandStart s = .next (settle s
    (timedEffect c (advanceTo c.pkt.launchTime.toNat d))))

/-! ### Supply, reset, frame -/

/-- Completion of the supply and reset rows (R98, R103–R108): what each leaves of the device, and the boot that follows. -/
def Rows.PowerRowsComplete : Prop := ∀ (e : BootEnv) (s : State),
  let d := s.dev
  (d.sys.mode = .backup → exec .powerOnReset s = .next (settle s (resetDev 1 true { d with sys.pfail := false }))) ∧
  (d.sys.mode ≠ .backup → exec .mainSupplyLoss s = .next (settle s
    (modeChanged d.sys.mode .backup 0 (now d) (cleared .backup d.sys.resetLow d)))) ∧
  (d.sys.resetLow = false → d.sys.mode ≠ .backup → exec .resetNAssert s = .next (settle s (resetDev 2 true d))) ∧
  (d.sys.resetLow = true → d.sys.mode ≠ .backup →
    exec (.resetNRelease e) s = .next (settle s
      (boot e (setF Reg.sysBootStat 1 1 (b2n e.bootSel) (setF Reg.sysRefStat 1 1 (b2n e.refSel)
        { d with sys.resetLow := false, sys.refSel := e.refSel, sys.bootSel := e.bootSel }))))) ∧
  (d.sys.mode ≠ .backup → d.sys.resetLow = false →
    exec (.lockstepDivergence e) s = .next (settle s (boot e (resetDev 4 false d))) ∧
    exec (.watchdogExpiry e) s = .next (settle s (boot e (resetDev 8 false d))))

/-- Completion of PFAIL_N_LATCH, PFAIL_N_RELEASE, REFERENCE_LOSS and REFERENCE_RELOCK (R17, R99, R100, R433): the load is shed,
the device holds, and what was pending is committed; the reference's loss is flagged and reported. -/
def Rows.SupplyEventRowsComplete : Prop := ∀ (e : BootEnv) (s : State),
  let d := s.dev
  d.sys.mode ≠ .backup → d.sys.resetLow = false →
  (d.sys.pfail = false →
    let d1 := raiseVec 68 { d with sys.pfail := true }
    let shed := d1.pln.runs.any (fun r => decide (r.phase ≠ .queued) && [3, 4, 5, 13].contains r.cls)
    let d2 := holdCause 4 (shedLoad d1)
    let d3 := if d2.sys.mode = .standby ∧ shed = true then setSynced false d2 else d2
    exec .pfailNLatch s = .next (settle s (if firmwareRuns d3 then pfailCommit d3 else d3))) ∧
  (d.sys.pfail = true →
    let d1 := meterResume (granaryResume { d with sys.pfail := false })
    let d2 := if actingStandby d1 && !synced d1 && !d1.trl.imageReq then requestImage d1 else d1
    exec (.pfailNRelease e) s = .next (settle s (if d2.sys.bootPaused then bootFabric e d2 else d2))) ∧
  (d.sys.refPresent = true →
    exec .referenceLoss s = .next (settle s (raiseVec 69 (orP Reg.sysRefStat 5 { d with sys.refPresent := false })))) ∧
  (d.sys.refPresent = false →
    exec .referenceRelock s = .next (settle s (setF Reg.sysRefStat 0 0 0 { d with sys.refPresent := true })))

/-- Completion of FRAME_BOUNDARY (R22, R95, R96, R158): time comes to the next multiple of the frame length, a late frame counts,
the pins are taken, and the work of the boundary is done in its order: mode changes, budgets, the model commit, publications,
the capture, triggers, marks, reports, snapshots. -/
def Rows.FrameBoundaryCompletes : Prop := ∀ (levels : BitVec 96) (peer : Bool) (e : BootEnv) (s : State),
  s.dev.sys.seqOn = true →
  let b := s.dev.sys.lastBoundary
  let d1 := fireBoundary s.dev
  (d1.trl.lease = true →
    let d2 := if frameLate (b.getD 0) d1 = true ∧ b.isSome = true then addF Reg.sysFrameLate 31 0 1 d1 else d1
    let d3 := takePins levels.toNat peer (releaseSignature d2)
    let t := frameStart d3
    let d4 := boundaryModes t (staleMirror (strobeBoundary d3))
    let d5 := publishSetpoints (publishState (modelCommitEffect t (boundaryBudgets t d4)))
    exec (.frameBoundary levels peer e) s = .next (settle s
      (snapshots (reportsBoundary (markBoundary (adcTrigger 24 (pwmFrameSync
        (captureFrame t (b.getD (frameStart d2)) d5)))))))) ∧
  (d1.trl.lease = false →
    exec (.frameBoundary levels peer e) s = .next (settle s (internalReset 8 e d1)))

/-- Completion of RE_PLACEMENT, SHARE_RERUN and RE_SOLVE_START (R203–R208, R272, R273). -/
def Rows.PlacementEventRowsComplete : Prop := ∀ (s : State),
  let d := s.dev
  (d.plc.replacePend = true → runInProgress d = false → d.plc.replaceAt = some d.tim.ticks →
    (∀ id, d.plc.rebuild = some id →
      exec .rePlacement s = .next (settle s (complete id (ok (replaceAll d).1 (replaceAll d).2.1 0 0)
        { (replaceAll d).2.2 with plc.rebuild := none }))) ∧
    (d.plc.rebuild = none → exec .rePlacement s = .next (settle s (replaceAll d).2.2))) ∧
  (∀ id unit r q sh, findRun d id = some r → sheafOf d id = some q → q.shares.find? (fun x => x.1 = unit) = some sh →
    let d1 := bump 4 4 1 (addF Reg.plcRerunCnt 31 0 1
      (setSheaf { q with shares := q.shares.filter (fun x => x.1 ≠ unit), rerun := q.rerun ++ [sh.2] } d))
    exec (.shareRerun id unit) s = .next (settle s (if r.phase = .status then recordsDone r d1 else d1))) ∧
  (∀ cmd x c pl, d.ra.resolves.find? (fun y => y.cmd = cmd) = some x → findCmd d cmd = some c →
    (x.firm = true ∨ earlierResolve d x = false) → slicesRun d 5 = true →
    let p := resolvePkt x c.pkt
    let d1 := { d with ra.resolves := d.ra.resolves.filter (fun y => y.cmd ≠ cmd) }
    let d2 := bump 7 8 1 { d1 with ra.resolving := true }
    planIn d1 (subSlot p) = some pl → subEntry p < pl.entries.length →
    exec (.reSolveStart cmd) s = .next (settle s
      (fabricRunStart x.age
        (if p.opcode.toNat = 0x0501 then submitSheaf x.age true cmd p d2 else submitLsq x.age true cmd p d2))))

/-- Completion of GUARD_PASS (R89, R91): the pass's CRC is live and counted; a capture takes it as the reference; an armed guard
that finds it different reports a mismatch. -/
def Rows.GuardPassCompletes : Prop := ∀ (olds : List Nat) (s : State), 3 ≤ s.dev.sys.mode.code →
  let v := passCrc olds s.dev
  let d1 := addF Reg.cfgPassCnt 31 0 1 (setP Reg.cfgCrcLive v s.dev)
  let d2 := { d1 with rg.passOld := [], rg.passRestart := true }
  let capture := fld d2 Reg.cfgStat 3 3 = 1 ∧ d1.rg.passRestart = true
  (capture → exec (.guardPass olds) s = .next (settle s (setReference v (setF Reg.cfgStat 3 3 0 d2)))) ∧
  (¬ capture → fld d2 Reg.cfgCtl 0 0 = 1 → fld d2 Reg.cfgStat 1 1 = 1 → regP d2 Reg.cfgCrcActive ≠ v →
    exec (.guardPass olds) s = .next (settle s (mismatch d2))) ∧
  (¬ capture → ¬ (fld d2 Reg.cfgCtl 0 0 = 1 ∧ fld d2 Reg.cfgStat 1 1 = 1 ∧ regP d2 Reg.cfgCrcActive ≠ v) →
    exec (.guardPass olds) s = .next (settle s d2))

/-- Completion of the pace and supply-voltage rows (R174–R181): the measured band at the end of a window, the response to a
voltage write, the governor's repeated raise and its lowering. -/
def Rows.PaceRowsComplete : Prop := ∀ (raw : List Nat) (s : State),
  let d := s.dev
  (let d1 := paceWindowEnd raw d
   exec (.paceWindowEnd raw) s = .next (settle s
     (if d1.thr.below = true ∧ d.thr.below = false then declareFault 3 d1 else d1))) ∧
  (∀ w, d.thr.avs = some w →
    exec (.avsResponse true) s = .next (settle s
      (let d1 := { d with thr.vcode := w.code, thr.avs := none, thr.avsErr := false,
                          thr.repeatAt := if w.raise then some (d.tim.ticks + 2000) else d.thr.repeatAt }
       if w.raise = false ∧ govOn d1 = true then govRaise d1 else d1)) ∧
    (w.tries < 2 → exec (.avsResponse false) s = .next (settle s
      { d with thr.avs := some { w with tries := w.tries + 1 } })) ∧
    (2 ≤ w.tries → exec (.avsResponse false) s = .next (settle s
      (raiseVec 69 (addF Reg.thrAvsErrCnt 31 0 1 { d with thr.avs := none, thr.avsErr := true }))))) ∧
  (d.thr.avs = none →
    exec (.avsResponse true) s = .next (settle s { d with thr.avsErr := false, thr.readTries := 0 }) ∧
    (d.thr.readTries < 2 → exec (.avsResponse false) s = .next (settle s
      { d with thr.readTries := d.thr.readTries + 1 })) ∧
    (2 ≤ d.thr.readTries → exec (.avsResponse false) s = .next (settle s
      (raiseVec 69 (addF Reg.thrAvsErrCnt 31 0 1 { d with thr.avsErr := true, thr.readTries := 0 }))))) ∧
  (∀ t, d.thr.repeatAt = some t →
    let d1 := advanceTicks t { d with thr.repeatAt := none }
    exec .governorRepeat s = .next (settle s (if govOn d1 then govRaise d1 else d1))) ∧
  (∀ t, d.thr.lowerSince = some t → govOn d = true → d.thr.avs = none → d.thr.avsErr = false →
    let d1 := advanceTicks (t + 250000 * fldA d Reg.thrGovCfg 7 0) d
    let d2 := { d1 with thr.lowerSince := some d1.tim.ticks }
    exec .governorLower s = .next (settle s (if vMin d2 < d2.thr.vcode then avsIssue (d2.thr.vcode - 1) false d2 else d2)))

/-- Completion of FABRIC_RUN_START and DEADLINE_REACHED (R183, R206, R208, R245): a run that can start starts, and a warm start reads
its estimate through the register mirror first; a run on a slot left unplaced completes NO_PLACEMENT; time comes to the deadline and
the run knows it. -/
def Rows.RunEventRowsComplete : Prop := ∀ (id : Nat) (r : Run) (s : State), findRun s.dev id = some r →
  let d := s.dev
  let warm : Dev := match lsqOf d id with
    | some q => if canStart d r && bitAt q.lflags 0 then
        engineReads (mirrorWords (q.buf + q.warmOfs) (64 + 8 * (varList (modelOf d r.gen).objs).length)) d
      else d
    | none => d
  (∀ r0, findRun warm id = some r0 → canStart warm r0 = true →
    (unplacedSlot warm r0.slot = true → exec (.fabricRunStart id) s = .next (settle s (unplacedRun r0 warm))) ∧
    (unplacedSlot warm r0.slot = false → ∀ r1, findRun (startRun r0 warm) id = some r1 →
      exec (.fabricRunStart id) s = .next (settle s
        (if r1.kind = .lsq then lsqStart r1 (startRun r0 warm) else startRun r0 warm)))) ∧
  (∀ q, r.deadline ≠ 0 → findRun (advanceTo r.deadline d) id = some q →
    exec (.deadlineReached id) s = .next (settle s (setRun { q with dlPassed := true } (advanceTo r.deadline d))))

/-- Completion of the status phases (R226–R228, R252–R254). -/
def Rows.StatusPhaseRowsComplete : Prop := ∀ (id : Nat) (r : Run) (s : State), findRun s.dev id = some r →
  let d := s.dev
  r.phase = .status → classStops d r.cls = false →
  (∀ q, sheafOf d id = some q → r.kind = .sheaf → q.shares = [] →
    let test := hasMemberTest r.plan (entryAt r.plan r.entry)
    let failed := (List.range q.c).filter (fun g => (memberAt q g).fail ≠ 0)
    let d1 := failed.foldl (fun d g => zeroMember r q g d) d
    let d2 := if bitAt q.hflags 1 then
        charge r.cls .beats (beatsOf (16 * q.c))
          (wrBytes (q.buf + q.statusOfs) ((List.range q.c).flatMap (fun g => statusRecord r test (memberAt q g))) d1)
      else d1
    let live := ((List.range q.c).map (memberAt q)).filter (fun m => m.fail = 0)
    exec (.sheafStatusPhase id) s = .next (settle s (endRun r (sheafResult r q) (countLate r
      (bump 5 7 q.c (bump 5 8 (live.filter (fun m => m.regCount ≠ 0)).length
        (bump 5 9 (live.foldl (fun n m => n + m.regCount) 0) (bump 5 10 failed.length
          (bump 5 11 (if test then (live.filter (fun m => !m.converged)).length else 0) d2))))))))) ∧
  (∀ q, lsqOf d id = some q → r.kind = .lsq →
    let d1 := bump 6 10 q.outliers.length (bump 6 12 q.reg d)
    let d2 := if q.failed then d1
      else match r.spec.bind (periodOf d1) with
        | some p => setPeriod { p with staged := some (lsqPub d1 r q) } d1
        | none => { d1 with lsq.pub := some (lsqPub d1 r q) }
    let d3 := if bitAt q.lflags 2 && !q.failed && r.spec.isNone then
        putResiduals r q d2.mdl.newest (putResiduals r q (pinnedSet d2 r.id) d2)
      else d2
    exec (.lsqStatusPhase id) s = .next (settle s (endRun r (lsqResult r q) (countLate r
      (charge r.cls .beats (beatsOf (64 + 9 * (varList (modelOf d r.gen).objs).length)) d3)))))

/-! ### Kernels -/

/-- Run `id` stands at a record of kernel `code` that ends now, once the record's reads of the register mirror are done; what follows
is stated of the device then, with the record paid for. -/
def Rows.Ends (code id : Nat) (cond : KRec → Bool) (r : Run) (d : Dev) (P : Run → Dev → Prop) : Prop :=
  let e := stageRecord code cond id d
  recordReady e code id cond r → P (paidRun e r) (paidDev e r)

/-- Completion of the records that steer a run: NOP, LOOP_BEGIN, LOOP_TEST and LOOP_END (R145, R148, R185, R225, R226). -/
def Rows.ControlRecordRowsComplete : Prop := ∀ (id : Nat) (r : Run) (s : State),
  (Rows.Ends 0x00 id anyRec r s.dev fun q d1 =>
    exec (.fabricNop id) s = .next (settle s (markEnd r (setRun { q with idx := q.idx + 1 } d1)))) ∧
  (Rows.Ends 0x01 id anyRec r s.dev fun q d1 =>
    exec (.loopBegin id) s = .next (settle s
      (markEnd r (setRun { q with loops := q.loops ++ [(q.idx, 0)], idx := q.idx + 1 } d1)))) ∧
  (Rows.Ends 0x02 id anyRec r s.dev fun q d1 =>
    let t := if bitAt (curRec r).arg 1 && (sheafOf d1 r.id).isSome then memberwiseTest q (curRec r) d1
      else wholeTest q (curRec r) d1
    exec (.loopTest id) s = .next (settle s (moveOn 0x02 id r t.2 t.1))) ∧
  (∀ b k l, r.loops = l ++ [(b, k)] → Rows.Ends 0x03 id anyRec r s.dev fun q d1 =>
    let outer := decide (l = [])
    let p := if l = [] then r.passes + 1 else r.passes
    (k + 1 < (recAt r.plan b).arg →
      exec (.loopEnd id) s = .next (settle s
        (markEnd r (iterBoundary { q with loops := l ++ [(b, k + 1)], idx := b + 1, passes := p } outer d1)))) ∧
    ((recAt r.plan b).arg ≤ k + 1 →
      exec (.loopEnd id) s = .next (settle s
        (markEnd r (iterBoundary { q with loops := l, idx := r.idx + 1, passes := p,
                                          capped := r.capped || outer || memberwiseIn r.plan b r.idx } outer d1)))))

/-- Completion of the element kernels (R145, R167–R171): COPY and PUBLISH convert element by element, FILL stores one value. -/
def Rows.ElementKernelRowsComplete : Prop := ∀ (id : Nat) (r : Run) (s : State),
  let x := curRec r
  let copied (q : Run) (d1 : Dev) : Dev :=
    let ps := (tileAt q.plan (opnd x 0)).prec
    let pd := (tileAt q.plan (opnd x 1)).prec
    (List.range (members d1 q x)).foldl (fun d j =>
      (List.range x.n).foldl (fun d c =>
        (List.range x.m).foldl (fun d i =>
          elemStep q x (opnd x 1) j i c (i + x.m * (c + x.n * j))
            ((readElem d q (opnd x 0) j i c).2 && inputFails q (opnd x 0) (readElem d q (opnd x 0) j i c).1)
            (if ps = 2 ∨ pd = 2 then pure (readElem d q (opnd x 0) j i c).1
             else kconv (fmtOf ps) (fmtOf pd) (readElem d q (opnd x 0) j i c).1) d) d) d) d1
  (Rows.Ends 0x04 id anyRec r s.dev fun q d1 =>
    exec (.copy id) s = .next (settle s (moveOn 0x04 id r false (copied q d1)))) ∧
  (Rows.Ends 0x07 id anyRec r s.dev fun q d1 =>
    exec (.publish id) s = .next (settle s (moveOn 0x07 id r false (copied q d1)))) ∧
  (Rows.Ends 0x05 id anyRec r s.dev fun q d1 =>
    exec (.fill id) s = .next (settle s (moveOn 0x05 id r false (fillBody q x d1)))) ∧
  (Rows.Ends 0x08 id anyRec r s.dev fun q d1 =>
    exec (.axpy id) s = .next (settle s (moveOn 0x08 id r false (axpyBody q x d1))))

/-- Completion of the dense kernels (R145, R167–R172): DOT, GEMV, GEMM, SYRK. The order of a reduction is a free value where it
could show (log 10). -/
def Rows.DenseKernelRowsComplete : Prop := ∀ (id : Nat) (r : Run) (s : State),
  (Rows.Ends 0x09 id anyRec r s.dev fun q d1 =>
    exec (.dot id) s = .next (settle s (moveOn 0x09 id r false (dotBody q (curRec r) d1)))) ∧
  (Rows.Ends 0x0A id anyRec r s.dev fun q d1 =>
    exec (.gemv id) s = .next (settle s (moveOn 0x0A id r false (gemvBody q (curRec r) d1)))) ∧
  (Rows.Ends 0x0B id anyRec r s.dev fun q d1 =>
    exec (.gemm id) s = .next (settle s (moveOn 0x0B id r false (gemmBody q (curRec r) d1)))) ∧
  (Rows.Ends 0x0C id anyRec r s.dev fun q d1 =>
    exec (.syrk id) s = .next (settle s (moveOn 0x0C id r false (syrkBody q (curRec r) d1))))

/-- Completion of the batched kernels (R145, R219–R224): the factorisations, solves, residuals and permutations of the members of
a sheaf. -/
def Rows.BatchedKernelRowsComplete : Prop := ∀ (id : Nat) (r : Run) (s : State),
  (Rows.Ends 0x10 id anyRec r s.dev fun q d1 =>
    exec (.bpotrf id) s = .next (settle s (moveOn 0x10 id r false (batchBody q (curRec r) d1)))) ∧
  (Rows.Ends 0x11 id anyRec r s.dev fun q d1 =>
    exec (.bldlt id) s = .next (settle s (moveOn 0x11 id r false (batchBody q (curRec r) d1)))) ∧
  (Rows.Ends 0x12 id anyRec r s.dev fun q d1 =>
    exec (.bgetrf id) s = .next (settle s (moveOn 0x12 id r false (batchBody q (curRec r) d1)))) ∧
  (Rows.Ends 0x13 id anyRec r s.dev fun q d1 =>
    exec (.bgeqrf id) s = .next (settle s (moveOn 0x13 id r false (batchBody q (curRec r) d1)))) ∧
  (Rows.Ends 0x14 id anyRec r s.dev fun q d1 =>
    exec (.btrs id) s = .next (settle s (moveOn 0x14 id r false (batchBody q (curRec r) d1)))) ∧
  (Rows.Ends 0x15 id anyRec r s.dev fun q d1 =>
    exec (.bresid id) s = .next (settle s (moveOn 0x15 id r false (batchBody q (curRec r) d1)))) ∧
  (Rows.Ends 0x16 id anyRec r s.dev fun q d1 =>
    exec (.bperm id) s = .next (settle s (moveOn 0x16 id r false (batchBody q (curRec r) d1)))) ∧
  (Rows.Ends 0x17 id anyRec r s.dev fun q d1 =>
    exec (.bqrApply id) s = .next (settle s (moveOn 0x17 id r false (batchBody q (curRec r) d1))))

/-- Completion of the kernels of an estimate (R145, R246–R251): gathering, Jacobian, normal system, elimination, trunk,
damping, projection. -/
def Rows.EstimateKernelRowsComplete : Prop := ∀ (id : Nat) (r : Run) (s : State), r.kind = .lsq →
  (Rows.Ends 0x06 id anyRec r s.dev fun q d1 =>
    exec (.gatherMeas id) s = .next (settle s (moveOn 0x06 id r false (gatherBody q (curRec r) d1)))) ∧
  (Rows.Ends 0x18 id anyRec r s.dev fun q d1 =>
    exec (.potrf id) s = .next (settle s (moveOn 0x18 id r false (trunkBody q (curRec r) d1)))) ∧
  (Rows.Ends 0x19 id anyRec r s.dev fun q d1 =>
    exec (.trs id) s = .next (settle s (moveOn 0x19 id r false (trsBody q (curRec r) d1)))) ∧
  (Rows.Ends 0x1A id anyRec r s.dev fun q d1 =>
    exec (.jacEval id) s = .next (settle s (moveOn 0x1A id r false (jacBody q (curRec r) d1)))) ∧
  (Rows.Ends 0x1B id anyRec r s.dev fun q d1 =>
    exec (.jtwj id) s = .next (settle s (moveOn 0x1B id r false (jtwjBody q (curRec r) d1)))) ∧
  (Rows.Ends 0x1C id anyRec r s.dev fun q d1 =>
    exec (.blockElim id) s = .next (settle s (moveOn 0x1C id r false (elimBody q (curRec r) d1)))) ∧
  (Rows.Ends 0x1D id anyRec r s.dev fun q d1 =>
    exec (.blockBack id) s = .next (settle s (moveOn 0x1D id r false (backBody q (curRec r) d1)))) ∧
  (Rows.Ends 0x1E id dampRec r s.dev fun q d1 =>
    exec (.lmDampDamp id) s = .next (settle s (moveOn 0x1E id r false (dampBody q (curRec r) d1)))) ∧
  (Rows.Ends 0x1E id decideRec r s.dev fun q d1 =>
    exec (.lmDampDecide id) s = .next (settle s (moveOn 0x1E id r false (decideBody q (curRec r) d1)))) ∧
  (Rows.Ends 0x1F id anyRec r s.dev fun q d1 =>
    exec (.boxProject id) s = .next (settle s (moveOn 0x1F id r false (boxBody q (curRec r) d1))))

/-- Completion of EXTRAPOLATE, TOL_COMPARE and KNOWN_ANSWER (R188–R190, R262): a known-answer record takes the results of the
clusters that it tests; fewer than 32 clusters and spares left are a fault of the unit. -/
def Rows.RunAheadKernelRowsComplete : Prop := ∀ (id : Nat) (r : Run) (s : State),
  (Rows.Ends 0x20 id anyRec r s.dev fun q d1 =>
    exec (.extrapolate id) s = .next (settle s (moveOn 0x20 id r false (extrapolateBody q (curRec r) d1)))) ∧
  (Rows.Ends 0x21 id anyRec r s.dev fun q d1 =>
    exec (.tolCompare id) s = .next (settle s (moveOn 0x21 id r false (tolCompareBody q (curRec r) d1)))) ∧
  (∀ (slot entry : Nat) (margins : List Nat) (pass : List Bool),
    let d := startSelfTest slot entry s.dev
    testRun d slot entry = some r → d.sys.pfail = false → idleFor d r = true → recordReady d 0x22 r.id anyRec r →
    let e := moveOn 0x22 r.id r false (testBodyOf (pass.zip margins) (paidRun d r) (curRec r) (paidDev d r))
    let good (e : Dev) : Nat := (e.thr.clusters.filter (fun c => c.state ≠ 2)).length
    exec (.knownAnswer slot entry margins pass) s = .next (settle s
      (if good e < good s.dev ∧ good e < 32 then declareFault 2 e else e)))

/-! ### Logic scans, loops, launches, pins, converters -/

/-- Completion of the scan rows (R302–R306, R315): a due scan starts once the loops of earlier frames are done, or waits in its class's
pause; a paused scan resumes; a scan that outruns its bound is late. -/
def Rows.ScanRowsComplete : Prop := ∀ (dur : Nat) (c : Scan) (l : List Scan) (s : State), s.dev.cle.scans = c :: l →
  let d := s.dev
  let e := endJobs d
  let c1 : Scan := { c with ofs := fldA e Reg.cleScanCfg 29 20, policy := fldA e Reg.cleCtl 1 1, started := now e, stage := .pausedIn }
  (c.stage = .due → e.clp.jobs.any (fun j => decide (j.cap.t < c.cap.t)) = false → scansRun e = true →
    (scanPaused e = false → exec (.logicScanStart dur) s = .next (settle s (scanRun c1 dur (setScan c1 e)))) ∧
    (scanPaused e = true → exec (.logicScanStart dur) s = .next (settle s (meetCeil 2 (setScan c1 e))))) ∧
  (c.stage = .pausedIn → scanPaused d = false → exec (.logicScanResume dur) s = .next (settle s (scanRun c dur d))) ∧
  (c.stage = .pausedOut → scanPaused d = false → exec (.logicScanResume dur) s = .next (settle s (scanEnd c (now d) d))) ∧
  (c.over_ = false → exec .logicScanOverrun s = .next (settle s (scanLate c (advanceTo (scanOut d c) d))))

/-- Completion of LOOP_SAMPLE, LAUNCH_FIRE and SETPOINT_REPEAT_SEND (R281–R290, R340–R342, R421): the loop that is next is sampled; the
due entries fire in order, speculative ones are suppressed, those that may not act are removed. -/
def Rows.LaunchEventRowsComplete : Prop := ∀ (s : State),
  let d := s.dev
  (∀ j rest k, (endJobs (dropDue d)).clp.jobs = j :: rest → j.waitScan = false →
    let e := endJobs (dropDue d)
    let src := regA e (Reg.clpLoopSrc k)
    let dst := regA e (Reg.clpLoopDst k)
    let y := loopSource e j (bits src 15 0)
    let sp := loopSource e j (bits src 31 16)
    let v := loopSource e j (bits dst 31 16)
    let dest := loopDest (bits dst 15 0)
    let bad := if y.2 = true ∨ sp.2 = true ∨ v.2 = true ∨ dest.2 = true then 128 else 0
    let e1 := charge 1 .beats (Config.loopBeats k).toNat { e with clp.jobs := { j with next := k + 1 } :: rest }
    nextLoop e j = some k → classStops e 1 = false →
    ((loopOf e k).retune = none →
      exec .loopSample s = .next (settle s (computeSample j k y.1 sp.1 v.1 bad dest.1 e1))) ∧
    (∀ q, (loopOf e k).retune = some q →
      exec .loopSample s = .next (settle s (skipSample k q y.1 sp.1 bad e1)))) ∧
  (∀ t, firstFire d = some t → 3 ≤ d.sys.mode.code → d.sys.seqOn = true →
    let d1 := advanceTo t d
    (awaitedBoundary d).any (fun b => decide (b ≤ now d1)) = false →
    let es := dueEntries t d1
    let sup := es.filter (fun x => unresolved d1 x.2)
    let go := es.filter (fun x => !unresolved d1 x.2)
    let d2 := sup.foldl (fun d x => dropEntry x.1 .suppressed (bump 7 10 1 d)) d1
    let fires (x : Nat × LEntry) : Bool := !removesUnfired d1 x
    let d3 := go.foldl (fun d x =>
      let n := b2n (fires x && decide (x.1 < 4096))
      bump 7 9 (b2n (x.2.bySpec && fires x)) (bump 0xD 4 n (bump 0xD 5 (n * b2n x.2.late) (fireValue x.1 x.2 d)))) d2
    let d4 := fireSetpoints 4096 (go.filter (fun x => decide (x.2.kind = 5 ∧ x.1 < 4096) && fires x)) d3
    exec .launchFire s = .next (settle s
      (go.foldl (fun d x => dropEntry x.1 (if fires x then .fired else .removed) d) d4))) ∧
  (∀ r rs, d.tim.repeats = r :: rs →
    let f := rs.foldl (fun (a : Repeat) b => if b.due < a.due then b else a) r
    let d1 := advanceTo f.due { d with tim.repeats := d.tim.repeats.erase f }
    let d2 := sendDatagram f.subst f.due f.payload d1
    (d1.sys.mode ≠ .run → exec .setpointRepeatSend s = .next (settle s d1)) ∧
    (d1.sys.mode = .run → f.left = 0 → exec .setpointRepeatSend s = .next (settle s d2)) ∧
    (d1.sys.mode = .run → f.left ≠ 0 → exec .setpointRepeatSend s = .next (settle s
      { d2 with tim.repeats := d2.tim.repeats ++
        [{ f with due := f.due + 10000 * (substOf d2 f.subst).gap, left := f.left - 1 }] })))

/-- Completion of the pin rows (R353–R356, R13): a PWM period, a pulse's end or next pulse, a counted edge, the HOLD_N pins. -/
def Rows.PinEventRowsComplete : Prop := ∀ (s : State),
  let d := s.dev
  (∀ n : Fin 16, pwmOn d n.val = true →
    exec (.pwmPeriodStart n) s = .next (settle s
      (pwmStart n.val (advanceTicks ((pwmOf d n.val).start + (pwmOf d n.val).period) d)))) ∧
  (∀ n : Fin 8, (poOf d n.val).active = true →
    let d1 := advanceTicks (poOf d n.val).endActive d
    exec (.pulseOutputPulse n) s = .next (settle s (setPo n.val { poOf d1 n.val with active := false } d1))) ∧
  (∀ n : Fin 8, (poOf d n.val).active = false → poLaunch d n.val = true → (poOf d n.val).remaining ≠ 0 →
    exec (.pulseOutputPulse n) s = .next (settle s (pulseTrain n.val (advanceTicks (poOf d n.val).endGap d)))) ∧
  (∀ (n : Fin 16) (rising : Bool),
    let cfg := regA d (Reg.ioxPiCfg n.val)
    let d1 := { d with iox.piLevel := putBits d.iox.piLevel n.val n.val (b2n rising) }
    let x := piOf d1 n.val
    let counts := (bits cfg 9 8 = 0 ∧ rising = true) ∨ (bits cfg 9 8 = 1 ∧ rising = false) ∨ 2 ≤ bits cfg 9 8
    (bitAt cfg 31 = true → 3 ≤ d.sys.mode.code → counts →
      exec (.pulseInputEdge n rising) s = .next (settle s
        { d1 with
          iox.pi := smSet PulseIn.reset d1.iox.pi n.val
            { x with count := (x.count + 1) % 2 ^ 32, at_ := d.tim.ticks } })) ∧
    ((bitAt cfg 31 = false ∨ d.sys.mode.code < 3 ∨ ¬ counts) →
      exec (.pulseInputEdge n rising) s = .next (settle s d1))) ∧
  (∀ ext sense : Bool,
    let d1 := { d with iox.holdExt := ext, iox.sense := sense }
    exec (.holdNChange ext sense) s = .next (settle s (if frozen d1 && !frozen d then discardPulses d1 else d1)))

/-- Completion of the converter rows (R344–R350): a timer's trigger at its offset in the frame, the requests due at one instant
in the order urgent first, a conversion's result. -/
def Rows.ConverterEventRowsComplete : Prop := ∀ (s : State),
  let d := s.dev
  (∀ n : Fin 8, smGet none (d.adc.timerLast.map (fun kv => (kv.1, some kv.2))) n.val = none →
    let cfg := regA d (Reg.adcTimerCfg n.val)
    let ofs := bits cfg 23 0
    bitAt cfg 31 = true → 4 * ofs < d.sys.frameLen →
    let d1 := advanceTo (d.sys.lastBoundary.getD 0 + 4 * ofs) d
    exec (.adcTriggerTimer n) s = .next (settle s
      (adcTrigger n.val { d1 with adc.timerLast := smSet 0 d1.adc.timerLast n.val (ofs + 1) }))) ∧
  (∀ q l, d.adc.reqs = q :: l →
    let due := (l.map (·.due)).foldl min q.due
    let d1 := advanceTicks due d
    let rs := d1.adc.reqs.filter (fun r => r.due = due)
    let d2 := { d1 with adc.reqs := d1.adc.reqs.filter (fun r => r.due ≠ due) }
    let order := (List.range 8).flatMap (fun q => rs.filter (fun r => r.seq = q))
    exec .adcSequenceRequest s = .next (settle s
      ((order.filter (fun r => !seqUrgent d2 r.seq)).foldl serveReq
        (startPending 1 (startPending 0 ((order.filter (fun r => seqUrgent d2 r.seq)).foldl serveReq d2)))))) ∧
  (∀ (c : Fin 2) (vin : Int) (vref : Nat) (refOk : Bool) (q e tick time : Nat), (convOf d c.val).running = some (q, e, tick, time) →
    let d1 := advanceTicks (tick + 250) d
    let n := seqChannel d1 (4 * c.val + q) e
    let d2 := adcResult n (adcCode n (resOf d1 n).count vin vref refOk) (time + 250) d1
    let x := convOf d2 c.val
    let d3 := setConv c.val { x with running := none, last := false } d2
    (x.last = true →
      exec (.adcConversionComplete c vin vref refOk) s = .next (settle s (startPending c.val d3))) ∧
    (x.last = false → e < bits (seqCfg d2 (4 * c.val + q)) 23 20 →
      exec (.adcConversionComplete c vin vref refOk) s = .next (settle s
        (setConv c.val { x with running := some (q, e + 1, d2.tim.ticks, now d2) } d2))) ∧
    (x.last = false → bits (seqCfg d2 (4 * c.val + q)) 23 20 ≤ e →
      exec (.adcConversionComplete c vin vref refOk) s = .next (settle s
        (if d3.adc.reqs.any (fun r => decide (r.seq / 4 = c.val ∧ r.due ≤ d3.tim.ticks) && seqUrgent d3 r.seq) then d3
         else startPending c.val d3))))

/-- Completion of MTR_SAMPLE (R361–R369): the codes enter the history, half windows and crossings are looked for, the cycles that
end are closed. -/
def Rows.MeterSampleCompletes : Prop := ∀ (codes : List Int) (s : State), elecOn s.dev = true →
  let k := max (s.dev.mtr.lastTick / 31250 + 1) (ceilDiv s.dev.tim.ticks 31250) * 31250
  let d1 := advanceTicks k s.dev
  let t := now d1
  let d2 := if d1.mtr.on then d1 else meterStart t d1
  let d3 := { d2 with mtr.lastTick := k, mtr.hist := (t, codes.map (fun c => sx 24 (enc 24 c))) :: d2.mtr.hist }
  let d4 := [0, 1, 2].foldl (fun d p => halfWindow p d) d3
  let r := [0, 1, 2].foldl (fun (r : List (Nat × Nat) × Dev) p =>
    ((match (lookCross p r.2).1 with
      | some tc => r.1 ++ [(p, tc)]
      | none => r.1), (lookCross p r.2).2)) (([] : List (Nat × Nat)), d4)
  let d6 := r.1.foldl (fun d c => zxEnd c.1 c.2 (setPhase3 c.1 { phaseOf d c.1 with genuine := true } d)) (closeCycles r.1 r.2)
  ((r.1.find? (fun c => c.1 = 0)) = none → exec (.mtrSample codes) s = .next (settle s (trimHist d6))) ∧
  (∀ c, (r.1.find? (fun c => c.1 = 0)) = some c →
    exec (.mtrSample codes) s = .next (settle s (trimHist
      (if (phaseOf d4 0).genuine = true ∧ (phaseOf d4 0).start < c.2 then
        setFreq c.2 (10 ^ 9) (c.2 - (phaseOf d4 0).start) (setF Reg.mtrStat 31 31 0 d6)
       else setF Reg.mtrStat 31 31 0 d6))))

/-- Completion of the other metering rows (R367, R371–R376, R379): a pseudo cycle, the loss of the crossings, the temperature, a heat
circuit, a periodic save, a due pulse. -/
def Rows.MeterEventRowsComplete : Prop := ∀ (s : State),
  let d := s.dev
  (∀ p : Fin 3, elecOn d = true → d.mtr.on = true →
    let x := phaseOf d p.val
    let d1 := advanceTo (x.start + (openQuot (3 * 10 ^ 9) (2 * nomHz d)).toNat) d
    let tc := x.start + nomPeriod d1
    let d2 := bump 0xB 4 1 (closeCycles [(p.val, tc)] d1)
    let d3 := setPhase3 p.val { phaseOf d2 p.val with start := tc } d2
    exec (.pseudoCycle p) s = .next (settle s
      (trimHist (if p.val = 0 then setFreq tc (nomHz d3) 1 (setF Reg.mtrStat 31 31 1 d3) else d3)))) ∧
  (∀ p : Fin 3, elecOn d = true → d.mtr.on = true → evMode d p.val = 2 → (phaseOf d p.val).zx = none →
    let x := phaseOf d p.val
    let t := x.lastCross.getD x.start + 1000000 * fldA d (Reg.mtrEvtCfg p.val) 15 0
    exec (.zeroCrossingLoss p) s = .next (settle s
      (setPhase3 p.val { phaseOf (advanceTo t d) p.val with zx := some ⟨4, t, 0⟩ } (advanceTo t d)))) ∧
  (∀ temp : Int, elecOn d = true →
    let d1 := advanceTicks (if d.mtr.tempTick = 0 then d.tim.ticks else d.mtr.tempTick + 25000000) d
    let t := sx 16 (enc 16 temp)
    exec (.mtrTempRead temp) s = .next (settle s
      (setP Reg.mtrTemp (targetOf d1 (phaseOf d1 0).band t * 65536 + enc 16 t)
        { d1 with mtr.tempTick := d1.tim.ticks }))) ∧
  (∀ c j, d.mtr.jobs.find? (fun j => j.c = c) = some j → classStops d 6 = false →
    exec (.heatCircuitCompute c) s = .next (settle s
      (charge 6 .mgmt (Config.meterUs 0).toNat (heatOne j { d with mtr.jobs := d.mtr.jobs.erase j })))) ∧
  (3 ≤ d.sys.mode.code → d.mtr.pfailed = false →
    let d1 := advanceTicks (d.mtr.saveTick + saveS d * 250000000) d
    exec .periodicSave s = .next (settle s (takeSave 1 (accValues d1) none { d1 with mtr.saveTick := d1.tim.ticks }))) ∧
  (∀ n, poLaunch d n = false → pulsesDriven d = true →
    let x := mpOf d n
    let gap := (poOf d n).endGap
    (x.restored ≠ 0 →
      exec (.meteringPulseDue n) s = .next (settle s
        (bump 0xB 9 1 (pulseStart n (setMp n { x with restored := x.restored - 1 } (advanceTicks gap d)))))) ∧
    (∀ due rest, x.restored = 0 → x.queue = due :: rest →
      let d2 := bump 0xB 9 1 (pulseStart n (setMp n { x with queue := rest } (advanceTo due (advanceTicks gap d))))
      exec (.meteringPulseDue n) s = .next (settle s
        (if (due : Int) < timeAtTick d gap then bump 0xB 10 1 (addF (Reg.mtrPoLagged n) 31 0 1 d2) else d2))))

/-! ### CAN and PTP events -/

/-- Completion of the CAN bus rows (R388, R391, R395–R398): a good frame received while the controller is on the bus is delivered and
lowers REC; a bad one raises it; a transmission ends its buffer, or is tried again; recovery ends; new timing is taken up. -/
def Rows.CanEventRowsComplete : Prop := ∀ (n : Fin 8) (s : State),
  let d := s.dev
  let k := n.val
  (∀ (id format : Nat) (data : List Byte) (dur eights : Nat),
    (canActs d k = 1 ∨ canActs d k = 2) → canStatBit d k 26 = true → canStatBit d k 31 = false →
    (∀ lec, lec ≠ 0 → exec (.canFrameReceived n id format data dur lec eights) s = .next (settle s
      (canRxError k lec eights d))) ∧
    ((canOf d k).run = none → (bitAt format 31 = false ∨ canFd d k = true) →
      let f : CanFrame := ⟨id % 2 ^ 32, format &&& 0xE000000F, (canTsc d + 2 ^ 32 - dur % 2 ^ 32) % 2 ^ 32,
        sliceB (data.take (dlcBytes format id)) 0 64, 0⟩
      let d1 := canDeliver k f d
      let rec_ := (canOf d k).rec_
      (canActs d k = 2 → exec (.canFrameReceived n id format data dur 0 eights) s = .next (settle s d1)) ∧
      (canActs d k = 1 → rec_ ≤ 127 → exec (.canFrameReceived n id format data dur 0 eights) s = .next (settle s
        (canErrors k (canOf d k).tec (rec_ - 1) d1))) ∧
      (canActs d k = 1 → 127 < rec_ → ∃ v, 119 ≤ v ∧ v ≤ 127 ∧
        exec (.canFrameReceived n id format data dur 0 eights) s = .next (settle s
          (canErrors k (canOf d k).tec v d1))))) ∧
  (∀ (m dur eights tdcv : Nat) (exempt : Bool), (canOf d k).run = some m →
    (canMayTx d k = true ∨ (canOf d k).take = true) →
    let b := cbufOf d k m
    let dt := if bitAt b.format 31 = true ∧ bitAt (canOf d k).tdc 31 = true ∧ bits (canOf d k).tdc 22 16 ≤ tdcv then
        setF (Reg.canStat k) 22 16 tdcv d
      else d
    exec (.canFrameTransmitted n dur 7 exempt eights tdcv) s = .next (settle s (txAgain k m d)) ∧
    (∀ lec, lec ≠ 0 → lec ≠ 7 →
      let d1 := canLec k lec dt
      exec (.canFrameTransmitted n dur lec exempt eights tdcv) s = .next (settle s
        (txAgain k m (canErrors k ((canOf d1 k).tec + (if exempt then 0 else 8) + 8 * eights) (canOf d1 k).rec_ d1)))) ∧
    (let len := dlcBytes b.format b.id
     let stamp := (canTsc dt + 2 ^ 32 - dur % 2 ^ 32) % 2 ^ 32
     let d1 := setCbuf k m { b with stamp := stamp } (setCan k { canOf dt k with run := none } dt)
     let x := canOf d1 k
     let d2 := canErrors k (x.tec - 1) x.rec_ (bump 0xC (9 * k + 1) 1 (txEnd k m true (canServe len d1)))
     let back : CanFrame := ⟨b.id, putBits b.format 29 29 (b2n (bitAt b.format 31 && canStatBit dt k 30)), stamp,
       sliceB (b.data.take len) 0 64, 0⟩
     exec (.canFrameTransmitted n dur 0 exempt eights tdcv) s = .next (settle s
       (canGo k (if canActs d2 k = 3 then canDeliver k back d2 else d2))))) ∧
  (canStatBit d k 28 = true →
    let d1 := setStat k 28 false (setStat k 31 false d)
    exec (.canRecoveryComplete n) s = .next (settle s (canGo k (canEvent k 5 (now d1) (canErrors k 0 0 d1))))) ∧
  ((canOf d k).take = true → (canOf d k).run = none →
    exec (.canTimingTakeup n) s = .next (settle s (setStat k 26 false (setCan k
      { canOf d k with take := false, nbt := regA d (Reg.canNbt k), dbt := regA d (Reg.canDbt k),
                       tdc := regA d (Reg.canTdc k) } d)))) ∧
  ((canOf d k).take = false → canActs d k ≠ 0 →
    exec (.canBusIntegration n) s = .next (settle s (canGo k (setStat k 26 true d))))

/-- Completion of the PTP rows that inform a domain (R322, R325, R326): SYNC, FOLLOW_UP, ANNOUNCE, DELAY_RESP, PDELAY_RESP, and the
receipt timeout. -/
def Rows.PtpReceiptRowsComplete : Prop := ∀ (h : PtpHdr) (x : Nat) (s : State), msgDom s.dev h = some x →
  let d := s.dev
  let q := portOf d h.port
  (∀ secs ns, inRange (-4) 1 h.interval = true → isParent (domOf d x) h = true →
    exec (.sync h true secs ns) s = .next (settle s (setPort h.port
      { q with waiting := some ⟨h.src, h.srcPort, h.seq, (rxStamp d h.port).toNat, h.corr⟩ } d)) ∧
    exec (.sync h false secs ns) s = .next (settle s (syncDone x h.port secs ns h.corr (rxStamp d h.port) d))) ∧
  (∀ secs ns w, q.waiting = some w → w.src = h.src → w.srcPort = h.srcPort → w.seq = h.seq →
    exec (.followUp h secs ns) s = .next (settle s (syncDone x h.port secs ns (w.corr + h.corr) w.rx d))) ∧
  (∀ prio1 cls accuracy variance prio2 gm steps, inRange (-3) 3 h.interval = true →
    let f : Foreign := ⟨h.port, h.src, h.srcPort, prio1, cls, accuracy, variance, prio2, gm, steps⟩
    let v := domOf d x
    let all := v.senders.filter (fun g => !(decide (g.port = f.port ∧ g.src = f.src ∧ g.srcPort = f.srcPort))) ++ [f]
    exec (.announce h prio1 cls accuracy variance prio2 gm steps) s = .next (settle s (setDom x
      { v with senders := all, parent := some (all.foldl (fun (b : Foreign) g => if betterMaster g b then g else b) f) } d))) ∧
  (∀ secs ns seq t3 t, q.delayReq = some (seq, t3) → q.toSlave = some t → inRange (-4) 5 h.interval = true →
    isP2P d h.port = false → seq = h.seq → isParent (domOf d x) h = true →
    exec (.delayResp h secs ns) s = .next (settle s
      (addDelay h.port (t + (fromPtp d secs ns - t3) * 65536 - h.corr) (setPort h.port { q with delayReq := none } d)))) ∧
  (∀ seq t1, q.pdelayReq = some (seq, t1) → ptpOn d h.port = true → isP2P d h.port = true → seq = h.seq →
    inRange (-4) 5 h.interval = true →
    exec (.pdelayResp h false) s = .next (settle s
      (addDelay h.port ((rxStamp d h.port - t1) * 65536 - h.corr) (setPort h.port { q with pdelayReq := none } d)))) ∧
  (∀ y : Fin 2, timeSource d = 1 → activeDom d = y.val → holdover d = false → timeValid d = true →
    exec (.announceReceiptTimeout y) s = .next (settle s (refuseJump y.val d)))

/-- Completion of the PTP rows that answer or send (R325, R326): DELAY_REQ and PDELAY_REQ are answered, each message kind goes out
with its sequence number. -/
def Rows.PtpTransmitRowsComplete : Prop := ∀ (s : State),
  let d := s.dev
  (∀ h : PtpHdr, ptpOn d h.port = true → ptpRole d h.port = 3 → isP2P d h.port = false → h.domain = domNumber d 0 →
    let t := toPtp d (rxStamp d h.port)
    exec (.delayReq h) s = .next (settle s
      (sendFrame ⟨h.port, 4, now d, [h.src, h.srcPort, h.seq, t.1.toNat, t.2.toNat, enc 64 h.corr], []⟩ d))) ∧
  (∀ (h : PtpHdr) (turn : Nat), ptpOn d h.port = true → isP2P d h.port = true →
    let res : Int := (txStamp d h.port + turn - rxStamp d h.port) * 65536 + h.corr
    exec (.pdelayReq h turn) s = .next (settle s
      (sendFrame ⟨h.port, 5, now d + turn, [h.src, h.srcPort, h.seq, 0, enc 64 res], []⟩ d))) ∧
  (∀ p : Fin 4, ptpOn d p.val = true →
    let q := portOf d p.val
    let seq (k : Nat) : Nat := q.seqs.getD k 0
    let d1 (k : Nat) : Dev := setPort p.val { q with seqs := q.seqs.set k ((seq k + 1) % 65536) } d
    let t := toPtp d (txStamp d p.val)
    (ptpRole d p.val = 3 →
      exec (.ptpMessageTransmit p 0) s = .next (settle s
        (sendFrame ⟨p.val, 0, now d, [seq 0, t.1.toNat, t.2.toNat, bits d.tim.acc 31 16, domNumber d 0], []⟩ (d1 0))) ∧
      exec (.ptpMessageTransmit p 1) s = .next (settle s
        (sendFrame ⟨p.val, 1, now d, [seq 1, 128, clockClass d, 128,
          (Config.clockIdentity (BitVec.ofNat 48 (macOf d 0))).toNat, domNumber d 0], []⟩ (d1 1)))) ∧
    (ptpRole d p.val ≠ 3 → isP2P d p.val = false →
      exec (.ptpMessageTransmit p 2) s = .next (settle s
        (sendFrame ⟨p.val, 2, now d, [seq 2, 0, 0], []⟩
          (setPort p.val { portOf (d1 2) p.val with delayReq := some (seq 2, (txStamp d p.val).toNat) } (d1 2))))) ∧
    (isP2P d p.val = true →
      exec (.ptpMessageTransmit p 3) s = .next (settle s
        (sendFrame ⟨p.val, 3, now d, [seq 3, 0, 0], []⟩
          (setPort p.val { portOf (d1 3) p.val with pdelayReq := some (seq 3, (txStamp d p.val).toNat) } (d1 3))))))

/-- Completion of the other Ethernet rows (R333–R337): an ARP answer, a telemetry datagram whose records are taken, a dropped frame, a
change of a link. -/
def Rows.EthernetRowsComplete : Prop := ∀ (p : Fin 4) (s : State), portUp s.dev p.val = true →
  let d := s.dev
  (∀ addr from_, ownIp d p.val addr = true →
    exec (.arpRequest p addr from_) s = .next (settle s (sendFrame ⟨p.val, 6, now d, [from_, macOf d p.val], addr⟩ d))) ∧
  (∀ dport src dst b, bitAt (ethCfg d p.val) 9 = true → dport = fldA d Reg.ethCtl 15 0 → ownIp d p.val dst = true →
    telemetryFault src b d = none →
    let x := substOf d (fieldLE b 6 2)
    let recs := (List.range (fieldLE b 12 2)).map (fun j =>
      (16 * fieldLE b 6 2 + fieldLE b (24 + 16 * j) 1, fieldLE b (32 + 16 * j) 8, fieldLE b 16 8, d.tim.ticks))
    let d1 := if x.slot = 0xFF then d else countUse x.slot d
    exec (.telemetryDatagram p dport src dst b) s = .next (settle s
      (bump 0xD 7 1 (setSubst (fieldLE b 6 2) { x with lastSeq := some (fieldLE b 8 4) }
        { d1 with tim.rx := d1.tim.rx ++ recs })))) ∧
  (∀ ptp, exec (.ethernetFrameDrop p ptp) s = .next (settle s (dropFrame ptp d)))

/-- Completion of ETHERNET_LINK_CHANGE (R333): the port's link and speed show in its status register. -/
def Rows.LinkChangeCompletes : Prop := ∀ (p : Fin 4) (speed : Nat) (s : State),
  let v := if speed < 100 then 0 else if speed < 1000 then 1 else if speed = 1000 then 2 else 3
  let d := setPort p.val { portOf s.dev p.val with speed := speed } s.dev
  exec (.ethernetLinkChange p speed) s = .next (settle s
    (setF (Reg.ethStat p.val) 2 1 v (setF (Reg.ethStat p.val) 0 0 (if speed = 0 then 0 else 1) d)))

/-! ### Alarms, the Trellis chain, redundancy -/

/-- Completion of TIME_ALARM, ENUM_IN_FALL, TRELLIS_LINK_TRAINED, TRELLIS_CRC_FAILURE and TIME_MARK (R329, R403, R405, R408). -/
def Rows.ChainRowsComplete : Prop := ∀ (s : State),
  let d := s.dev
  (∀ (n : Fin 4) t, smGet none d.tim.alarms n.val = some t → now d < t →
    exec (.timeAlarm n) s = .next (settle s (alarmReached n.val (advanceTo t d)))) ∧
  (∀ up, d.trl.enumInLow = false → ownAddr d = 0 → d.sys.mode ≠ .backup → 1 ≤ up →
    let d1 := { d with trl.enumInLow := true }
    (up ≤ 15 → exec (.enumInFall up) s = .next (settle s (enumFollow (setF Reg.trlStat 4 0 (up + 1) d1)))) ∧
    (16 ≤ up → exec (.enumInFall up) s = .next (settle s (orP Reg.trlStat (2 ^ 30) d1)))) ∧
  (d.sys.mode ≠ .backup →
    (bitAt (regA d Reg.trlCtl) 1 = true →
      exec (.trellisLinkTrained true) s = .next (settle s (enumFollow (setF Reg.trlStat 27 27 1 d)))) ∧
    (bitAt (regA d Reg.trlCtl) 0 = true →
      exec (.trellisLinkTrained false) s = .next (settle s { setF Reg.trlStat 28 28 1 d with trl.downVec := false }))) ∧
  (∀ down again, fld d Reg.trlStat (if down then 27 else 28) (if down then 27 else 28) = 1 →
    (again < 3 → exec (.trellisCrcFailure down again) s = .next (settle s
      (bump 0xE 7 1 (addF Reg.trlRetryCnt 31 0 1 d)))) ∧
    (3 ≤ again → exec (.trellisCrcFailure down again) s = .next (settle s
      (linkLost down (bump 0xE 8 1 (addF Reg.trlDownCnt 31 0 1 d)))))) ∧
  (∀ (dep : Nat) step delay, fld d Reg.trlStat 28 28 = 1 → timeSource d = 2 →
    let theta := openQuot (16 * ((now d : Int) - dep) - (delay % 2 ^ 24 : Nat)) 16
    let d1 := setP Reg.trlTimeOfs (enc 32 (satS32 theta)) (setF Reg.trlUpDelay 23 0 delay d)
    ((step = true ∨ d1.trl.marked = false) →
      exec (.timeMark dep step delay) s = .next (settle s
        (stepTime (-theta) { d1 with trl.marked := true, trl.stepDue := none }))) ∧
    (step = false → d1.trl.marked = true → jumpTh d1 < theta.natAbs →
      exec (.timeMark dep step delay) s = .next (settle s { d1 with trl.stepDue := some (-theta) })) ∧
    (step = false → d1.trl.marked = true → theta.natAbs ≤ jumpTh d1 →
      exec (.timeMark dep step delay) s = .next (settle s (servo theta d1.sys.frameLen d1))))

/-- Completion of the report rows (R409–R414): the unit's own report at its cut-off, a report received, a report missed, the lapse of
the lease. -/
def Rows.ReportRowsComplete : Prop := ∀ (s : State),
  let d := s.dev
  (reports d = true → d.trl.reported = false → d.trl.lease = true → now d ≤ cutOff d →
    let d1 := advanceTo (cutOff d) d
    let dw := { d1 with trl.own := composeReport d1.trl.pairCrc d1, trl.reported := true }
    let d2 := if addrConflict d1 = true then dw else charge 12 .beats (Config.trellisBeats 0).toNat { dw with trl.revertReq := false }
    (d2.trl.fault = false → exec .healthReportSend s = .next (settle s d2)) ∧
    (d2.trl.fault = true → d2.trl.failover = none → exec .healthReportSend s = .next (settle s (lapse d2))) ∧
    (∀ id, d2.trl.fault = true → d2.trl.failover = some id → exec .healthReportSend s = .next (settle s
      (lapse (complete id (ok 0 0 0 0) { d2 with trl.failover := none })))) ∧
    (5 ≤ d.sys.mode.code → exec .leaseLapse s = .next (settle s (lapse d1)))) ∧
  (∀ b h g images, crc32c (sliceB b 0 0x3C) = fieldLE b 0x3C 4 → 1 ≤ fieldLE b 0 1 → fieldLE b 0 1 ≤ 16 → d.sys.mode ≠ .backup →
    let a := fieldLE b 0 1
    (a = ownAddr d → addrConflict d = false →
      exec (.healthReport b h g images) s = .next (settle s (event 0x0E 1 [a] (raiseVec 70 (orP Reg.trlStat (2 ^ 31) d))))) ∧
    (a ≠ ownAddr d →
      let d1 := setF Reg.trlPresent a a 1 (setPeer a ⟨sliceB b 0 64, true, true, 0, h, g, images⟩ d)
      let d2 := setPaired (if a = 1 then lengthFollow d1 else d1)
      exec (.healthReport b h g images) s = .next (settle s
        (if a = partnerAddr d2 then partnerReport (setF Reg.redStat 1 0 0 d2) else d2)))) ∧
  (∀ a, 1 ≤ a → a ≤ 16 → a ≠ ownAddr d → (peerOf d a).fresh = false → (peerOf d a).report.isEmpty = false →
    let p := peerOf d a
    let m := min 3 (p.misses + 1)
    let d1 := setPeer a { p with fresh := true, misses := m, present := p.present && decide (m < 3) } d
    let d2 := if a = partnerAddr d then setF Reg.redStat 1 0 m (bump 0xE 6 1 d1) else d1
    exec (.healthReportMissed a) s = .next (settle s
      (if m = 3 ∧ p.present = true then rerunShares a (guestLost a (setPaired (setF Reg.trlPresent a a 0 d2))) else d2)))

/-- Completion of the mirror rows on an acting standby (R415–R418): the fast part, the bulk part, a late part, the sync image. -/
def Rows.MirrorRowsComplete : Prop := ∀ (s : State),
  let d := s.dev
  (∀ (f : FastPart) c fz, d.trl.stepsWait = some (c, fz) → mirroring d = true →
    let codes := f.adc.foldl (fun m v => smSet 0 m (v.1 % 32) (v.2.1 % 65536)) c.adc
    let cap := { c with adc := codes, win := f.win, piLevel := f.levels, gpio := f.gpio,
                        piCount := f.counts.foldl (fun m v => smSet 0 m (v.1 % 16) v.2) [] }
    let fast : List MirrorItem :=
      (f.adc.filter (fun v => v.2.2.2)).map (fun v => ⟨1, v.1, fOfInt f64 ((v.2.1 % 65536 : Nat) : Int), v.2.2.1,
        decide (v.2.1 % 65536 = 0 ∨ v.2.1 % 65536 = 65535)⟩) ++
      f.counts.map (fun v => ⟨4, v.1, fOfInt f64 ((v.2 : Nat) : Int), c.t, false⟩)
    exec (.mirrorFastPart f.adc f.win f.levels f.gpio f.counts) s = .next (settle s
      (frameSteps cap fz (charge 12 .beats (Config.trellisBeats 1).toNat
        { d with trl.stepsWait := none,
                 trl.items := d.trl.items.map (fun l => l.filter (fun x => x.source ≠ 1 ∧ x.source ≠ 4) ++ fast) })))) ∧
  (∀ b, mirroring d = true → d.trl.items.isSome = true → b.frame = frameNo d →
    let d1 := charge 12 .beats (Config.trellisBeats 2).toNat { d with trl.avail := some b.avail }
    (d1.trl.imageReq = true → exec (.mirrorBulkPart b) s = .next (settle s
      (enterPart { b with hosts := [] } { d1 with trl.bulks := d1.trl.bulks ++ [b] }))) ∧
    (d1.trl.imageReq = false → exec (.mirrorBulkPart b) s = .next (settle s (enterPart b (applyPart b d1))))) ∧
  (actingStandby d = true → lenMismatch d = false →
    let d1 := requestImage (orP Reg.redEvent 0x20 (bump 0xE 4 1 (raiseVec 70 d)))
    (∀ c fz, d.trl.stepsWait.isSome = true → d1.trl.stepsWait = some (c, fz) →
      exec (.mirrorLate true) s = .next (settle s (frameSteps c fz { d1 with trl.stepsWait := none }))) ∧
    (d.trl.items.isSome = true →
      exec (.mirrorLate false) s = .next (settle s (raStandby (enterItems (d1.trl.items.getD []) { d1 with trl.items := none }))))) ∧
  (∀ x, actingStandby d = true → d.trl.imageReq = true →
    let later := d.trl.bulks.filter (fun b => decide (x.ts < b.frame * d.sys.frameLen))
    let d1 := bump 0xE 5 1 (charge 12 .beats (Config.trellisBeats 3).toNat (installImage x d))
    let d2 := { d1 with trl.imageReq := false, trl.imageDone := true, trl.runsUntil := x.runsUntil, trl.bulks := [] }
    let d3 := later.foldl (fun d b => applyPart b d) d2
    exec (.syncImage x) s = .next (settle s
      (d3.trl.resync.foldl (fun d id => complete id (ok (lo32 x.ts) (hi32 x.ts) 0 0) d) { d3 with trl.resync := [] })))

/-- Completion of the handover rows and of traffic from the chain (R341, R407, R419–R425). -/
def Rows.HandoverRowsComplete : Prop := ∀ (s : State),
  let d := s.dev
  (∀ recs, exec (.forwardedLaunch recs) s = .next (settle s
    ((recs.zip (freeEntries d)).foldl (fun (e : Dev) r =>
      let q : LRec := ⟨r.1.1, r.1.2.1, r.1.2.2.1, 0, r.1.2.2.2⟩
      let x : LEntry :=
        { time := q.time, value := q.value % 2 ^ 32, kind := q.kind, flags := 2, index := q.index,
          fireAt := (lrecFire d true q).toNat, owner := 0, spec := none, bySpec := false, late := false }
      if lrecRange d false q then { e with lch.q := smSet none e.lch.q r.2 (some x) } else e) d))) ∧
  (∀ o len data, ownAddr d ≠ 0 → addrConflict d = false → d.sys.mode ≠ .backup → o < 0x400000000 →
    let a := 0x8000000000 + ownAddr d * 0x400000000 + o
    (mapped d a data.length = true →
      exec (.windowTraffic o true len (.access data)) s = .next (settle s (wrBytes a data d))) ∧
    (mapped d a len = true →
      exec (.windowTraffic o false len (.access data)) s = .next (settle s { d with cmd.lastRead := rdBytes d a len })) ∧
    (∀ q w, exec (.windowTraffic o w len (.share q)) s = .next (settle s (takeShare q d))) ∧
    (∀ q w, exec (.windowTraffic o w len (.done q)) s = .next (settle s (shareReport q.run q.unit q.members d)))) ∧
  (∀ t, d.trl.takeoverAt = some t →
    (d.sys.mode = .standby → peerOwnLow d = false → exec .takeover s = .next (settle s (takeOver (advanceTo t d)))) ∧
    ((d.sys.mode ≠ .standby ∨ peerOwnLow d = true) → exec .takeover s = .next (settle s { d with trl.takeoverAt := none }))) ∧
  (∀ t, d.trl.healthyFrom = some t → revertCondition d = true → fldA d Reg.redCtl 4 4 = 1 → d.trl.revertReq = false →
    d.trl.revertAt = none →
    exec .revertRequest s = .next (settle s { advanceTo (t + revertS d * 10 ^ 9) d with trl.revertReq := true })) ∧
  (∀ t, d.trl.handoverAt = some t → d.trl.released = false → 5 ≤ d.sys.mode.code →
    exec .handoverRelease s = .next (settle s
      (discardPulses { advanceTo (t - 50000) d with trl.released := true, sys.own := false }))) ∧
  (∀ t low, d.trl.handoverAt = some t →
    let d1 := setPeerOwn low (advanceTo t d)
    (d1.sys.mode = .run → exec (.handover low) s = .next (settle s (handOver t d1))) ∧
    (d1.sys.mode ≠ .run → exec (.handover low) s = .next (settle s
      (setF Reg.redStat 25 25 0 { d1 with trl.handoverAt := none, trl.released := false, sys.own := d1.sys.mode.owns })))) ∧
  (∀ t low, d.trl.handoverAt = none → d.trl.revertAt = some t →
    let d1 := setPeerOwn low (advanceTo t d)
    (d1.sys.mode = .standby → low = false → exec (.handover low) s = .next (settle s (takeOver d1))) ∧
    ((d1.sys.mode ≠ .standby ∨ low = true) → exec (.handover low) s = .next (settle s
      (setF Reg.redStat 25 25 0 { d1 with trl.revertAt := none }))))

/-! ### Journal, recorder, Silo upkeep -/

/-- Completion of the journal rows (R431–R436, R444): the oldest record that fits commits, one that waited a second is refused, a
checkpoint starts and ends. -/
def Rows.JournalRowsComplete : Prop := ∀ (s : State),
  let d := s.dev
  (∀ r, d.grn.queue.find? (fun r => hasRoom r d) = some r → d.grn.refuse = false →
    (classStops d 10 = false → exec .journalAppendCommit s = .next (settle s
      (charge 10 .beats (beatsOf r.len) (charge 10 .mgmt (Config.appendUs r.type).toNat (commitItem r d))))) ∧
    (classStops d 10 = true → exec .journalAppendCommit s = .next (settle s (meetCeil 10 d)))) ∧
  (∀ r t c, d.grn.queue.find? (fun r => r.since.isSome && r.done.isSome) = some r → r.since = some t → r.done = some c →
    let d1 := advanceTo (t + 10 ^ 9) { d with grn.queue := d.grn.queue.erase r }
    exec .appendWaitTimeout s = .next (settle s (releaseDeletes (signFront 16 (complete c.cmd (refuse 0x0030 0x01)
      { d1 with mtr.presets := d1.mtr.presets.filter (fun x => x.1 ≠ c.cmd),
                sec.signq := d1.sec.signq.filter (fun x => x.cmd ≠ c.cmd) }))))) ∧
  (d.grn.ckRun = none → d.grn.formatted = true → d.grn.refuse = false → d.sys.mode ≠ .backup → d.sys.mode ≠ .boot →
    (classStops d 10 = true → exec .checkpointDue s = .next (settle s (meetCeil 10 d))) ∧
    (classStops d 10 = false → exec .checkpointDue s = .next (settle s (startCkpt none
      (if jRing * 75 < retainedBytes d.grn * 100 then d else advanceTicks (d.grn.lastCkptStart + 600 * 250000000) d))))) ∧
  (∀ r, d.grn.ckRun = some r → r.marker = false → d.grn.refuse = false →
    let c := { r.ck with valid := true, time := now d }
    exec .checkpointComplete s = .next (settle s (journal 1 0 [c.gen, c.sc] 16 none true
      (bump 0xF 2 1 (setCkpt c.gen (some c)
        { d with grn.ckRun := some { r with ck := c, marker := true }, grn.fallback := false })))))

/-- Completion of EVENT_RECORD, RECORDER_STATE_APPEND and NAND_BLOCK_RETIREMENT (R437–R439, R445). -/
def Rows.RecordingRowsComplete : Prop := ∀ (s : State),
  let d := s.dev
  (∀ x rest, d.grn.evq = x :: rest → recorderPaused d = false → clearing d = false →
    let d0 := { d with grn.evq := rest }
    let d1 := evWrite x d0
    (x.cmd = none → exec .eventRecord s = .next (settle s d1)) ∧
    (∀ id, x.cmd = some id → exec .eventRecord s = .next (settle s (complete id (ok (evNumber d d1) 0 0 0) d1)))) ∧
  (d.grn.recDirty = true → d.grn.refuse = false →
    exec .recorderStateAppend s = .next (settle s (appendRecorder
      (match d.grn.recTime with
       | some t => advanceTo (t + 10 ^ 9) d
       | none => d)))) ∧
  (∀ b, b < 4032 → smGet 0 d.grn.retired b = 0 → d.sys.mode ≠ .backup →
    let spare := ((List.range 64).map (· + 4032)).find? (fun k => d.grn.retired.all (fun kv => kv.2 ≠ 1 + k))
    exec (.nandBlockRetirement b) s = .next (settle s (bump 0xF 6 1 (addF Reg.grnMedia 31 16 1
      (journal 8 (0x100 + b) [b, spare.getD 0] 8 none false
        { d with grn.retired := smSet 0 d.grn.retired b ((spare.map (· + 1)).getD 1) })))))

/-- Completion of the Silo's own rows (R449, R450, R453): the shares are masked anew, a failed entropy test stops random draws, a
reseed lets them go on. -/
def Rows.SiloEventRowsComplete : Prop := ∀ (s : State),
  let d := s.dev
  (d.sys.mode = .backup → d.sec.noiseFlag = false →
    let m := Config.noiseMask d.sec.noise
    exec .remaskPass s = .next (settle s
      { d with sec.noise := d.sec.noise + 1, sec.rootShare0 := d.sec.rootShare0 ^^^ m,
               sec.rootShare1 := d.sec.rootShare1 ^^^ m })) ∧
  (d.sys.mode ≠ .backup → d.sec.trngFail = false → d.sec.rootOk = true →
    let mask (n : Nat) : BitVec 512 := BitVec.ofNat 512 (n % 2 ^ 512)
    let r := drbgDraw d
    let d1 := { r.2 with sec.rootShare0 := r.2.sec.rootShare0 ^^^ mask r.1, sec.rootShare1 := r.2.sec.rootShare1 ^^^ mask r.1 }
    exec .remaskPass s = .next (settle s (bump 0x10 10 1 (addF Reg.secRemaskCnt 31 0 1
      (d1.sec.slots.foldl (fun d kv =>
        setSlot kv.1 (remask (mask (drbgDraw d).1) (slotOf (drbgDraw d).2 kv.1)) (drbgDraw d).2) d1))))) ∧
  (d.sys.mode = .backup → exec .entropyTestFailure s = .next (settle s { d with sec.noiseFlag := true })) ∧
  (d.sys.mode ≠ .backup → exec .entropyTestFailure s = .next (settle s
    (event 0x10 2 [] (raiseVec 69 (bump 0x10 11 1 { d with sec.trngFail := true }))))) ∧
  (d.sys.mode ≠ .backup → (2 ^ 20 ≤ d.sec.requests ∨ d.sec.trngFail = true) →
    exec .drbgReseed s = .next (settle s { d with sec.requests := 0, sec.trngFail := false }))

/-! ### Panel, clock and health events -/

/-- Completion of PANEL_FRAME_START, PANEL_LINE and STRESS_JOURNAL (R462–R472): the timing taken up, the codes driven, their clipping
and stress counted, the hourly record. -/
def Rows.PanelEventRowsComplete : Prop := ∀ (s : State),
  let d := s.dev
  (d.sys.mode ≠ .backup →
    let d1 := advanceTicks (d.pav.start + d.pav.timing.hTotal * d.pav.timing.vTotal) d
    let t := appliedTiming d1
    let d2 := setF Reg.pavStat 1 1 (b2n (!timingOk t))
      { d1 with pav.timing := t, pav.start := d1.tim.ticks, pav.line := 0, pav.frames := d1.pav.frames + 1,
                pav.ages := (List.range 3).map (fun c => fldA d1 (Reg.pavAge c) 15 0) }
    exec .panelFrameStart s = .next (settle s (exchange (bump 0x11 0 (b2n (!blanked d2)) d2)))) ∧
  (d.sys.mode ≠ .backup → d.pav.line < 240 →
    let r := d.pav.line
    let d1 := advanceTicks (d.pav.start + r * d.pav.timing.hTotal + d.pav.timing.phStart) { d with pav.line := r + 1 }
    (blanked d1 = true → exec .panelLine s = .next (settle s { d1 with pav.driven := List.replicate 960 0 })) ∧
    (blanked d1 = false → classStops d1 9 = true → exec .panelLine s = .next (settle s
      (bump 0x11 2 1 (addF Reg.pavUnderrunCnt 31 0 1 { meetCeil 9 d1 with pav.driven := List.replicate 960 0 })))) ∧
    (blanked d1 = false → classStops d1 9 = false →
      let d2 := charge 9 .beats lineBeats d1
      let codes := (List.range 960).map (fun k =>
        driveCode (d2.pav.ages.getD (k % 3) 0) (smGet 0 d2.pav.stress (960 * r + k))
          (bits (smGet 0 (frontBuf d2) (320 * r + k / 3)) (29 - 10 * (k % 3)) (20 - 10 * (k % 3))))
      let n := (codes.filter (·.2)).length
      let d3 := bump 0x11 3 n (addF Reg.pavClipCnt 31 0 n { d2 with pav.driven := codes.map (·.1) })
      exec .panelLine s = .next (settle s
        (if d3.pav.frames % stressDiv d3 ≠ 0 then d3
         else (List.range 960).foldl (fun d k => addStress (960 * r + k) (k % 3) ((codes.getD k (0, false)).1) d) d3)))) ∧
  (exec .stressJournal s = .next (settle s (hltAlarms (hltLeast (stressJournal d)))))

/-- Completion of the clock rows of the always-on domain (R475–R484): a second passes, the trim is added, the oscillator's stop, the
interface's lock and readiness, the switches of supply, the domain's reset. -/
def Rows.ClockEventRowsComplete : Prop := ∀ (s : State),
  let d := s.dev
  ((d.rtc.commit ≠ some d.tim.ticks ∨ d.sys.mode = .backup) →
    let d1 := if d.rtc.secs + 1 = rtcRange then orP Reg.rtcStat 0x100 { d with rtc.secs := 0 }
      else { d with rtc.secs := d.rtc.secs + 1 }
    exec .rtcSecond s = .next (settle s (siloSecond (testAlarm 1 (testAlarm 0 { d1 with rtc.frac := d.tim.ticks }))))) ∧
  (exec .trimCorrection s = .next (settle s { d with rtc.cycles := d.rtc.cycles + sx 10 d.rtc.trim })) ∧
  (exec .oscStopDetect s = .next (settle s (rtcEvent 2 [] (bump 0x12 7 1 (orP Reg.rtcStat 1 d))))) ∧
  (exec (.interfaceLock true) s = .next (settle s (lockRtc d))) ∧
  (d.sys.pfail = true → exec (.interfaceLock false) s = .next (settle s (lockRtc d))) ∧
  (exec .switchToVbat s = .next (settle s { orP Reg.rtcStat 0x400 (lockRtc d) with rtc.onVbat := true })) ∧
  (exec .switchBackToVaon s = .next (settle s { d with rtc.onVbat := false })) ∧
  (let d1 := d.rtc.sets.foldl (fun d x => complete x.1 (conflictObj d 0xF8 1) d) { d with rtc.sets := [] }
   exec .alwaysOnReset s = .next (settle s (rtcEvent 3 [] (bump 0x12 6 1
    { d1 with rg.present := d1.rg.present.filter (fun kv => !isRtcReg kv.1),
              rg.landed := d1.rg.landed.filter (fun kv => !isRtcReg kv.1), rg.post := smSet none d1.rg.post 0 none,
              rtc := { RtcSt.reset with frac := d1.tim.ticks, onVbat := d1.rtc.onVbat, due := d1.rtc.due } })))) ∧
  (d.rtc.onVbat = false → d.sys.pfail = false → exec .unlockReady s = .next (settle s (setF Reg.rtcStat 2 2 1 d)))

/-- Completion of HEALTH_RECORD and BAT_LOAD_TEST_END (R487–R490): the daily record; the voltages of the test and the alarm of a low
battery. -/
def Rows.HealthEventRowsComplete : Prop := ∀ (s : State),
  let d := s.dev
  (3 ≤ d.sys.mode.code →
    let d1 := advanceTicks (d.hlt.lastTick + 86400 * 250000000) d
    exec .healthRecord s = .next (settle s (takeHealth none { d1 with hlt.lastTick := d1.tim.ticks }))) ∧
  (∀ vo vl t, d.hlt.testAt = some t →
    let d1 := advanceTicks (t + 25000000) d
    let d2 := bump 0x12 9 1 (setP Reg.hltBatV (vo % 65536 * 65536 + vl % 65536)
      { d1 with hlt.testAt := none, hlt.test := none, hlt.vo := vo, hlt.vl := vl })
    let low := decide (vl < fldA d2 Reg.hltBatCfg 31 16)
    let d3 := setF Reg.hltStat 6 6 (b2n low) d2
    let d4 := if low && !bitAt (regP d2 Reg.hltStat) 6 then raiseVec 69 (rtcEvent 7 [6, vl] (bump 0x12 10 1 d3)) else d3
    (d.hlt.test = none → exec (.batLoadTestEnd vo vl) s = .next (settle s d4)) ∧
    (∀ id, d.hlt.test = some id → exec (.batLoadTestEnd vo vl) s = .next (settle s
      (complete id (ok vo vl (vo - vl) 0) d4))))

/-! ### The block as a whole -/

/-- A step takes the command at the front of the queue and runs exec on it with the queue's rest; with no command waiting the block
takes its own idle step, which is the model's choice (log 2). -/
def Obligations.StepTakesFrontCommand : Prop :=
  (∀ (c : Instr) (cs : List Instr) (s : State), step { s with pending := c :: cs } = exec c { s with pending := cs }) ∧
  (∀ s : State, s.pending = [] → step s = .next (settle s (idle s.dev)))

/-- Every command answers a next state in every state, and leaves the queue and an empty write log. -/
def Obligations.EveryCommandAnswers : Prop :=
  (∀ (i : Instr) (s : State), ∃ d : Dev, exec i s = .next (settle s d)) ∧
  (∀ (i : Instr) (s t : State), exec i s = .next t → t.pending = s.pending ∧ t.dev.wr = [])

/-- The state after reset (R18, R43, R106, R322, R328): memory lists nothing and is canonical, no command waits, the frame length is
1 ms, EPOCH is 0, domain A is active, no ring is served, no output is owned. -/
def Obligations.ResetState : Prop :=
  Inv State.reset ∧ State.reset.dev.mem = [] ∧ State.reset.pending = [] ∧ State.reset.dev.sys.frameLen = 1000000 ∧
  State.reset.dev.sys.mode = .boot ∧ epoch State.reset.dev = 0 ∧ activeDom State.reset.dev = 0 ∧
  State.reset.dev.sys.own = false ∧ (∀ n, canFetch State.reset.dev n = false)

/-- The canonical form of memory, of the register tables and of the ring table, and the empty write log, are kept by every step,
from every state that has them. -/
def Obligations.InvariantKept : Prop := ∀ s t : State, Inv s → step s = .next t → Inv t

/-- What a command's stores left is what memory holds after it: the newest byte stored, or the byte before; and a range of bytes
stored where the device has memory reads back as stored. -/
def Obligations.MemoryHoldsStores : Prop :=
  (∀ (s : State) (d : Dev) (a : Nat), Memory.wf s.dev.mem = true → d.cmd.resetting = [] → (∀ w ∈ d.wr, w.1 < mirrorIn) →
    rdB (settle s d).dev a = (logFind d.wr a).getD (smGet memDefault s.dev.mem a)) ∧
  (∀ (a : Nat) (bs : List Byte) (d : Dev),
    (∀ k, k < bs.length → ∃ key, target d (a + k) = .key key) →
    (∀ j k, j < k → k < bs.length → target d (a + j) ≠ target d (a + k)) →
    rdBytes (wrBytes a bs d) a bs.length = bs)

/-- What becomes of a packet put into its submission ring, whatever its command (R45, R53, R54, R56–R58, R60, R65): no room, and
nothing happens; an entry that may not start stays in the ring; a command whose link failed completes CANCELLED, a foreign opcode
BAD_OPCODE, the first acceptance check that fails decides the completion and the command has no effect of its own, and a launch time
makes it wait. -/
def Obligations.PacketOutcomes : Prop :=
  ∀ (i : Instr) (sp : OpSpec) (p : Pkt) (s : State), packetOf i = some (sp, p) →
  let id := s.dev.cmd.nextId
  let d := stageMirror sp p s.dev
  let e := placed sp p s
  (takesEntry d (ringN p) = false → exec i s = .next (settle s d)) ∧
  (takesEntry d (ringN p) = true →
    ((ringOf d (ringN p)).filled ≠ 0 ∨ fetchable e p = false → exec i s = .next (settle s e)) ∧
    ((ringOf d (ringN p)).filled = 0 → fetchable e p = true →
      (linkFailed (ringOf e (ringN p)) = true →
        exec i s = .next (settle s (complete id (refuse 0x0019 0) (fetch p e)))) ∧
      (linkFailed (ringOf e (ringN p)) = false → p.opcode.toNat ≠ sp.opcode →
        exec i s = .next (settle s (complete id (refuse 0x0010 0) (fetch p e)))))) ∧
  (∀ x, reaches sp p s = true → accept sp p (fetched sp p s) = some x →
    let counted := if sp.opcode = 0x0301 then bump 3 2 1 (fetched sp p s) else fetched sp p s
    exec i s = .next (settle s (complete id x (if x.status = 0x0016 then bump 4 1 1 counted else counted)))) ∧
  (reaches sp p s = true → accept sp p (fetched sp p s) = none → waitsLaunch sp p = true →
    (waitingCount (fetched sp p s) < 1024 → sp.early = false →
      exec i s = .next (settle s (setPhase id .waiting (noteAccepted sp p (fetched sp p s))))) ∧
    (1024 ≤ waitingCount (fetched sp p s) → sp.opcode ≠ 0x0301 →
      exec i s = .next (settle s (complete id (refuse 0x0030 0x03) (fetched sp p s)))))

/-- R57: an entry with FENCE set does not start while a command fetched before it from its ring has not completed, waiting ones
included; and because entries start in ring order, an entry behind one that has not started does not start either: the entry stays in
the ring, SQ_HEAD stands and no command begins. -/
def Obligations.FenceHolds : Prop :=
  ∀ (i : Instr) (sp : OpSpec) (p : Pkt) (s : State), packetOf i = some (sp, p) →
  let d := stageMirror sp p s.dev
  takesEntry d (ringN p) = true →
  ((∃ e ∈ s.dev.cmd.cmds, e.pkt.ring = p.ring ∧ e.ringless = false ∧ bitAt p.flags.toNat 0 = true) ∧
      linkFailed (ringOf d (ringN p)) = false ∨
    (ringOf d (ringN p)).filled ≠ 0) →
  exec i s = .next (settle s (placed sp p s)) ∧
  (ringOf (placed sp p s) (ringN p)).sqHead = (ringOf s.dev (ringN p)).sqHead ∧
  (placed sp p s).cmd.nextId = s.dev.cmd.nextId ∧ (placed sp p s).cmd.cmds = s.dev.cmd.cmds

/-- R50: a submission entry is 64 bytes that hold the packet's fields at the offsets of the table; the packet that those bytes spell is
the packet. -/
def Obligations.PacketLayout : Prop := ∀ p : Pkt,
  (pktBytes p).length = 64 ∧ pktOfBytes p.ring (pktBytes p) = p ∧
  fieldLE (pktBytes p) 0x00 2 = p.opcode.toNat ∧ fieldLE (pktBytes p) 0x02 1 = p.flags.toNat ∧
  fieldLE (pktBytes p) 0x03 1 = p.classOvr.toNat ∧ fieldLE (pktBytes p) 0x04 4 = p.tag.toNat ∧
  fieldLE (pktBytes p) 0x08 8 = p.launchTime.toNat ∧ fieldLE (pktBytes p) 0x10 8 = p.bufAddr.toNat ∧
  fieldLE (pktBytes p) 0x18 4 = p.bufLen.toNat ∧ fieldLE (pktBytes p) 0x1C 4 = p.word1C.toNat ∧
  fieldLE (pktBytes p) 0x20 4 = p.p0.toNat ∧ fieldLE (pktBytes p) 0x24 4 = p.p1.toNat ∧
  fieldLE (pktBytes p) 0x28 4 = p.p2.toNat ∧ fieldLE (pktBytes p) 0x2C 4 = p.p3.toNat ∧
  fieldLE (pktBytes p) 0x30 4 = p.p4.toNat ∧ fieldLE (pktBytes p) 0x34 4 = p.p5.toNat ∧
  fieldLE (pktBytes p) 0x38 4 = p.p6.toNat ∧ fieldLE (pktBytes p) 0x3C 4 = p.p7.toNat

/-- R63: the 32 bytes of a completion at CQ_TAIL of its ring, with the ring's phase, and CQ_TAIL moved on. -/
def Obligations.CompletionEntry : Prop := ∀ (id : Nat) (x : Res) (c : Cmd) (d : Dev),
  smWf none d.rg.present = true → smWf none d.rg.applied = true → smWf Ring.reset d.cmd.rings = true →
  findCmd d id = some c → c.ringless = false → (∀ e ∈ d.cmd.cmds, e.pkt.opcode.toNat ≠ 0x0005) → x.status ≠ 0x00FF →
  let n := c.pkt.ring.val
  let r := ringOf d n
  let a := r.cqBase + 32 * r.cqTail
  r.lost = false → r.st ≠ .disabled → r.failing = false → r.kept = [] → cqFullNow r = false →
  (∀ k, k < 32 → ∃ key, target d (a + k) = .key key) →
  (∀ j k, j < k → k < 32 → target d (a + j) ≠ target d (a + k)) →
  rdBytes (complete id x d) a 32 =
    leBytes 4 c.pkt.tag.toNat ++ leBytes 2 x.status ++ leBytes 1 x.detail ++ leBytes 1 (if r.phase then 1 else 0) ++
    leBytes 8 (now d) ++ leBytes 4 x.r0 ++ leBytes 4 x.r1 ++ leBytes 4 x.r2 ++ leBytes 4 x.r3 ∧
  (ringOf (complete id x d) n).cqTail = (r.cqTail + 1) % r.depth

/-- R47: a completion that falls due while its completion ring is full is kept and sets CQ_FULL; nothing is stored, no entry is
fetched from the ring, the commands in flight and the other rings stand. -/
def Obligations.FullRingKeepsCompletions : Prop := ∀ (n : Nat) (c : Cpl) (d : Dev),
  let r := ringOf d n
  r.lost = false → r.st ≠ .disabled → cqFullNow r = true →
  let e := postCpl n c d
  canFetch e n = false ∧ (ringOf e n).cqFull = true ∧ (ringOf e n).kept = r.kept ++ [c] ∧ e.wr = d.wr ∧ e.mem = d.mem ∧
  e.cmd.cmds = d.cmd.cmds ∧ (∀ m, m ≠ n → ringOf e m = ringOf d m)

/-- R48: a doorbell value that is not below the depth, or that would pass the other pointer, is discarded and sets BAD_DB; a doorbell
write to a ring that is not ACTIVE is discarded and sets DB_DROPPED; the pointers stand. -/
def Obligations.DoorbellDiscarded : Prop := ∀ (n : Fin 64) (w : Word) (s : State), reachable s.dev = true →
  let r := ringOf s.dev n.val
  let v := w.toNat % 4096
  let d := writeRk (Reg.ringSqTail n.val) w.toNat s.dev
  let e := writeRk (Reg.ringCqHead n.val) w.toNat s.dev
  let counted (e : Dev) : Dev := bump 1 (4 * n.val + 3) 1 e
  (r.st ≠ .active →
    exec (.sqTailDoorbell n w) s = .next (settle s (counted (modRing n.val (fun r => { r with dbDropped := true }) d))) ∧
    exec (.cqHeadWrite n w) s = .next (settle s (counted (modRing n.val (fun r => { r with dbDropped := true }) e)))) ∧
  (r.st = .active →
    (r.depth ≤ v ∨
      r.depth ≤ (r.sqTail + r.depth - r.sqHead) % r.depth + (v + r.depth - r.sqTail) % r.depth) →
    exec (.sqTailDoorbell n w) s = .next (settle s (counted (modRing n.val (fun r => { r with badDb := true }) d)))) ∧
  (r.st = .active →
    (r.depth ≤ v ∨ (r.cqTail + r.depth - r.cqHead) % r.depth < (v + r.depth - r.cqHead) % r.depth) →
    exec (.cqHeadWrite n w) s = .next (settle s (counted (modRing n.val (fun r => { r with badDb := true }) e))))

/-- Every mode change raises MSI-X vector 65, entry to HOLD also vector 66 (R103): their bits of SYS_EVENT are set. -/
def Obligations.ModeChangeRaises : Prop := ∀ (new : Mode) (cause : Nat) (d : Dev), d.sys.mode ≠ new →
  bitAt (regP (enterMode new cause d) Reg.sysEvent) 1 = true ∧
  (new = .hold → bitAt (regP (enterMode new cause d) Reg.sysEvent) 2 = true)

/-- A host write to a register of a block without register effects of its own goes field by field (R82): RW bits take the written
value, shadow (RWS) bits take it and their applied bits stand, RO and RC bits stand, and no other register changes. -/
def Obligations.FieldAccess : Prop := ∀ (o : Nat) (w : Word) (s : State), reachable s.dev = true → Inv s → noReset s →
  o % 4 = 0 → isMsixTable o = false → isMsixPba o = false → o % 0x10000 < 0x8000 → offsetImplemented o = true →
  o / 0x10000 ∉ [0, 1, 2, 8, 12, 14, 15, 17, 20, 21, 26] →
  ∃ t, exec (.registerWrite o w) s = .next t ∧
    (∀ b, b < 32 →
      (bitAt (accMask (fieldsAt o) .rw) b = true →
        bitAt (regP t.dev o) b = w.getLsbD b ∧ bitAt (regA t.dev o) b = w.getLsbD b) ∧
      (bitAt (accMask (fieldsAt o) .rws) b = true → bitAt (accMask (fieldsAt o) .rw) b = false →
        bitAt (regP t.dev o) b = w.getLsbD b ∧ bitAt (regA t.dev o) b = bitAt (regA s.dev o) b) ∧
      ((bitAt (accMask (fieldsAt o) .ro) b = true ∨ bitAt (accMask (fieldsAt o) .rc) b = true) →
        bitAt (accMask (fieldsAt o) .rw) b = false → bitAt (accMask (fieldsAt o) .rws) b = false →
        bitAt (regP t.dev o) b = bitAt (regP s.dev o) b)) ∧
    (∀ q, q ≠ o → regP t.dev q = regP s.dev q ∧ regA t.dev q = regA s.dev q)

/-- The logic engine's stack (R305): a scan starts with it empty; a PUSH onto 16 entries is discarded, a pop of none yields 0, each
is a STACK event; it never holds more than 16; the scan goes on to its END. -/
def Obligations.LogicStack : Prop :=
  (∀ (dt : Nat) (e : CleSt), ∃ x, x.stack = [] ∧ x.faults = 0 ∧
    runProgram dt e = logicRun e.prog.toArray dt e.prog.length x) ∧
  (∀ (dt w : Nat) (x : Exec),
    (bits w 31 26 = 0x0C → x.stack.length = 16 →
      (logicInstr dt w x).stack = x.stack ∧ (logicInstr dt w x).faults = x.faults + 1) ∧
    (bits w 31 26 = 0x0C → x.stack.length < 16 →
      (logicInstr dt w x).stack = x.acc :: x.stack ∧ (logicInstr dt w x).faults = x.faults) ∧
    (bits w 31 26 = 0x0D → x.stack = [] →
      (logicInstr dt w x).stack = [] ∧ (logicInstr dt w x).faults = x.faults + 1 ∧ (logicInstr dt w x).acc = false) ∧
    (bits w 31 26 = 0x0E → x.stack = [] →
      (logicInstr dt w x).stack = [] ∧ (logicInstr dt w x).faults = x.faults + 1 ∧ (logicInstr dt w x).acc = x.acc) ∧
    (x.stack.length ≤ 16 → (logicInstr dt w x).stack.length ≤ 16) ∧
    x.faults ≤ (logicInstr dt w x).faults ∧
    ((logicInstr dt w x).ended = true → x.ended = true ∨ bits w 31 26 = 0x3F))

/-- R308: a program that LOGIC_LOAD accepts has every jump forward and inside the program and END at its last address; so every scan
of it goes strictly forward, executes each address at most once, and ends at an END. -/
def Obligations.EveryScanEnds : Prop :=
  (∀ prog : List Nat, progFault prog = none → prog ≠ [] →
    bits (prog.getLastD 0) 31 26 = 0x3F ∧
    (∀ k, k < prog.length → (bits (prog.getD k 0) 31 26 = 0x20 ∨ bits (prog.getD k 0) 31 26 = 0x21) →
      k < bits (prog.getD k 0) 15 0 ∧ bits (prog.getD k 0) 15 0 < prog.length) ∧
    (∀ (dt : Nat) (x : Exec), x.addr < prog.length → x.addr < (logicInstr dt (prog.getD x.addr 0) x).addr)) ∧
  (∀ (dt : Nat) (e : CleSt), progFault e.prog = none → e.prog ≠ [] →
    (runProgram dt e).ended = true ∧ (runProgram dt e).count ≤ e.prog.length)

/-- R470: the code driven for a stored value is v × (2³² + AGE × S) / 2³² rounded to the nearest (halves up) and clipped to 1023; a
clipped value counts in PAV_CLIP_CNT; the aging coefficients are those applied at the panel frame's start, and a line keeps them. -/
def Obligations.PanelDriveCode : Prop :=
  (∀ age stress v : Nat, ∃ x : Nat,
    2 ^ 33 * x ≤ 2 * (v * (2 ^ 32 + age * stress)) + 2 ^ 32 ∧ 2 * (v * (2 ^ 32 + age * stress)) + 2 ^ 32 < 2 ^ 33 * (x + 1) ∧
    driveCode age stress v = (min 1023 x, decide (1023 < x))) ∧
  (∀ s t : State, Inv s → noReset s → s.dev.sys.mode ≠ .backup → s.dev.pav.flip = none → exec .panelFrameStart s = .next t →
    t.dev.pav.ages = (List.range 3).map (fun c => fldA s.dev (Reg.pavAge c) 15 0)) ∧
  (∀ s t : State, Inv s → noReset s → exec .panelLine s = .next t → t.dev.pav.ages = s.dev.pav.ages) ∧
  (∀ s t : State, Inv s → noReset s → s.dev.sys.mode ≠ .backup → s.dev.pav.line < 240 →
    let r := s.dev.pav.line
    let d := advanceTicks (s.dev.pav.start + r * s.dev.pav.timing.hTotal + s.dev.pav.timing.phStart)
      { s.dev with pav.line := r + 1 }
    let codes := (List.range 960).map (fun k =>
      driveCode (s.dev.pav.ages.getD (k % 3) 0) (smGet 0 s.dev.pav.stress (960 * r + k))
        (bits (smGet 0 (frontBuf s.dev) (320 * r + k / 3)) (29 - 10 * (k % 3)) (20 - 10 * (k % 3))))
    blanked d = false → classStops d 9 = false → exec .panelLine s = .next t →
    t.dev.pav.driven = codes.map (·.1) ∧
    regP t.dev Reg.pavClipCnt = (regP s.dev Reg.pavClipCnt + (codes.filter (·.2)).length) % 2 ^ 32)

/-- The time base and the PTP timescale (R322): TB = (PTP seconds − EPOCH) × 10⁹ + PTP nanoseconds, in both directions. -/
def Obligations.PtpTimescale : Prop :=
  (∀ (d : Dev) (secs ns : Nat), fromPtp d secs ns = ((secs : Int) - epoch d) * 10 ^ 9 + ns) ∧
  (∀ (d : Dev) (t : Int), ((toPtp d t).1 - epoch d) * 10 ^ 9 + (toPtp d t).2 = t ∧ 0 ≤ (toPtp d t).2 ∧ (toPtp d t).2 < 10 ^ 9)

/-- The pins by mode (R105): undriven in BACKUP; driven from the latches in RUN, HOLD and SERVICE; at the park values of their
registers in every other mode, where a metering pulse of a launch is not driven; HOLD_N low in every mode but RUN and BACKUP; the
outputs owned in RUN, HOLD and SERVICE. -/
def Obligations.PinsByMode : Prop := ∀ (d : Dev) (n : Nat),
  let pwm := regA d (Reg.ioxPwmCfg n)
  let gpio := regA d (Reg.ioxGpioCfg n)
  let po := regA d (Reg.ioxPoCfg n)
  (d.sys.mode = .backup → dacPin d n = none ∧ pwmPin d n = none ∧ gpioPin d n = none ∧ poPin d n = none ∧ holdOut d = false) ∧
  (d.sys.mode = .run ∨ d.sys.mode = .hold ∨ d.sys.mode = .service →
    dacPin d n = some (smGet 0 d.iox.dac n) ∧
    (gpioOwner d n ≠ 0 → bitAt gpio 5 = false → gpioPin d n = some (smGet false d.iox.gpio n)) ∧
    (gpioOwner d n = 0 → gpioPin d n = none)) ∧
  (d.sys.mode = .boot ∨ d.sys.mode = .provision ∨ d.sys.mode = .config ∨ d.sys.mode = .standby →
    dacPin d n = some (fldA d (Reg.ioxDacPark n) 15 0) ∧ pwmPin d n = some (bitAt pwm 28) ∧
    (gpioOwner d n ≠ 0 → bitAt gpio 5 = false → gpioPin d n = if bitAt gpio 2 then some (bitAt gpio 1) else none) ∧
    (poLaunch d n = true → bitAt po 29 = false → poPin d n = some (bitAt po 30))) ∧
  (d.sys.mode ≠ .backup → d.sys.mode ≠ .run → holdLow d = true) ∧
  (d.sys.mode.owns = true ↔ d.sys.mode = .run ∨ d.sys.mode = .hold ∨ d.sys.mode = .service)

/-- A round of arbitration (R210, R211): it serves requests of classes that are not paused, all of one level, the highest that any
such request has, and within level 3 all of one class, the first in order; and where the requesters are leaves of a tree of at most
eight levels with fewer than 64 children a node, it grants the leaf of a request that it serves. -/
def Obligations.ArbitrationRound : Prop := ∀ (paused : Nat → Bool) (order : List Nat) (rs : List ArbReq) (cr : ArbCredits),
  [3, 4, 5].all (fun c => order.contains c) = true → order.all (fun c => [3, 4, 5].contains c) = true →
  let served := arbServed paused order rs
  (∀ r ∈ served, r ∈ rs ∧ paused r.cls = false ∧
    (∀ q ∈ rs, paused q.cls = false → arbLevel r.cls ≤ arbLevel q.cls ∧ (q ∈ served ↔
      arbLevel q.cls = arbLevel r.cls ∧ (arbLevel r.cls = 3 → q.cls = r.cls)))) ∧
  (∀ r ∈ served, arbLevel r.cls = 3 → ∀ q ∈ rs, paused q.cls = false → order.idxOf r.cls ≤ order.idxOf q.cls) ∧
  ((∃ q ∈ rs, paused q.cls = false) → served ≠ []) ∧
  (served = [] → arbRound paused order rs cr = (none, cr)) ∧
  (served ≠ [] → (∀ r ∈ served, r.path.length ≤ 8 ∧ ∀ c ∈ r.path, c < 64) →
    (∀ r ∈ served, ∀ q ∈ served, r.path.isPrefixOf q.path = true → r.path = q.path) →
    ∃ r ∈ served, (arbRound paused order rs cr).1 = some r.path)

/-! ### What commands leave unchanged -/

/-- The commands that `storesNothing` names store no byte: every address of memory reads as before. -/
def Obligations.StoresNothing : Prop := ∀ (i : Instr) (s t : State), Inv s → noReset s → storesNothing i = true →
  exec i s = .next t → ∀ a, rdB t.dev a = rdB s.dev a

/-- Commands that write a buffer: every byte outside the bytes written there, the command's own entry and its completion entry reads as
before. -/
def Obligations.OutputCommandsFrame : Prop := ∀ (i : Instr) (p : Pkt) (s t : State) (a len : Nat), Inv s → noReset s →
  s.dev.cmd.cmds = [] →
  ((i = .getCounters p ∧ starts specGetCounters p s = true ∧ len = 8 * min (counterCount (param p 0)) (bufL p / 8)) ∨
   (i = .evrRead p ∧ starts specEvrRead p s = true ∧ len = 64 * min (s.dev.grn.evr.length - param p 0) (bufL p / 64)) ∨
   (i = .pavStressRead p ∧ starts specPavStressRead p s = true ∧ len = 4 * param p 1) ∨
   (i = .grnQuery p ∧ starts specGrnQuery p s = true ∧ len = if bufL p = 0 then 0 else 64) ∨
   (i = .secRandom p ∧ starts specSecRandom p s = true ∧ len = param p 0)) →
  let r := ringOf s.dev (ringN p)
  (∀ k, k < len → ∃ key, target s.dev (bufA p + k) = .key key) →
  (∀ k, k < 32 → ∃ key, target s.dev (r.cqBase + 32 * r.cqTail + k) = .key key) →
  (∀ k, k < len → target s.dev (bufA p + k) ≠ .key a) →
  (∀ k, k < 64 → ∃ key, target s.dev (entryAddr r r.filled + k) = .key key) →
  (∀ k, k < 64 → target s.dev (entryAddr r r.filled + k) ≠ .key a) →
  (∀ k, k < 32 → target s.dev (r.cqBase + 32 * r.cqTail + k) ≠ .key a) →
  exec i s = .next t → rdB t.dev a = rdB s.dev a

/-- A write through a window (BAR2 of the host, a Trellis window of another unit) stores its bytes at the addresses the window gives
them, and no other byte of memory changes. -/
def Obligations.WindowWritesFrame : Prop := ∀ (x : Nat) (data : List Byte) (s t : State) (a : Nat), Inv s → noReset s →
  (∀ w len, reachable s.dev = true → w = winBase s.dev + x → winReaches s.dev w data.length true = true →
    exec (.bar2Access x true len data) s = .next t →
    (∀ k, k < data.length → ∃ key, target s.dev (w + k) = .key key) →
    (∀ k, k < data.length → target s.dev (w + k) ≠ .key a) → rdB t.dev a = rdB s.dev a) ∧
  (∀ w len, ownAddr s.dev ≠ 0 → addrConflict s.dev = false → s.dev.sys.mode ≠ .backup → x < 0x400000000 →
    w = 0x8000000000 + ownAddr s.dev * 0x400000000 + x → mapped s.dev w data.length = true →
    exec (.windowTraffic x true len (.access data)) s = .next t →
    (∀ k, k < data.length → ∃ key, target s.dev (w + k) = .key key) →
    (∀ k, k < data.length → target s.dev (w + k) ≠ .key a) → rdB t.dev a = rdB s.dev a)

/-- The element kernels FILL, COPY, PUBLISH and AXPY of a run that is no sheaf and no extrapolation store only the elements of the
record in the tile they write, where these lie in memory: a byte that is none of theirs reads as before. -/
def Obligations.ElementKernelsFrame : Prop := ∀ (id : Nat) (r : Run) (s t : State) (a : Nat), Inv s → noReset s →
  r.kind ≠ .extrapolate →
  let x := curRec r
  let rows := max (tileAt r.plan (opnd x 1)).rows 1
  let ready (code : Nat) (dst : Nat) : Prop :=
    let e := stageRecord code anyRec id s.dev
    let tl := tileAt r.plan (opnd x dst)
    sheafOf e id = none ∧ recordReady e code id anyRec r ∧
    (∀ j i c b k, j < x.batch → b < elemSize tl.prec →
      (if code = 0x08 then ∃ n, n < x.n ∧ i = n % rows ∧ c = n / rows else i < x.m ∧ c < x.n) →
      tileKey (paidDev e r) (paidRun e r) (opnd x dst) (elemOfs tl j i c + b) = some k → k < mirrorIn ∧ k ≠ a)
  ((ready 0x05 0 ∧ exec (.fill id) s = .next t) ∨ (ready 0x04 1 ∧ exec (.copy id) s = .next t) ∨
   (ready 0x07 1 ∧ exec (.publish id) s = .next t) ∨ (ready 0x08 1 ∧ exec (.axpy id) s = .next t)) →
  rdB t.dev a = rdB s.dev a

/-- PTP answers and Ethernet housekeeping change the network's own state, registers and counters only; the clock's events change the
clock, registers, the recorder's queue and counters only. -/
def Obligations.ChapterFrames : Prop := ∀ (i : Instr) (s t : State), Inv s → noReset s → exec i s = .next t →
  (netOnly i = true →
    t.dev = { s.dev with tim := t.dev.tim, rg := t.dev.rg, cmd := { s.dev.cmd with counters := t.dev.cmd.counters } }) ∧
  (clockOnly i = true →
    t.dev = { s.dev with rtc := t.dev.rtc, rg := t.dev.rg, grn := t.dev.grn, pln := { s.dev.pln with pauses := t.dev.pln.pauses },
                         cmd := { s.dev.cmd with counters := t.dev.cmd.counters, pba := t.dev.cmd.pba, sent := t.dev.cmd.sent } })

/-! ### Completion of every command, by family -/

/-- Completion of IDENTIFY, GET_MODE, ECHO, GET_COUNTERS, SET_FRAME, SET_MODE, READ_STATE and FENCE: from hypotheses on the state
and the operands alone each answers the next state named, which is written out whole, so that it also says what stands
unchanged. -/
def Obligations.SystemRowsComplete : Prop := Rows.IdentityAndCounterRowsComplete ∧ Rows.SetModeCompletes ∧ Rows.ReadStateAndFenceComplete

/-- Completion of RING_CONFIG, RING_RESET, CLASS_BUDGET and CLASS_QUERY: from hypotheses on the state and the operands alone each
answers the next state named, which is written out whole, so that it also says what stands unchanged. -/
def Obligations.RingAndClassRowsComplete : Prop := Rows.RingRowsComplete ∧ Rows.ClassRowsComplete

/-- Completion of the model rows and of MODEL_COMMIT: from hypotheses on the state and the operands alone each answers the next
state named, which is written out whole, so that it also says what stands unchanged. -/
def Obligations.ModelRowsAllComplete : Prop := Rows.ModelRowsComplete ∧ Rows.ModelCommitCompletes

/-- Completion of the plan rows and of the placement rows: from hypotheses on the state and the operands alone each answers the
next state named, which is written out whole, so that it also says what stands unchanged. -/
def Obligations.PlanRowsAllComplete : Prop := Rows.PlanLoadCompletes ∧ Rows.PlanRowsComplete ∧ Rows.PlaceRowsComplete

/-- Completion of the rows that submit, cancel and query runs, and of the run-ahead rows: from hypotheses on the state and the
operands alone each answers the next state named, which is written out whole, so that it also says what stands unchanged. -/
def Obligations.RunRowsAllComplete : Prop := Rows.SubmitRowsComplete ∧ Rows.RunCancelAndQueryComplete ∧ Rows.RunAheadRowsComplete

/-- Completion of the loop rows, LOOP_RETUNE and the trace rows: from hypotheses on the state and the operands alone each answers
the next state named, which is written out whole, so that it also says what stands unchanged. -/
def Obligations.LoopRowsAllComplete : Prop := Rows.LoopRowsComplete ∧ Rows.LoopRetuneCompletes ∧ Rows.TraceRowsComplete

/-- Completion of the cyclic-logic rows: from hypotheses on the state and the operands alone each answers the next state named,
which is written out whole, so that it also says what stands unchanged. -/
def Obligations.LogicRowsAllComplete : Prop := Rows.LogicRowsComplete ∧ Rows.LogicChangesComplete

/-- Completion of the converter and window rows: from hypotheses on the state and the operands alone each answers the next state
named, which is written out whole, so that it also says what stands unchanged. -/
def Obligations.ConverterRowsAllComplete : Prop := Rows.ConverterRowsComplete

/-- Completion of the metering rows and of the CAN packet rows: from hypotheses on the state and the operands alone each answers
the next state named, which is written out whole, so that it also says what stands unchanged. -/
def Obligations.MeterAndCanRowsComplete : Prop := Rows.MeterRowsComplete ∧ Rows.CanRowsComplete

/-- Completion of the time and PTP rows: from hypotheses on the state and the operands alone each answers the next state named,
which is written out whole, so that it also says what stands unchanged. -/
def Obligations.TimeRowsAllComplete : Prop := Rows.TimeRowsComplete

/-- Completion of SUBST_WRITE, LAUNCH_QUEUE and LAUNCH_CANCEL: from hypotheses on the state and the operands alone each answers
the next state named, which is written out whole, so that it also says what stands unchanged. -/
def Obligations.LaunchRowsAllComplete : Prop := Rows.LaunchRowsComplete

/-- Completion of the Trellis and redundancy packet rows: from hypotheses on the state and the operands alone each answers the
next state named, which is written out whole, so that it also says what stands unchanged. -/
def Obligations.TrellisRowsAllComplete : Prop := Rows.TrellisRowsComplete

/-- Completion of the Granary and recorder packet rows: from hypotheses on the state and the operands alone each answers the next
state named, which is written out whole, so that it also says what stands unchanged. -/
def Obligations.StoreRowsAllComplete : Prop := Rows.GranaryRowsComplete ∧ Rows.RecorderRowsComplete ∧ Rows.RecorderClearCompletes

/-- Completion of the Silo's key rows: from hypotheses on the state and the operands alone each answers the next state named,
which is written out whole, so that it also says what stands unchanged. -/
def Obligations.KeyRowsAllComplete : Prop := Rows.KeyRowsComplete

/-- Completion of SEC_CIPHER and of the signature and random rows: from hypotheses on the state and the operands alone each
answers the next state named, which is written out whole, so that it also says what stands unchanged. -/
def Obligations.CryptographyRowsAllComplete : Prop := Rows.CipherCompletes ∧ Rows.SignatureRowsComplete

/-- Completion of the panel, clock and health packet rows: from hypotheses on the state and the operands alone each answers the
next state named, which is written out whole, so that it also says what stands unchanged. -/
def Obligations.PanelClockHealthRowsComplete : Prop := Rows.PanelRowsComplete ∧ Rows.ClockRowsComplete ∧ Rows.HealthRowsComplete

/-- Completion of the doorbell writes: from hypotheses on the state and the operands alone each answers the next state named,
which is written out whole, so that it also says what stands unchanged. -/
def Obligations.DoorbellRowsAllComplete : Prop := Rows.DoorbellRowsComplete

/-- Completion of the strobe, commit, base-address and register-access rows: from hypotheses on the state and the operands alone
each answers the next state named, which is written out whole, so that it also says what stands unchanged. -/
def Obligations.AccessRowsAllComplete : Prop := Rows.StrobeRowsComplete ∧ Rows.BaseAddressRowsComplete ∧ Rows.RegisterAccessRowsComplete ∧ Rows.IrregularAccessCompletes

/-- Completion of the posted-write rows and of the CAN rows that act through registers: from hypotheses on the state and the
operands alone each answers the next state named, which is written out whole, so that it also says what stands unchanged. -/
def Obligations.PostedAndCanRegisterRowsComplete : Prop := Rows.PostedRowsComplete ∧ Rows.CanRegisterRowsComplete

/-- Completion of the pin, window, SPI and interface-event rows: from hypotheses on the state and the operands alone each answers
the next state named, which is written out whole, so that it also says what stands unchanged. -/
def Obligations.InterfaceRowsAllComplete : Prop := Rows.PinAndWindowRowsComplete ∧ Rows.SpiRowsComplete ∧ Rows.InterfaceEventRowsComplete

/-- Completion of the power, reset and supply rows: from hypotheses on the state and the operands alone each answers the next
state named, which is written out whole, so that it also says what stands unchanged. -/
def Obligations.PowerRowsAllComplete : Prop := Rows.PowerRowsComplete ∧ Rows.SupplyEventRowsComplete

/-- Completion of FRAME_BOUNDARY: from hypotheses on the state and the operands alone each answers the next state named, which is
written out whole, so that it also says what stands unchanged. -/
def Obligations.FrameBoundaryRowCompletes : Prop := Rows.FrameBoundaryCompletes

/-- Completion of the placement events and of the phases of a run: from hypotheses on the state and the operands alone each
answers the next state named, which is written out whole, so that it also says what stands unchanged. -/
def Obligations.RunEventRowsAllComplete : Prop := Rows.PlacementEventRowsComplete ∧ Rows.RunEventRowsComplete ∧ Rows.StatusPhaseRowsComplete

/-- Completion of the guard pass and of the pace rows: from hypotheses on the state and the operands alone each answers the next
state named, which is written out whole, so that it also says what stands unchanged. -/
def Obligations.GuardAndPaceRowsComplete : Prop := Rows.GuardPassCompletes ∧ Rows.PaceRowsComplete

/-- Completion of the control records and of the element kernels of a plan: from hypotheses on the state and the operands alone
each answers the next state named, which is written out whole, so that it also says what stands unchanged. -/
def Obligations.RecordKernelRowsComplete : Prop := Rows.ControlRecordRowsComplete ∧ Rows.ElementKernelRowsComplete

/-- Completion of the dense and the batched kernels: from hypotheses on the state and the operands alone each answers the next
state named, which is written out whole, so that it also says what stands unchanged. -/
def Obligations.MatrixKernelRowsComplete : Prop := Rows.DenseKernelRowsComplete ∧ Rows.BatchedKernelRowsComplete

/-- Completion of the estimate and the run-ahead kernels: from hypotheses on the state and the operands alone each answers the
next state named, which is written out whole, so that it also says what stands unchanged. -/
def Obligations.EngineKernelRowsComplete : Prop := Rows.EstimateKernelRowsComplete ∧ Rows.RunAheadKernelRowsComplete

/-- Completion of the logic-scan rows and of the launch events: from hypotheses on the state and the operands alone each answers
the next state named, which is written out whole, so that it also says what stands unchanged. -/
def Obligations.ScanAndLaunchRowsComplete : Prop := Rows.ScanRowsComplete ∧ Rows.LaunchEventRowsComplete

/-- Completion of the pin events and of the converter events: from hypotheses on the state and the operands alone each answers
the next state named, which is written out whole, so that it also says what stands unchanged. -/
def Obligations.PinEventRowsAllComplete : Prop := Rows.PinEventRowsComplete ∧ Rows.ConverterEventRowsComplete

/-- Completion of MTR_SAMPLE and of the metering events: from hypotheses on the state and the operands alone each answers the
next state named, which is written out whole, so that it also says what stands unchanged. -/
def Obligations.MeterEventRowsAllComplete : Prop := Rows.MeterSampleCompletes ∧ Rows.MeterEventRowsComplete

/-- Completion of the CAN bus events: from hypotheses on the state and the operands alone each answers the next state named,
which is written out whole, so that it also says what stands unchanged. -/
def Obligations.CanEventRowsAllComplete : Prop := Rows.CanEventRowsComplete

/-- Completion of the PTP messages, of the Ethernet rows and of a link change: from hypotheses on the state and the operands
alone each answers the next state named, which is written out whole, so that it also says what stands unchanged. -/
def Obligations.NetworkRowsAllComplete : Prop := Rows.PtpReceiptRowsComplete ∧ Rows.PtpTransmitRowsComplete ∧ Rows.EthernetRowsComplete ∧ Rows.LinkChangeCompletes

/-- Completion of the chain rows and of the report rows: from hypotheses on the state and the operands alone each answers the
next state named, which is written out whole, so that it also says what stands unchanged. -/
def Obligations.TrellisEventRowsComplete : Prop := Rows.ChainRowsComplete ∧ Rows.ReportRowsComplete

/-- Completion of the mirror rows and of the handover rows: from hypotheses on the state and the operands alone each answers the
next state named, which is written out whole, so that it also says what stands unchanged. -/
def Obligations.RedundancyEventRowsComplete : Prop := Rows.MirrorRowsComplete ∧ Rows.HandoverRowsComplete

/-- Completion of the journal, recording and Silo events: from hypotheses on the state and the operands alone each answers the
next state named, which is written out whole, so that it also says what stands unchanged. -/
def Obligations.StoreEventRowsComplete : Prop := Rows.JournalRowsComplete ∧ Rows.RecordingRowsComplete ∧ Rows.SiloEventRowsComplete

/-- Completion of the panel, clock and health events: from hypotheses on the state and the operands alone each answers the next
state named, which is written out whole, so that it also says what stands unchanged. -/
def Obligations.PanelClockHealthEventsComplete : Prop := Rows.PanelEventRowsComplete ∧ Rows.ClockEventRowsComplete ∧ Rows.HealthEventRowsComplete

end
end

