-- ==== Sys2Proof/Laws/Table.lean ====
section
/-!
SUPPORT. The sparse table: what smGet reads after smSet, that smSet keeps the canonical form, and that a canonical table
is its own normal form.
-/

namespace Sys2Proof.Machine

variable {α : Type}

theorem smAbove_weaken {m : SMap α} {a b : Nat} (h : smAbove (some b) m = true) (hab : a ≤ b) :
    smAbove (some a) m = true := by
  cases m with
  | nil => rfl
  | cons kv m =>
    simp only [smAbove, Bool.and_eq_true, decide_eq_true_eq] at h ⊢
    exact ⟨by omega, h.2⟩

theorem smAbove_none {m : SMap α} {b : Nat} (h : smAbove (some b) m = true) : smAbove none m = true := by
  cases m with
  | nil => rfl
  | cons kv m =>
    simp only [smAbove, Bool.and_eq_true] at h ⊢
    exact h.2

/-- A key below all listed ones reads as the default. -/
theorem smGet_above {d : α} {m : SMap α} {b k : Nat} (h : smAbove (some b) m = true) (hk : k ≤ b) : smGet d m k = d := by
  cases m with
  | nil => rfl
  | cons kv m =>
    simp only [smAbove, Bool.and_eq_true, decide_eq_true_eq] at h
    simp only [smGet]
    rw [if_neg (by omega), if_pos (by omega)]

variable [DecidableEq α]

theorem smSet_above {d : α} {m : SMap α} {b k : Nat} {v : α} (h : smAbove (some b) m = true) (hk : b < k) :
    smAbove (some b) (smSet d m k v) = true := by
  induction m generalizing b with
  | nil =>
    unfold smSet
    split
    · rfl
    · simp [smAbove, hk]
  | cons kv m ih =>
    simp only [smAbove, Bool.and_eq_true, decide_eq_true_eq] at h
    unfold smSet
    split
    · split
      · exact smAbove_weaken h.2 (by omega)
      · simp only [smAbove, Bool.and_eq_true, decide_eq_true_eq]
        exact ⟨hk, by simp [*]⟩
    · split
      · split
        · simp only [smAbove, Bool.and_eq_true, decide_eq_true_eq]
          exact h
        · simp only [smAbove, Bool.and_eq_true, decide_eq_true_eq]
          exact ⟨hk, by omega, h.2⟩
      · simp only [smAbove, Bool.and_eq_true, decide_eq_true_eq]
        exact ⟨h.1, ih h.2 (by omega)⟩

theorem smSet_sorted {d : α} {m : SMap α} {k : Nat} {v : α} (h : smAbove none m = true) :
    smAbove none (smSet d m k v) = true := by
  cases m with
  | nil =>
    unfold smSet
    split <;> rfl
  | cons kv m =>
    simp only [smAbove] at h
    unfold smSet
    split
    · split
      · exact smAbove_none h
      · simp only [smAbove]
        simp [*]
    · split
      · split
        · exact h
        · simp only [smAbove, Bool.and_eq_true, decide_eq_true_eq]
          exact ⟨by omega, h⟩
      · simp only [smAbove]
        exact smSet_above h (by omega)

theorem smSet_values {d : α} {m : SMap α} {k : Nat} {v : α} (h : m.all (fun kv => decide (kv.2 ≠ d)) = true) :
    (smSet d m k v).all (fun kv => decide (kv.2 ≠ d)) = true := by
  induction m with
  | nil =>
    unfold smSet
    split <;> simp [*]
  | cons kv m ih =>
    simp only [List.all_cons, Bool.and_eq_true, decide_eq_true_eq] at h
    unfold smSet
    split
    · split
      · exact h.2
      · simp only [List.all_cons, Bool.and_eq_true, decide_eq_true_eq]
        exact ⟨by assumption, h.2⟩
    · split
      · split
        · simp only [List.all_cons, Bool.and_eq_true, decide_eq_true_eq]
          exact h
        · simp only [List.all_cons, Bool.and_eq_true, decide_eq_true_eq]
          exact ⟨by assumption, h⟩
      · simp only [List.all_cons, Bool.and_eq_true, decide_eq_true_eq]
        exact ⟨h.1, ih h.2⟩

/-- Storing keeps the canonical form. -/
theorem smSet_wf {d : α} {m : SMap α} {k : Nat} {v : α} (h : smWf d m = true) : smWf d (smSet d m k v) = true := by
  simp only [smWf, Bool.and_eq_true] at h ⊢
  exact ⟨smSet_sorted h.1, smSet_values h.2⟩

/-- The key stored reads as the value stored. -/
theorem smGet_smSet_same {d : α} {m : SMap α} {k : Nat} {v : α} (h : smAbove none m = true) :
    smGet d (smSet d m k v) k = v := by
  have main : ∀ (m : SMap α), smAbove none m = true → smGet d (smSet d m k v) k = v := by
    intro m
    induction m with
    | nil =>
      intro _
      unfold smSet
      split
      · simp [smGet, *]
      · simp [smGet]
    | cons kv m ih =>
      intro h
      simp only [smAbove] at h
      unfold smSet
      split
      · split
        · rw [smGet_above h (by omega)]
          exact Eq.symm (by assumption)
        · simp [smGet]
      · split
        · split
          · simp only [smGet]
            rw [if_neg (by assumption), if_pos (by assumption)]
            exact Eq.symm (by assumption)
          · simp [smGet]
        · simp only [smGet]
          rw [if_neg (by assumption), if_neg (by assumption)]
          exact ih (smAbove_none h)
  exact main m h

/-- Every other key reads as before. -/
theorem smGet_smSet_ne {d : α} {m : SMap α} {k q : Nat} {v : α} (h : smAbove none m = true) (hq : q ≠ k) :
    smGet d (smSet d m k v) q = smGet d m q := by
  have main : ∀ (m : SMap α), smAbove none m = true → smGet d (smSet d m k v) q = smGet d m q := by
    intro m
    induction m with
    | nil =>
      intro _
      unfold smSet
      split
      · rfl
      · simp only [smGet]
        rw [if_neg hq]
        split <;> rfl
    | cons kv m ih =>
      intro h
      simp only [smAbove] at h
      unfold smSet
      split
      · rename_i hk
        split
        · simp only [smGet]
          rw [if_neg (by omega)]
          split
          · exact smGet_above h (by omega)
          · rfl
        · simp only [smGet]
          rw [if_neg hq, ← hk, if_neg hq]
      · split
        · split
          · rfl
          · rename_i hlt _
            simp only [smGet]
            rw [if_neg hq]
            split
            · rw [if_neg (by omega), if_pos (by omega)]
            · rfl
        · simp only [smGet]
          rw [ih (smAbove_none h)]
  exact main m h

/-- A key above every listed one goes to the end. -/
theorem smSet_append {d : α} {l : SMap α} {k : Nat} {v : α} (hl : ∀ kv ∈ l, kv.1 < k) (hv : v ≠ d) :
    smSet d l k v = l ++ [(k, v)] := by
  induction l with
  | nil => simp [smSet, hv]
  | cons kv l ih =>
    have h1 : kv.1 < k := hl kv (by simp)
    unfold smSet
    rw [if_neg (by omega), if_neg (by omega), ih (fun x hx => hl x (by simp [hx]))]
    rfl

theorem smNorm_wf_fold {d : α} (m : SMap α) (acc : SMap α) (h : smWf d acc = true) :
    smWf d (m.foldl (fun acc kv => smSet d acc kv.1 kv.2) acc) = true := by
  induction m generalizing acc with
  | nil => exact h
  | cons kv m ih => exact ih _ (smSet_wf h)

/-- A normal form is canonical. -/
theorem smNorm_wf {d : α} (m : SMap α) : smWf d (smNorm d m) = true := smNorm_wf_fold m [] rfl

theorem smNorm_fold_id {d : α} (m l : SMap α) (hs : ∀ b, (∀ kv ∈ l, kv.1 ≤ b) → l ≠ [] → (∃ kv ∈ l, kv.1 = b) → smAbove (some b) m = true)
    (h0 : l = [] → smAbove none m = true) (hv : m.all (fun kv => decide (kv.2 ≠ d)) = true)
    (hl : ∃ b, (∀ kv ∈ l, kv.1 ≤ b) ∧ (l ≠ [] → ∃ kv ∈ l, kv.1 = b)) :
    m.foldl (fun acc kv => smSet d acc kv.1 kv.2) l = l ++ m := by
  induction m generalizing l with
  | nil => simp
  | cons kv m ih =>
    simp only [List.all_cons, Bool.and_eq_true, decide_eq_true_eq] at hv
    obtain ⟨b, hb, hb'⟩ := hl
    have hlt : ∀ x ∈ l, x.1 < kv.1 := by
      intro x hx
      have hne : l ≠ [] := List.ne_nil_of_mem hx
      have := hs b hb hne (hb' hne)
      simp only [smAbove, Bool.and_eq_true, decide_eq_true_eq] at this
      have := hb x hx
      omega
    have hm : smAbove (some kv.1) m = true := by
      by_cases hne : l = []
      · have := h0 hne
        simpa [smAbove] using this
      · have := hs b hb hne (hb' hne)
        simp only [smAbove, Bool.and_eq_true] at this
        exact this.2
    simp only [List.foldl_cons]
    rw [smSet_append hlt hv.1, ih]
    · simp
    · intro c hc _ hce
      obtain ⟨x, hx, hxc⟩ := hce
      have h1 : kv.1 ≤ c := hc (kv.1, kv.2) (by simp)
      have : c = kv.1 := by
        simp only [List.mem_append, List.mem_singleton] at hx
        rcases hx with hx | hx
        · have := hlt x hx
          omega
        · rw [← hxc, hx]
      rw [this]
      exact hm
    · intro h
      simp at h
    · exact hv.2
    · refine ⟨kv.1, ?_, fun _ => ⟨(kv.1, kv.2), by simp, rfl⟩⟩
      intro x hx
      simp only [List.mem_append, List.mem_singleton] at hx
      rcases hx with hx | hx
      · exact Nat.le_of_lt (hlt x hx)
      · rw [hx]

/-- A canonical table is its own normal form. -/
theorem smNorm_id {d : α} {m : SMap α} (h : smWf d m = true) : smNorm d m = m := by
  simp only [smWf, Bool.and_eq_true] at h
  have := smNorm_fold_id (d := d) m [] (fun _ _ hn => absurd rfl hn) (fun _ => h.1) h.2 ⟨0, by simp, by simp⟩
  simpa [smNorm, smMap] using this

end Sys2Proof.Machine
end

