-- ==== Sys2Proof/Laws/State.lean ====
section
/-!
SUPPORT. What each update leaves of every part of the device: one lemma per part and update.
-/

namespace Sys2Proof.Machine

/-! ### setP -/

@[simp] theorem setP_sys (o v : Nat) (d : Dev) : (setP o v d).sys = d.sys := rfl
@[simp] theorem setP_cmd (o v : Nat) (d : Dev) : (setP o v d).cmd = d.cmd := rfl
@[simp] theorem setP_mem (o v : Nat) (d : Dev) : (setP o v d).mem = d.mem := rfl
@[simp] theorem setP_wr (o v : Nat) (d : Dev) : (setP o v d).wr = d.wr := rfl
@[simp] theorem setP_tim (o v : Nat) (d : Dev) : (setP o v d).tim = d.tim := rfl
@[simp] theorem setP_grn (o v : Nat) (d : Dev) : (setP o v d).grn = d.grn := rfl
@[simp] theorem setP_mdl (o v : Nat) (d : Dev) : (setP o v d).mdl = d.mdl := rfl
@[simp] theorem setP_pln (o v : Nat) (d : Dev) : (setP o v d).pln = d.pln := rfl
@[simp] theorem setP_thr (o v : Nat) (d : Dev) : (setP o v d).thr = d.thr := rfl
@[simp] theorem setP_plc (o v : Nat) (d : Dev) : (setP o v d).plc = d.plc := rfl
@[simp] theorem setP_shf (o v : Nat) (d : Dev) : (setP o v d).shf = d.shf := rfl
@[simp] theorem setP_lsq (o v : Nat) (d : Dev) : (setP o v d).lsq = d.lsq := rfl
@[simp] theorem setP_ra (o v : Nat) (d : Dev) : (setP o v d).ra = d.ra := rfl
@[simp] theorem setP_lch (o v : Nat) (d : Dev) : (setP o v d).lch = d.lch := rfl
@[simp] theorem setP_sec (o v : Nat) (d : Dev) : (setP o v d).sec = d.sec := rfl
@[simp] theorem setP_trl (o v : Nat) (d : Dev) : (setP o v d).trl = d.trl := rfl
@[simp] theorem setP_cap (o v : Nat) (d : Dev) : (setP o v d).cap = d.cap := rfl
@[simp] theorem setP_clp (o v : Nat) (d : Dev) : (setP o v d).clp = d.clp := rfl
@[simp] theorem setP_cle (o v : Nat) (d : Dev) : (setP o v d).cle = d.cle := rfl
@[simp] theorem setP_adc (o v : Nat) (d : Dev) : (setP o v d).adc = d.adc := rfl
@[simp] theorem setP_iox (o v : Nat) (d : Dev) : (setP o v d).iox = d.iox := rfl
@[simp] theorem setP_mtr (o v : Nat) (d : Dev) : (setP o v d).mtr = d.mtr := rfl
@[simp] theorem setP_can (o v : Nat) (d : Dev) : (setP o v d).can = d.can := rfl
@[simp] theorem setP_pav (o v : Nat) (d : Dev) : (setP o v d).pav = d.pav := rfl
@[simp] theorem setP_rtc (o v : Nat) (d : Dev) : (setP o v d).rtc = d.rtc := rfl
@[simp] theorem setP_hlt (o v : Nat) (d : Dev) : (setP o v d).hlt = d.hlt := rfl

/-! ### setA -/

@[simp] theorem setA_sys (o v : Nat) (d : Dev) : (setA o v d).sys = d.sys := rfl
@[simp] theorem setA_cmd (o v : Nat) (d : Dev) : (setA o v d).cmd = d.cmd := rfl
@[simp] theorem setA_mem (o v : Nat) (d : Dev) : (setA o v d).mem = d.mem := rfl
@[simp] theorem setA_wr (o v : Nat) (d : Dev) : (setA o v d).wr = d.wr := rfl
@[simp] theorem setA_tim (o v : Nat) (d : Dev) : (setA o v d).tim = d.tim := rfl
@[simp] theorem setA_grn (o v : Nat) (d : Dev) : (setA o v d).grn = d.grn := rfl
@[simp] theorem setA_mdl (o v : Nat) (d : Dev) : (setA o v d).mdl = d.mdl := rfl
@[simp] theorem setA_pln (o v : Nat) (d : Dev) : (setA o v d).pln = d.pln := rfl
@[simp] theorem setA_thr (o v : Nat) (d : Dev) : (setA o v d).thr = d.thr := rfl
@[simp] theorem setA_plc (o v : Nat) (d : Dev) : (setA o v d).plc = d.plc := rfl
@[simp] theorem setA_shf (o v : Nat) (d : Dev) : (setA o v d).shf = d.shf := rfl
@[simp] theorem setA_lsq (o v : Nat) (d : Dev) : (setA o v d).lsq = d.lsq := rfl
@[simp] theorem setA_ra (o v : Nat) (d : Dev) : (setA o v d).ra = d.ra := rfl
@[simp] theorem setA_lch (o v : Nat) (d : Dev) : (setA o v d).lch = d.lch := rfl
@[simp] theorem setA_sec (o v : Nat) (d : Dev) : (setA o v d).sec = d.sec := rfl
@[simp] theorem setA_trl (o v : Nat) (d : Dev) : (setA o v d).trl = d.trl := rfl
@[simp] theorem setA_cap (o v : Nat) (d : Dev) : (setA o v d).cap = d.cap := rfl
@[simp] theorem setA_clp (o v : Nat) (d : Dev) : (setA o v d).clp = d.clp := rfl
@[simp] theorem setA_cle (o v : Nat) (d : Dev) : (setA o v d).cle = d.cle := rfl
@[simp] theorem setA_adc (o v : Nat) (d : Dev) : (setA o v d).adc = d.adc := rfl
@[simp] theorem setA_iox (o v : Nat) (d : Dev) : (setA o v d).iox = d.iox := rfl
@[simp] theorem setA_mtr (o v : Nat) (d : Dev) : (setA o v d).mtr = d.mtr := rfl
@[simp] theorem setA_can (o v : Nat) (d : Dev) : (setA o v d).can = d.can := rfl
@[simp] theorem setA_pav (o v : Nat) (d : Dev) : (setA o v d).pav = d.pav := rfl
@[simp] theorem setA_rtc (o v : Nat) (d : Dev) : (setA o v d).rtc = d.rtc := rfl
@[simp] theorem setA_hlt (o v : Nat) (d : Dev) : (setA o v d).hlt = d.hlt := rfl

/-! ### setL -/

@[simp] theorem setL_sys (o v : Nat) (d : Dev) : (setL o v d).sys = d.sys := rfl
@[simp] theorem setL_cmd (o v : Nat) (d : Dev) : (setL o v d).cmd = d.cmd := rfl
@[simp] theorem setL_mem (o v : Nat) (d : Dev) : (setL o v d).mem = d.mem := rfl
@[simp] theorem setL_wr (o v : Nat) (d : Dev) : (setL o v d).wr = d.wr := rfl
@[simp] theorem setL_tim (o v : Nat) (d : Dev) : (setL o v d).tim = d.tim := rfl
@[simp] theorem setL_grn (o v : Nat) (d : Dev) : (setL o v d).grn = d.grn := rfl
@[simp] theorem setL_mdl (o v : Nat) (d : Dev) : (setL o v d).mdl = d.mdl := rfl
@[simp] theorem setL_pln (o v : Nat) (d : Dev) : (setL o v d).pln = d.pln := rfl
@[simp] theorem setL_thr (o v : Nat) (d : Dev) : (setL o v d).thr = d.thr := rfl
@[simp] theorem setL_plc (o v : Nat) (d : Dev) : (setL o v d).plc = d.plc := rfl
@[simp] theorem setL_shf (o v : Nat) (d : Dev) : (setL o v d).shf = d.shf := rfl
@[simp] theorem setL_lsq (o v : Nat) (d : Dev) : (setL o v d).lsq = d.lsq := rfl
@[simp] theorem setL_ra (o v : Nat) (d : Dev) : (setL o v d).ra = d.ra := rfl
@[simp] theorem setL_lch (o v : Nat) (d : Dev) : (setL o v d).lch = d.lch := rfl
@[simp] theorem setL_sec (o v : Nat) (d : Dev) : (setL o v d).sec = d.sec := rfl
@[simp] theorem setL_trl (o v : Nat) (d : Dev) : (setL o v d).trl = d.trl := rfl
@[simp] theorem setL_cap (o v : Nat) (d : Dev) : (setL o v d).cap = d.cap := rfl
@[simp] theorem setL_clp (o v : Nat) (d : Dev) : (setL o v d).clp = d.clp := rfl
@[simp] theorem setL_cle (o v : Nat) (d : Dev) : (setL o v d).cle = d.cle := rfl
@[simp] theorem setL_adc (o v : Nat) (d : Dev) : (setL o v d).adc = d.adc := rfl
@[simp] theorem setL_iox (o v : Nat) (d : Dev) : (setL o v d).iox = d.iox := rfl
@[simp] theorem setL_mtr (o v : Nat) (d : Dev) : (setL o v d).mtr = d.mtr := rfl
@[simp] theorem setL_can (o v : Nat) (d : Dev) : (setL o v d).can = d.can := rfl
@[simp] theorem setL_pav (o v : Nat) (d : Dev) : (setL o v d).pav = d.pav := rfl
@[simp] theorem setL_rtc (o v : Nat) (d : Dev) : (setL o v d).rtc = d.rtc := rfl
@[simp] theorem setL_hlt (o v : Nat) (d : Dev) : (setL o v d).hlt = d.hlt := rfl

/-! ### setF -/

@[simp] theorem setF_sys (o hi lo v : Nat) (d : Dev) : (setF o hi lo v d).sys = d.sys := rfl
@[simp] theorem setF_cmd (o hi lo v : Nat) (d : Dev) : (setF o hi lo v d).cmd = d.cmd := rfl
@[simp] theorem setF_mem (o hi lo v : Nat) (d : Dev) : (setF o hi lo v d).mem = d.mem := rfl
@[simp] theorem setF_wr (o hi lo v : Nat) (d : Dev) : (setF o hi lo v d).wr = d.wr := rfl
@[simp] theorem setF_tim (o hi lo v : Nat) (d : Dev) : (setF o hi lo v d).tim = d.tim := rfl
@[simp] theorem setF_grn (o hi lo v : Nat) (d : Dev) : (setF o hi lo v d).grn = d.grn := rfl
@[simp] theorem setF_mdl (o hi lo v : Nat) (d : Dev) : (setF o hi lo v d).mdl = d.mdl := rfl
@[simp] theorem setF_pln (o hi lo v : Nat) (d : Dev) : (setF o hi lo v d).pln = d.pln := rfl
@[simp] theorem setF_thr (o hi lo v : Nat) (d : Dev) : (setF o hi lo v d).thr = d.thr := rfl
@[simp] theorem setF_plc (o hi lo v : Nat) (d : Dev) : (setF o hi lo v d).plc = d.plc := rfl
@[simp] theorem setF_shf (o hi lo v : Nat) (d : Dev) : (setF o hi lo v d).shf = d.shf := rfl
@[simp] theorem setF_lsq (o hi lo v : Nat) (d : Dev) : (setF o hi lo v d).lsq = d.lsq := rfl
@[simp] theorem setF_ra (o hi lo v : Nat) (d : Dev) : (setF o hi lo v d).ra = d.ra := rfl
@[simp] theorem setF_lch (o hi lo v : Nat) (d : Dev) : (setF o hi lo v d).lch = d.lch := rfl
@[simp] theorem setF_sec (o hi lo v : Nat) (d : Dev) : (setF o hi lo v d).sec = d.sec := rfl
@[simp] theorem setF_trl (o hi lo v : Nat) (d : Dev) : (setF o hi lo v d).trl = d.trl := rfl
@[simp] theorem setF_cap (o hi lo v : Nat) (d : Dev) : (setF o hi lo v d).cap = d.cap := rfl
@[simp] theorem setF_clp (o hi lo v : Nat) (d : Dev) : (setF o hi lo v d).clp = d.clp := rfl
@[simp] theorem setF_cle (o hi lo v : Nat) (d : Dev) : (setF o hi lo v d).cle = d.cle := rfl
@[simp] theorem setF_adc (o hi lo v : Nat) (d : Dev) : (setF o hi lo v d).adc = d.adc := rfl
@[simp] theorem setF_iox (o hi lo v : Nat) (d : Dev) : (setF o hi lo v d).iox = d.iox := rfl
@[simp] theorem setF_mtr (o hi lo v : Nat) (d : Dev) : (setF o hi lo v d).mtr = d.mtr := rfl
@[simp] theorem setF_can (o hi lo v : Nat) (d : Dev) : (setF o hi lo v d).can = d.can := rfl
@[simp] theorem setF_pav (o hi lo v : Nat) (d : Dev) : (setF o hi lo v d).pav = d.pav := rfl
@[simp] theorem setF_rtc (o hi lo v : Nat) (d : Dev) : (setF o hi lo v d).rtc = d.rtc := rfl
@[simp] theorem setF_hlt (o hi lo v : Nat) (d : Dev) : (setF o hi lo v d).hlt = d.hlt := rfl

/-! ### addF -/

@[simp] theorem addF_sys (o hi lo n : Nat) (d : Dev) : (addF o hi lo n d).sys = d.sys := rfl
@[simp] theorem addF_cmd (o hi lo n : Nat) (d : Dev) : (addF o hi lo n d).cmd = d.cmd := rfl
@[simp] theorem addF_mem (o hi lo n : Nat) (d : Dev) : (addF o hi lo n d).mem = d.mem := rfl
@[simp] theorem addF_wr (o hi lo n : Nat) (d : Dev) : (addF o hi lo n d).wr = d.wr := rfl
@[simp] theorem addF_tim (o hi lo n : Nat) (d : Dev) : (addF o hi lo n d).tim = d.tim := rfl
@[simp] theorem addF_grn (o hi lo n : Nat) (d : Dev) : (addF o hi lo n d).grn = d.grn := rfl
@[simp] theorem addF_mdl (o hi lo n : Nat) (d : Dev) : (addF o hi lo n d).mdl = d.mdl := rfl
@[simp] theorem addF_pln (o hi lo n : Nat) (d : Dev) : (addF o hi lo n d).pln = d.pln := rfl
@[simp] theorem addF_thr (o hi lo n : Nat) (d : Dev) : (addF o hi lo n d).thr = d.thr := rfl
@[simp] theorem addF_plc (o hi lo n : Nat) (d : Dev) : (addF o hi lo n d).plc = d.plc := rfl
@[simp] theorem addF_shf (o hi lo n : Nat) (d : Dev) : (addF o hi lo n d).shf = d.shf := rfl
@[simp] theorem addF_lsq (o hi lo n : Nat) (d : Dev) : (addF o hi lo n d).lsq = d.lsq := rfl
@[simp] theorem addF_ra (o hi lo n : Nat) (d : Dev) : (addF o hi lo n d).ra = d.ra := rfl
@[simp] theorem addF_lch (o hi lo n : Nat) (d : Dev) : (addF o hi lo n d).lch = d.lch := rfl
@[simp] theorem addF_sec (o hi lo n : Nat) (d : Dev) : (addF o hi lo n d).sec = d.sec := rfl
@[simp] theorem addF_trl (o hi lo n : Nat) (d : Dev) : (addF o hi lo n d).trl = d.trl := rfl
@[simp] theorem addF_cap (o hi lo n : Nat) (d : Dev) : (addF o hi lo n d).cap = d.cap := rfl
@[simp] theorem addF_clp (o hi lo n : Nat) (d : Dev) : (addF o hi lo n d).clp = d.clp := rfl
@[simp] theorem addF_cle (o hi lo n : Nat) (d : Dev) : (addF o hi lo n d).cle = d.cle := rfl
@[simp] theorem addF_adc (o hi lo n : Nat) (d : Dev) : (addF o hi lo n d).adc = d.adc := rfl
@[simp] theorem addF_iox (o hi lo n : Nat) (d : Dev) : (addF o hi lo n d).iox = d.iox := rfl
@[simp] theorem addF_mtr (o hi lo n : Nat) (d : Dev) : (addF o hi lo n d).mtr = d.mtr := rfl
@[simp] theorem addF_can (o hi lo n : Nat) (d : Dev) : (addF o hi lo n d).can = d.can := rfl
@[simp] theorem addF_pav (o hi lo n : Nat) (d : Dev) : (addF o hi lo n d).pav = d.pav := rfl
@[simp] theorem addF_rtc (o hi lo n : Nat) (d : Dev) : (addF o hi lo n d).rtc = d.rtc := rfl
@[simp] theorem addF_hlt (o hi lo n : Nat) (d : Dev) : (addF o hi lo n d).hlt = d.hlt := rfl

/-! ### orP -/

@[simp] theorem orP_sys (o m : Nat) (d : Dev) : (orP o m d).sys = d.sys := rfl
@[simp] theorem orP_cmd (o m : Nat) (d : Dev) : (orP o m d).cmd = d.cmd := rfl
@[simp] theorem orP_mem (o m : Nat) (d : Dev) : (orP o m d).mem = d.mem := rfl
@[simp] theorem orP_wr (o m : Nat) (d : Dev) : (orP o m d).wr = d.wr := rfl
@[simp] theorem orP_tim (o m : Nat) (d : Dev) : (orP o m d).tim = d.tim := rfl
@[simp] theorem orP_grn (o m : Nat) (d : Dev) : (orP o m d).grn = d.grn := rfl
@[simp] theorem orP_mdl (o m : Nat) (d : Dev) : (orP o m d).mdl = d.mdl := rfl
@[simp] theorem orP_pln (o m : Nat) (d : Dev) : (orP o m d).pln = d.pln := rfl
@[simp] theorem orP_thr (o m : Nat) (d : Dev) : (orP o m d).thr = d.thr := rfl
@[simp] theorem orP_plc (o m : Nat) (d : Dev) : (orP o m d).plc = d.plc := rfl
@[simp] theorem orP_shf (o m : Nat) (d : Dev) : (orP o m d).shf = d.shf := rfl
@[simp] theorem orP_lsq (o m : Nat) (d : Dev) : (orP o m d).lsq = d.lsq := rfl
@[simp] theorem orP_ra (o m : Nat) (d : Dev) : (orP o m d).ra = d.ra := rfl
@[simp] theorem orP_lch (o m : Nat) (d : Dev) : (orP o m d).lch = d.lch := rfl
@[simp] theorem orP_sec (o m : Nat) (d : Dev) : (orP o m d).sec = d.sec := rfl
@[simp] theorem orP_trl (o m : Nat) (d : Dev) : (orP o m d).trl = d.trl := rfl
@[simp] theorem orP_cap (o m : Nat) (d : Dev) : (orP o m d).cap = d.cap := rfl
@[simp] theorem orP_clp (o m : Nat) (d : Dev) : (orP o m d).clp = d.clp := rfl
@[simp] theorem orP_cle (o m : Nat) (d : Dev) : (orP o m d).cle = d.cle := rfl
@[simp] theorem orP_adc (o m : Nat) (d : Dev) : (orP o m d).adc = d.adc := rfl
@[simp] theorem orP_iox (o m : Nat) (d : Dev) : (orP o m d).iox = d.iox := rfl
@[simp] theorem orP_mtr (o m : Nat) (d : Dev) : (orP o m d).mtr = d.mtr := rfl
@[simp] theorem orP_can (o m : Nat) (d : Dev) : (orP o m d).can = d.can := rfl
@[simp] theorem orP_pav (o m : Nat) (d : Dev) : (orP o m d).pav = d.pav := rfl
@[simp] theorem orP_rtc (o m : Nat) (d : Dev) : (orP o m d).rtc = d.rtc := rfl
@[simp] theorem orP_hlt (o m : Nat) (d : Dev) : (orP o m d).hlt = d.hlt := rfl

/-! ### bump -/

@[simp] theorem bump_sys (g i n : Nat) (d : Dev) : (bump g i n d).sys = d.sys := rfl
@[simp] theorem bump_rg (g i n : Nat) (d : Dev) : (bump g i n d).rg = d.rg := rfl
@[simp] theorem bump_mem (g i n : Nat) (d : Dev) : (bump g i n d).mem = d.mem := rfl
@[simp] theorem bump_wr (g i n : Nat) (d : Dev) : (bump g i n d).wr = d.wr := rfl
@[simp] theorem bump_tim (g i n : Nat) (d : Dev) : (bump g i n d).tim = d.tim := rfl
@[simp] theorem bump_grn (g i n : Nat) (d : Dev) : (bump g i n d).grn = d.grn := rfl
@[simp] theorem bump_mdl (g i n : Nat) (d : Dev) : (bump g i n d).mdl = d.mdl := rfl
@[simp] theorem bump_pln (g i n : Nat) (d : Dev) : (bump g i n d).pln = d.pln := rfl
@[simp] theorem bump_thr (g i n : Nat) (d : Dev) : (bump g i n d).thr = d.thr := rfl
@[simp] theorem bump_plc (g i n : Nat) (d : Dev) : (bump g i n d).plc = d.plc := rfl
@[simp] theorem bump_shf (g i n : Nat) (d : Dev) : (bump g i n d).shf = d.shf := rfl
@[simp] theorem bump_lsq (g i n : Nat) (d : Dev) : (bump g i n d).lsq = d.lsq := rfl
@[simp] theorem bump_ra (g i n : Nat) (d : Dev) : (bump g i n d).ra = d.ra := rfl
@[simp] theorem bump_lch (g i n : Nat) (d : Dev) : (bump g i n d).lch = d.lch := rfl
@[simp] theorem bump_sec (g i n : Nat) (d : Dev) : (bump g i n d).sec = d.sec := rfl
@[simp] theorem bump_trl (g i n : Nat) (d : Dev) : (bump g i n d).trl = d.trl := rfl
@[simp] theorem bump_cap (g i n : Nat) (d : Dev) : (bump g i n d).cap = d.cap := rfl
@[simp] theorem bump_clp (g i n : Nat) (d : Dev) : (bump g i n d).clp = d.clp := rfl
@[simp] theorem bump_cle (g i n : Nat) (d : Dev) : (bump g i n d).cle = d.cle := rfl
@[simp] theorem bump_adc (g i n : Nat) (d : Dev) : (bump g i n d).adc = d.adc := rfl
@[simp] theorem bump_iox (g i n : Nat) (d : Dev) : (bump g i n d).iox = d.iox := rfl
@[simp] theorem bump_mtr (g i n : Nat) (d : Dev) : (bump g i n d).mtr = d.mtr := rfl
@[simp] theorem bump_can (g i n : Nat) (d : Dev) : (bump g i n d).can = d.can := rfl
@[simp] theorem bump_pav (g i n : Nat) (d : Dev) : (bump g i n d).pav = d.pav := rfl
@[simp] theorem bump_rtc (g i n : Nat) (d : Dev) : (bump g i n d).rtc = d.rtc := rfl
@[simp] theorem bump_hlt (g i n : Nat) (d : Dev) : (bump g i n d).hlt = d.hlt := rfl

/-! ### setRing -/

@[simp] theorem setRing_sys (n : Nat) (r : Ring) (d : Dev) : (setRing n r d).sys = d.sys := rfl
@[simp] theorem setRing_rg (n : Nat) (r : Ring) (d : Dev) : (setRing n r d).rg = d.rg := rfl
@[simp] theorem setRing_mem (n : Nat) (r : Ring) (d : Dev) : (setRing n r d).mem = d.mem := rfl
@[simp] theorem setRing_wr (n : Nat) (r : Ring) (d : Dev) : (setRing n r d).wr = d.wr := rfl
@[simp] theorem setRing_tim (n : Nat) (r : Ring) (d : Dev) : (setRing n r d).tim = d.tim := rfl
@[simp] theorem setRing_grn (n : Nat) (r : Ring) (d : Dev) : (setRing n r d).grn = d.grn := rfl
@[simp] theorem setRing_mdl (n : Nat) (r : Ring) (d : Dev) : (setRing n r d).mdl = d.mdl := rfl
@[simp] theorem setRing_pln (n : Nat) (r : Ring) (d : Dev) : (setRing n r d).pln = d.pln := rfl
@[simp] theorem setRing_thr (n : Nat) (r : Ring) (d : Dev) : (setRing n r d).thr = d.thr := rfl
@[simp] theorem setRing_plc (n : Nat) (r : Ring) (d : Dev) : (setRing n r d).plc = d.plc := rfl
@[simp] theorem setRing_shf (n : Nat) (r : Ring) (d : Dev) : (setRing n r d).shf = d.shf := rfl
@[simp] theorem setRing_lsq (n : Nat) (r : Ring) (d : Dev) : (setRing n r d).lsq = d.lsq := rfl
@[simp] theorem setRing_ra (n : Nat) (r : Ring) (d : Dev) : (setRing n r d).ra = d.ra := rfl
@[simp] theorem setRing_lch (n : Nat) (r : Ring) (d : Dev) : (setRing n r d).lch = d.lch := rfl
@[simp] theorem setRing_sec (n : Nat) (r : Ring) (d : Dev) : (setRing n r d).sec = d.sec := rfl
@[simp] theorem setRing_trl (n : Nat) (r : Ring) (d : Dev) : (setRing n r d).trl = d.trl := rfl
@[simp] theorem setRing_cap (n : Nat) (r : Ring) (d : Dev) : (setRing n r d).cap = d.cap := rfl
@[simp] theorem setRing_clp (n : Nat) (r : Ring) (d : Dev) : (setRing n r d).clp = d.clp := rfl
@[simp] theorem setRing_cle (n : Nat) (r : Ring) (d : Dev) : (setRing n r d).cle = d.cle := rfl
@[simp] theorem setRing_adc (n : Nat) (r : Ring) (d : Dev) : (setRing n r d).adc = d.adc := rfl
@[simp] theorem setRing_iox (n : Nat) (r : Ring) (d : Dev) : (setRing n r d).iox = d.iox := rfl
@[simp] theorem setRing_mtr (n : Nat) (r : Ring) (d : Dev) : (setRing n r d).mtr = d.mtr := rfl
@[simp] theorem setRing_can (n : Nat) (r : Ring) (d : Dev) : (setRing n r d).can = d.can := rfl
@[simp] theorem setRing_pav (n : Nat) (r : Ring) (d : Dev) : (setRing n r d).pav = d.pav := rfl
@[simp] theorem setRing_rtc (n : Nat) (r : Ring) (d : Dev) : (setRing n r d).rtc = d.rtc := rfl
@[simp] theorem setRing_hlt (n : Nat) (r : Ring) (d : Dev) : (setRing n r d).hlt = d.hlt := rfl

/-! ### modRing -/

@[simp] theorem modRing_sys (n : Nat) (f : Ring → Ring) (d : Dev) : (modRing n f d).sys = d.sys := rfl
@[simp] theorem modRing_rg (n : Nat) (f : Ring → Ring) (d : Dev) : (modRing n f d).rg = d.rg := rfl
@[simp] theorem modRing_mem (n : Nat) (f : Ring → Ring) (d : Dev) : (modRing n f d).mem = d.mem := rfl
@[simp] theorem modRing_wr (n : Nat) (f : Ring → Ring) (d : Dev) : (modRing n f d).wr = d.wr := rfl
@[simp] theorem modRing_tim (n : Nat) (f : Ring → Ring) (d : Dev) : (modRing n f d).tim = d.tim := rfl
@[simp] theorem modRing_grn (n : Nat) (f : Ring → Ring) (d : Dev) : (modRing n f d).grn = d.grn := rfl
@[simp] theorem modRing_mdl (n : Nat) (f : Ring → Ring) (d : Dev) : (modRing n f d).mdl = d.mdl := rfl
@[simp] theorem modRing_pln (n : Nat) (f : Ring → Ring) (d : Dev) : (modRing n f d).pln = d.pln := rfl
@[simp] theorem modRing_thr (n : Nat) (f : Ring → Ring) (d : Dev) : (modRing n f d).thr = d.thr := rfl
@[simp] theorem modRing_plc (n : Nat) (f : Ring → Ring) (d : Dev) : (modRing n f d).plc = d.plc := rfl
@[simp] theorem modRing_shf (n : Nat) (f : Ring → Ring) (d : Dev) : (modRing n f d).shf = d.shf := rfl
@[simp] theorem modRing_lsq (n : Nat) (f : Ring → Ring) (d : Dev) : (modRing n f d).lsq = d.lsq := rfl
@[simp] theorem modRing_ra (n : Nat) (f : Ring → Ring) (d : Dev) : (modRing n f d).ra = d.ra := rfl
@[simp] theorem modRing_lch (n : Nat) (f : Ring → Ring) (d : Dev) : (modRing n f d).lch = d.lch := rfl
@[simp] theorem modRing_sec (n : Nat) (f : Ring → Ring) (d : Dev) : (modRing n f d).sec = d.sec := rfl
@[simp] theorem modRing_trl (n : Nat) (f : Ring → Ring) (d : Dev) : (modRing n f d).trl = d.trl := rfl
@[simp] theorem modRing_cap (n : Nat) (f : Ring → Ring) (d : Dev) : (modRing n f d).cap = d.cap := rfl
@[simp] theorem modRing_clp (n : Nat) (f : Ring → Ring) (d : Dev) : (modRing n f d).clp = d.clp := rfl
@[simp] theorem modRing_cle (n : Nat) (f : Ring → Ring) (d : Dev) : (modRing n f d).cle = d.cle := rfl
@[simp] theorem modRing_adc (n : Nat) (f : Ring → Ring) (d : Dev) : (modRing n f d).adc = d.adc := rfl
@[simp] theorem modRing_iox (n : Nat) (f : Ring → Ring) (d : Dev) : (modRing n f d).iox = d.iox := rfl
@[simp] theorem modRing_mtr (n : Nat) (f : Ring → Ring) (d : Dev) : (modRing n f d).mtr = d.mtr := rfl
@[simp] theorem modRing_can (n : Nat) (f : Ring → Ring) (d : Dev) : (modRing n f d).can = d.can := rfl
@[simp] theorem modRing_pav (n : Nat) (f : Ring → Ring) (d : Dev) : (modRing n f d).pav = d.pav := rfl
@[simp] theorem modRing_rtc (n : Nat) (f : Ring → Ring) (d : Dev) : (modRing n f d).rtc = d.rtc := rfl
@[simp] theorem modRing_hlt (n : Nat) (f : Ring → Ring) (d : Dev) : (modRing n f d).hlt = d.hlt := rfl

/-! ### setPhase -/

@[simp] theorem setPhase_sys (id : Nat) (ph : CmdPhase) (d : Dev) : (setPhase id ph d).sys = d.sys := rfl
@[simp] theorem setPhase_rg (id : Nat) (ph : CmdPhase) (d : Dev) : (setPhase id ph d).rg = d.rg := rfl
@[simp] theorem setPhase_mem (id : Nat) (ph : CmdPhase) (d : Dev) : (setPhase id ph d).mem = d.mem := rfl
@[simp] theorem setPhase_wr (id : Nat) (ph : CmdPhase) (d : Dev) : (setPhase id ph d).wr = d.wr := rfl
@[simp] theorem setPhase_tim (id : Nat) (ph : CmdPhase) (d : Dev) : (setPhase id ph d).tim = d.tim := rfl
@[simp] theorem setPhase_grn (id : Nat) (ph : CmdPhase) (d : Dev) : (setPhase id ph d).grn = d.grn := rfl
@[simp] theorem setPhase_mdl (id : Nat) (ph : CmdPhase) (d : Dev) : (setPhase id ph d).mdl = d.mdl := rfl
@[simp] theorem setPhase_pln (id : Nat) (ph : CmdPhase) (d : Dev) : (setPhase id ph d).pln = d.pln := rfl
@[simp] theorem setPhase_thr (id : Nat) (ph : CmdPhase) (d : Dev) : (setPhase id ph d).thr = d.thr := rfl
@[simp] theorem setPhase_plc (id : Nat) (ph : CmdPhase) (d : Dev) : (setPhase id ph d).plc = d.plc := rfl
@[simp] theorem setPhase_shf (id : Nat) (ph : CmdPhase) (d : Dev) : (setPhase id ph d).shf = d.shf := rfl
@[simp] theorem setPhase_lsq (id : Nat) (ph : CmdPhase) (d : Dev) : (setPhase id ph d).lsq = d.lsq := rfl
@[simp] theorem setPhase_ra (id : Nat) (ph : CmdPhase) (d : Dev) : (setPhase id ph d).ra = d.ra := rfl
@[simp] theorem setPhase_lch (id : Nat) (ph : CmdPhase) (d : Dev) : (setPhase id ph d).lch = d.lch := rfl
@[simp] theorem setPhase_sec (id : Nat) (ph : CmdPhase) (d : Dev) : (setPhase id ph d).sec = d.sec := rfl
@[simp] theorem setPhase_trl (id : Nat) (ph : CmdPhase) (d : Dev) : (setPhase id ph d).trl = d.trl := rfl
@[simp] theorem setPhase_cap (id : Nat) (ph : CmdPhase) (d : Dev) : (setPhase id ph d).cap = d.cap := rfl
@[simp] theorem setPhase_clp (id : Nat) (ph : CmdPhase) (d : Dev) : (setPhase id ph d).clp = d.clp := rfl
@[simp] theorem setPhase_cle (id : Nat) (ph : CmdPhase) (d : Dev) : (setPhase id ph d).cle = d.cle := rfl
@[simp] theorem setPhase_adc (id : Nat) (ph : CmdPhase) (d : Dev) : (setPhase id ph d).adc = d.adc := rfl
@[simp] theorem setPhase_iox (id : Nat) (ph : CmdPhase) (d : Dev) : (setPhase id ph d).iox = d.iox := rfl
@[simp] theorem setPhase_mtr (id : Nat) (ph : CmdPhase) (d : Dev) : (setPhase id ph d).mtr = d.mtr := rfl
@[simp] theorem setPhase_can (id : Nat) (ph : CmdPhase) (d : Dev) : (setPhase id ph d).can = d.can := rfl
@[simp] theorem setPhase_pav (id : Nat) (ph : CmdPhase) (d : Dev) : (setPhase id ph d).pav = d.pav := rfl
@[simp] theorem setPhase_rtc (id : Nat) (ph : CmdPhase) (d : Dev) : (setPhase id ph d).rtc = d.rtc := rfl
@[simp] theorem setPhase_hlt (id : Nat) (ph : CmdPhase) (d : Dev) : (setPhase id ph d).hlt = d.hlt := rfl

/-! ### wrB -/

@[simp] theorem wrB_sys (a : Nat) (b : Byte) (d : Dev) : (wrB d a b).sys = d.sys := rfl
@[simp] theorem wrB_cmd (a : Nat) (b : Byte) (d : Dev) : (wrB d a b).cmd = d.cmd := rfl
@[simp] theorem wrB_rg (a : Nat) (b : Byte) (d : Dev) : (wrB d a b).rg = d.rg := rfl
@[simp] theorem wrB_mem (a : Nat) (b : Byte) (d : Dev) : (wrB d a b).mem = d.mem := rfl
@[simp] theorem wrB_tim (a : Nat) (b : Byte) (d : Dev) : (wrB d a b).tim = d.tim := rfl
@[simp] theorem wrB_grn (a : Nat) (b : Byte) (d : Dev) : (wrB d a b).grn = d.grn := rfl
@[simp] theorem wrB_mdl (a : Nat) (b : Byte) (d : Dev) : (wrB d a b).mdl = d.mdl := rfl
@[simp] theorem wrB_pln (a : Nat) (b : Byte) (d : Dev) : (wrB d a b).pln = d.pln := rfl
@[simp] theorem wrB_thr (a : Nat) (b : Byte) (d : Dev) : (wrB d a b).thr = d.thr := rfl
@[simp] theorem wrB_plc (a : Nat) (b : Byte) (d : Dev) : (wrB d a b).plc = d.plc := rfl
@[simp] theorem wrB_shf (a : Nat) (b : Byte) (d : Dev) : (wrB d a b).shf = d.shf := rfl
@[simp] theorem wrB_lsq (a : Nat) (b : Byte) (d : Dev) : (wrB d a b).lsq = d.lsq := rfl
@[simp] theorem wrB_ra (a : Nat) (b : Byte) (d : Dev) : (wrB d a b).ra = d.ra := rfl
@[simp] theorem wrB_lch (a : Nat) (b : Byte) (d : Dev) : (wrB d a b).lch = d.lch := rfl
@[simp] theorem wrB_sec (a : Nat) (b : Byte) (d : Dev) : (wrB d a b).sec = d.sec := rfl
@[simp] theorem wrB_trl (a : Nat) (b : Byte) (d : Dev) : (wrB d a b).trl = d.trl := rfl
@[simp] theorem wrB_cap (a : Nat) (b : Byte) (d : Dev) : (wrB d a b).cap = d.cap := rfl
@[simp] theorem wrB_clp (a : Nat) (b : Byte) (d : Dev) : (wrB d a b).clp = d.clp := rfl
@[simp] theorem wrB_cle (a : Nat) (b : Byte) (d : Dev) : (wrB d a b).cle = d.cle := rfl
@[simp] theorem wrB_adc (a : Nat) (b : Byte) (d : Dev) : (wrB d a b).adc = d.adc := rfl
@[simp] theorem wrB_iox (a : Nat) (b : Byte) (d : Dev) : (wrB d a b).iox = d.iox := rfl
@[simp] theorem wrB_mtr (a : Nat) (b : Byte) (d : Dev) : (wrB d a b).mtr = d.mtr := rfl
@[simp] theorem wrB_can (a : Nat) (b : Byte) (d : Dev) : (wrB d a b).can = d.can := rfl
@[simp] theorem wrB_pav (a : Nat) (b : Byte) (d : Dev) : (wrB d a b).pav = d.pav := rfl
@[simp] theorem wrB_rtc (a : Nat) (b : Byte) (d : Dev) : (wrB d a b).rtc = d.rtc := rfl
@[simp] theorem wrB_hlt (a : Nat) (b : Byte) (d : Dev) : (wrB d a b).hlt = d.hlt := rfl

/-! ### passTicks -/

@[simp] theorem passTicks_sys (n : Nat) (d : Dev) : (passTicks n d).sys = d.sys := rfl
@[simp] theorem passTicks_cmd (n : Nat) (d : Dev) : (passTicks n d).cmd = d.cmd := rfl
@[simp] theorem passTicks_rg (n : Nat) (d : Dev) : (passTicks n d).rg = d.rg := rfl
@[simp] theorem passTicks_mem (n : Nat) (d : Dev) : (passTicks n d).mem = d.mem := rfl
@[simp] theorem passTicks_wr (n : Nat) (d : Dev) : (passTicks n d).wr = d.wr := rfl
@[simp] theorem passTicks_grn (n : Nat) (d : Dev) : (passTicks n d).grn = d.grn := rfl
@[simp] theorem passTicks_mdl (n : Nat) (d : Dev) : (passTicks n d).mdl = d.mdl := rfl
@[simp] theorem passTicks_pln (n : Nat) (d : Dev) : (passTicks n d).pln = d.pln := rfl
@[simp] theorem passTicks_thr (n : Nat) (d : Dev) : (passTicks n d).thr = d.thr := rfl
@[simp] theorem passTicks_plc (n : Nat) (d : Dev) : (passTicks n d).plc = d.plc := rfl
@[simp] theorem passTicks_shf (n : Nat) (d : Dev) : (passTicks n d).shf = d.shf := rfl
@[simp] theorem passTicks_lsq (n : Nat) (d : Dev) : (passTicks n d).lsq = d.lsq := rfl
@[simp] theorem passTicks_ra (n : Nat) (d : Dev) : (passTicks n d).ra = d.ra := rfl
@[simp] theorem passTicks_lch (n : Nat) (d : Dev) : (passTicks n d).lch = d.lch := rfl
@[simp] theorem passTicks_sec (n : Nat) (d : Dev) : (passTicks n d).sec = d.sec := rfl
@[simp] theorem passTicks_trl (n : Nat) (d : Dev) : (passTicks n d).trl = d.trl := rfl
@[simp] theorem passTicks_cap (n : Nat) (d : Dev) : (passTicks n d).cap = d.cap := rfl
@[simp] theorem passTicks_clp_loops (n : Nat) (d : Dev) : (passTicks n d).clp.loops = d.clp.loops := rfl
@[simp] theorem passTicks_clp_map (n : Nat) (d : Dev) : (passTicks n d).clp.map = d.clp.map := rfl
@[simp] theorem passTicks_clp_pubs (n : Nat) (d : Dev) : (passTicks n d).clp.pubs = d.clp.pubs := rfl
@[simp] theorem passTicks_clp_traces (n : Nat) (d : Dev) : (passTicks n d).clp.traces = d.clp.traces := rfl
@[simp] theorem passTicks_cle (n : Nat) (d : Dev) : (passTicks n d).cle = d.cle := rfl
@[simp] theorem passTicks_adc (n : Nat) (d : Dev) : (passTicks n d).adc = d.adc := rfl
@[simp] theorem passTicks_iox (n : Nat) (d : Dev) : (passTicks n d).iox = d.iox := rfl
@[simp] theorem passTicks_mtr (n : Nat) (d : Dev) : (passTicks n d).mtr = d.mtr := rfl
@[simp] theorem passTicks_can (n : Nat) (d : Dev) : (passTicks n d).can = d.can := rfl
@[simp] theorem passTicks_pav (n : Nat) (d : Dev) : (passTicks n d).pav = d.pav := rfl
@[simp] theorem passTicks_rtc (n : Nat) (d : Dev) : (passTicks n d).rtc = d.rtc := rfl
@[simp] theorem passTicks_hlt (n : Nat) (d : Dev) : (passTicks n d).hlt = d.hlt := rfl

/-! ### advanceTicks -/

@[simp] theorem advanceTicks_sys (n : Nat) (d : Dev) : (advanceTicks n d).sys = d.sys := rfl
@[simp] theorem advanceTicks_cmd (n : Nat) (d : Dev) : (advanceTicks n d).cmd = d.cmd := rfl
@[simp] theorem advanceTicks_rg (n : Nat) (d : Dev) : (advanceTicks n d).rg = d.rg := rfl
@[simp] theorem advanceTicks_mem (n : Nat) (d : Dev) : (advanceTicks n d).mem = d.mem := rfl
@[simp] theorem advanceTicks_wr (n : Nat) (d : Dev) : (advanceTicks n d).wr = d.wr := rfl
@[simp] theorem advanceTicks_grn (n : Nat) (d : Dev) : (advanceTicks n d).grn = d.grn := rfl
@[simp] theorem advanceTicks_mdl (n : Nat) (d : Dev) : (advanceTicks n d).mdl = d.mdl := rfl
@[simp] theorem advanceTicks_pln (n : Nat) (d : Dev) : (advanceTicks n d).pln = d.pln := rfl
@[simp] theorem advanceTicks_thr (n : Nat) (d : Dev) : (advanceTicks n d).thr = d.thr := rfl
@[simp] theorem advanceTicks_plc (n : Nat) (d : Dev) : (advanceTicks n d).plc = d.plc := rfl
@[simp] theorem advanceTicks_shf (n : Nat) (d : Dev) : (advanceTicks n d).shf = d.shf := rfl
@[simp] theorem advanceTicks_lsq (n : Nat) (d : Dev) : (advanceTicks n d).lsq = d.lsq := rfl
@[simp] theorem advanceTicks_ra (n : Nat) (d : Dev) : (advanceTicks n d).ra = d.ra := rfl
@[simp] theorem advanceTicks_lch (n : Nat) (d : Dev) : (advanceTicks n d).lch = d.lch := rfl
@[simp] theorem advanceTicks_sec (n : Nat) (d : Dev) : (advanceTicks n d).sec = d.sec := rfl
@[simp] theorem advanceTicks_trl (n : Nat) (d : Dev) : (advanceTicks n d).trl = d.trl := rfl
@[simp] theorem advanceTicks_cap (n : Nat) (d : Dev) : (advanceTicks n d).cap = d.cap := rfl
@[simp] theorem advanceTicks_clp_loops (n : Nat) (d : Dev) : (advanceTicks n d).clp.loops = d.clp.loops := rfl
@[simp] theorem advanceTicks_clp_map (n : Nat) (d : Dev) : (advanceTicks n d).clp.map = d.clp.map := rfl
@[simp] theorem advanceTicks_clp_pubs (n : Nat) (d : Dev) : (advanceTicks n d).clp.pubs = d.clp.pubs := rfl
@[simp] theorem advanceTicks_clp_traces (n : Nat) (d : Dev) : (advanceTicks n d).clp.traces = d.clp.traces := rfl
@[simp] theorem advanceTicks_cle (n : Nat) (d : Dev) : (advanceTicks n d).cle = d.cle := rfl
@[simp] theorem advanceTicks_adc (n : Nat) (d : Dev) : (advanceTicks n d).adc = d.adc := rfl
@[simp] theorem advanceTicks_iox (n : Nat) (d : Dev) : (advanceTicks n d).iox = d.iox := rfl
@[simp] theorem advanceTicks_mtr (n : Nat) (d : Dev) : (advanceTicks n d).mtr = d.mtr := rfl
@[simp] theorem advanceTicks_can (n : Nat) (d : Dev) : (advanceTicks n d).can = d.can := rfl
@[simp] theorem advanceTicks_pav (n : Nat) (d : Dev) : (advanceTicks n d).pav = d.pav := rfl
@[simp] theorem advanceTicks_rtc (n : Nat) (d : Dev) : (advanceTicks n d).rtc = d.rtc := rfl
@[simp] theorem advanceTicks_hlt (n : Nat) (d : Dev) : (advanceTicks n d).hlt = d.hlt := rfl

/-! ### setRun -/

@[simp] theorem setRun_sys (r : Run) (d : Dev) : (setRun r d).sys = d.sys := rfl
@[simp] theorem setRun_cmd (r : Run) (d : Dev) : (setRun r d).cmd = d.cmd := rfl
@[simp] theorem setRun_rg (r : Run) (d : Dev) : (setRun r d).rg = d.rg := rfl
@[simp] theorem setRun_mem (r : Run) (d : Dev) : (setRun r d).mem = d.mem := rfl
@[simp] theorem setRun_wr (r : Run) (d : Dev) : (setRun r d).wr = d.wr := rfl
@[simp] theorem setRun_tim (r : Run) (d : Dev) : (setRun r d).tim = d.tim := rfl
@[simp] theorem setRun_grn (r : Run) (d : Dev) : (setRun r d).grn = d.grn := rfl
@[simp] theorem setRun_mdl (r : Run) (d : Dev) : (setRun r d).mdl = d.mdl := rfl
@[simp] theorem setRun_thr (r : Run) (d : Dev) : (setRun r d).thr = d.thr := rfl
@[simp] theorem setRun_plc (r : Run) (d : Dev) : (setRun r d).plc = d.plc := rfl
@[simp] theorem setRun_shf (r : Run) (d : Dev) : (setRun r d).shf = d.shf := rfl
@[simp] theorem setRun_lsq (r : Run) (d : Dev) : (setRun r d).lsq = d.lsq := rfl
@[simp] theorem setRun_ra (r : Run) (d : Dev) : (setRun r d).ra = d.ra := rfl
@[simp] theorem setRun_lch (r : Run) (d : Dev) : (setRun r d).lch = d.lch := rfl
@[simp] theorem setRun_sec (r : Run) (d : Dev) : (setRun r d).sec = d.sec := rfl
@[simp] theorem setRun_trl (r : Run) (d : Dev) : (setRun r d).trl = d.trl := rfl
@[simp] theorem setRun_cap (r : Run) (d : Dev) : (setRun r d).cap = d.cap := rfl
@[simp] theorem setRun_clp (r : Run) (d : Dev) : (setRun r d).clp = d.clp := rfl
@[simp] theorem setRun_cle (r : Run) (d : Dev) : (setRun r d).cle = d.cle := rfl
@[simp] theorem setRun_adc (r : Run) (d : Dev) : (setRun r d).adc = d.adc := rfl
@[simp] theorem setRun_iox (r : Run) (d : Dev) : (setRun r d).iox = d.iox := rfl
@[simp] theorem setRun_mtr (r : Run) (d : Dev) : (setRun r d).mtr = d.mtr := rfl
@[simp] theorem setRun_can (r : Run) (d : Dev) : (setRun r d).can = d.can := rfl
@[simp] theorem setRun_pav (r : Run) (d : Dev) : (setRun r d).pav = d.pav := rfl
@[simp] theorem setRun_rtc (r : Run) (d : Dev) : (setRun r d).rtc = d.rtc := rfl
@[simp] theorem setRun_hlt (r : Run) (d : Dev) : (setRun r d).hlt = d.hlt := rfl

/-! ### setSheaf -/

@[simp] theorem setSheaf_sys (r : SheafRun) (d : Dev) : (setSheaf r d).sys = d.sys := rfl
@[simp] theorem setSheaf_cmd (r : SheafRun) (d : Dev) : (setSheaf r d).cmd = d.cmd := rfl
@[simp] theorem setSheaf_rg (r : SheafRun) (d : Dev) : (setSheaf r d).rg = d.rg := rfl
@[simp] theorem setSheaf_mem (r : SheafRun) (d : Dev) : (setSheaf r d).mem = d.mem := rfl
@[simp] theorem setSheaf_wr (r : SheafRun) (d : Dev) : (setSheaf r d).wr = d.wr := rfl
@[simp] theorem setSheaf_tim (r : SheafRun) (d : Dev) : (setSheaf r d).tim = d.tim := rfl
@[simp] theorem setSheaf_grn (r : SheafRun) (d : Dev) : (setSheaf r d).grn = d.grn := rfl
@[simp] theorem setSheaf_mdl (r : SheafRun) (d : Dev) : (setSheaf r d).mdl = d.mdl := rfl
@[simp] theorem setSheaf_pln (r : SheafRun) (d : Dev) : (setSheaf r d).pln = d.pln := rfl
@[simp] theorem setSheaf_thr (r : SheafRun) (d : Dev) : (setSheaf r d).thr = d.thr := rfl
@[simp] theorem setSheaf_plc (r : SheafRun) (d : Dev) : (setSheaf r d).plc = d.plc := rfl
@[simp] theorem setSheaf_lsq (r : SheafRun) (d : Dev) : (setSheaf r d).lsq = d.lsq := rfl
@[simp] theorem setSheaf_ra (r : SheafRun) (d : Dev) : (setSheaf r d).ra = d.ra := rfl
@[simp] theorem setSheaf_lch (r : SheafRun) (d : Dev) : (setSheaf r d).lch = d.lch := rfl
@[simp] theorem setSheaf_sec (r : SheafRun) (d : Dev) : (setSheaf r d).sec = d.sec := rfl
@[simp] theorem setSheaf_trl (r : SheafRun) (d : Dev) : (setSheaf r d).trl = d.trl := rfl
@[simp] theorem setSheaf_cap (r : SheafRun) (d : Dev) : (setSheaf r d).cap = d.cap := rfl
@[simp] theorem setSheaf_clp (r : SheafRun) (d : Dev) : (setSheaf r d).clp = d.clp := rfl
@[simp] theorem setSheaf_cle (r : SheafRun) (d : Dev) : (setSheaf r d).cle = d.cle := rfl
@[simp] theorem setSheaf_adc (r : SheafRun) (d : Dev) : (setSheaf r d).adc = d.adc := rfl
@[simp] theorem setSheaf_iox (r : SheafRun) (d : Dev) : (setSheaf r d).iox = d.iox := rfl
@[simp] theorem setSheaf_mtr (r : SheafRun) (d : Dev) : (setSheaf r d).mtr = d.mtr := rfl
@[simp] theorem setSheaf_can (r : SheafRun) (d : Dev) : (setSheaf r d).can = d.can := rfl
@[simp] theorem setSheaf_pav (r : SheafRun) (d : Dev) : (setSheaf r d).pav = d.pav := rfl
@[simp] theorem setSheaf_rtc (r : SheafRun) (d : Dev) : (setSheaf r d).rtc = d.rtc := rfl
@[simp] theorem setSheaf_hlt (r : SheafRun) (d : Dev) : (setSheaf r d).hlt = d.hlt := rfl

/-! ### setSlot -/

@[simp] theorem setSlot_sys (n : Nat) (x : Slot) (d : Dev) : (setSlot n x d).sys = d.sys := rfl
@[simp] theorem setSlot_cmd (n : Nat) (x : Slot) (d : Dev) : (setSlot n x d).cmd = d.cmd := rfl
@[simp] theorem setSlot_rg (n : Nat) (x : Slot) (d : Dev) : (setSlot n x d).rg = d.rg := rfl
@[simp] theorem setSlot_mem (n : Nat) (x : Slot) (d : Dev) : (setSlot n x d).mem = d.mem := rfl
@[simp] theorem setSlot_wr (n : Nat) (x : Slot) (d : Dev) : (setSlot n x d).wr = d.wr := rfl
@[simp] theorem setSlot_tim (n : Nat) (x : Slot) (d : Dev) : (setSlot n x d).tim = d.tim := rfl
@[simp] theorem setSlot_grn (n : Nat) (x : Slot) (d : Dev) : (setSlot n x d).grn = d.grn := rfl
@[simp] theorem setSlot_mdl (n : Nat) (x : Slot) (d : Dev) : (setSlot n x d).mdl = d.mdl := rfl
@[simp] theorem setSlot_pln (n : Nat) (x : Slot) (d : Dev) : (setSlot n x d).pln = d.pln := rfl
@[simp] theorem setSlot_thr (n : Nat) (x : Slot) (d : Dev) : (setSlot n x d).thr = d.thr := rfl
@[simp] theorem setSlot_plc (n : Nat) (x : Slot) (d : Dev) : (setSlot n x d).plc = d.plc := rfl
@[simp] theorem setSlot_shf (n : Nat) (x : Slot) (d : Dev) : (setSlot n x d).shf = d.shf := rfl
@[simp] theorem setSlot_lsq (n : Nat) (x : Slot) (d : Dev) : (setSlot n x d).lsq = d.lsq := rfl
@[simp] theorem setSlot_ra (n : Nat) (x : Slot) (d : Dev) : (setSlot n x d).ra = d.ra := rfl
@[simp] theorem setSlot_lch (n : Nat) (x : Slot) (d : Dev) : (setSlot n x d).lch = d.lch := rfl
@[simp] theorem setSlot_trl (n : Nat) (x : Slot) (d : Dev) : (setSlot n x d).trl = d.trl := rfl
@[simp] theorem setSlot_cap (n : Nat) (x : Slot) (d : Dev) : (setSlot n x d).cap = d.cap := rfl
@[simp] theorem setSlot_clp (n : Nat) (x : Slot) (d : Dev) : (setSlot n x d).clp = d.clp := rfl
@[simp] theorem setSlot_cle (n : Nat) (x : Slot) (d : Dev) : (setSlot n x d).cle = d.cle := rfl
@[simp] theorem setSlot_adc (n : Nat) (x : Slot) (d : Dev) : (setSlot n x d).adc = d.adc := rfl
@[simp] theorem setSlot_iox (n : Nat) (x : Slot) (d : Dev) : (setSlot n x d).iox = d.iox := rfl
@[simp] theorem setSlot_mtr (n : Nat) (x : Slot) (d : Dev) : (setSlot n x d).mtr = d.mtr := rfl
@[simp] theorem setSlot_can (n : Nat) (x : Slot) (d : Dev) : (setSlot n x d).can = d.can := rfl
@[simp] theorem setSlot_pav (n : Nat) (x : Slot) (d : Dev) : (setSlot n x d).pav = d.pav := rfl
@[simp] theorem setSlot_rtc (n : Nat) (x : Slot) (d : Dev) : (setSlot n x d).rtc = d.rtc := rfl
@[simp] theorem setSlot_hlt (n : Nat) (x : Slot) (d : Dev) : (setSlot n x d).hlt = d.hlt := rfl

/-! ### setPort -/

@[simp] theorem setPort_sys (p : Nat) (v : PtpPort) (d : Dev) : (setPort p v d).sys = d.sys := rfl
@[simp] theorem setPort_cmd (p : Nat) (v : PtpPort) (d : Dev) : (setPort p v d).cmd = d.cmd := rfl
@[simp] theorem setPort_rg (p : Nat) (v : PtpPort) (d : Dev) : (setPort p v d).rg = d.rg := rfl
@[simp] theorem setPort_mem (p : Nat) (v : PtpPort) (d : Dev) : (setPort p v d).mem = d.mem := rfl
@[simp] theorem setPort_wr (p : Nat) (v : PtpPort) (d : Dev) : (setPort p v d).wr = d.wr := rfl
@[simp] theorem setPort_grn (p : Nat) (v : PtpPort) (d : Dev) : (setPort p v d).grn = d.grn := rfl
@[simp] theorem setPort_mdl (p : Nat) (v : PtpPort) (d : Dev) : (setPort p v d).mdl = d.mdl := rfl
@[simp] theorem setPort_pln (p : Nat) (v : PtpPort) (d : Dev) : (setPort p v d).pln = d.pln := rfl
@[simp] theorem setPort_thr (p : Nat) (v : PtpPort) (d : Dev) : (setPort p v d).thr = d.thr := rfl
@[simp] theorem setPort_plc (p : Nat) (v : PtpPort) (d : Dev) : (setPort p v d).plc = d.plc := rfl
@[simp] theorem setPort_shf (p : Nat) (v : PtpPort) (d : Dev) : (setPort p v d).shf = d.shf := rfl
@[simp] theorem setPort_lsq (p : Nat) (v : PtpPort) (d : Dev) : (setPort p v d).lsq = d.lsq := rfl
@[simp] theorem setPort_ra (p : Nat) (v : PtpPort) (d : Dev) : (setPort p v d).ra = d.ra := rfl
@[simp] theorem setPort_lch (p : Nat) (v : PtpPort) (d : Dev) : (setPort p v d).lch = d.lch := rfl
@[simp] theorem setPort_sec (p : Nat) (v : PtpPort) (d : Dev) : (setPort p v d).sec = d.sec := rfl
@[simp] theorem setPort_trl (p : Nat) (v : PtpPort) (d : Dev) : (setPort p v d).trl = d.trl := rfl
@[simp] theorem setPort_cap (p : Nat) (v : PtpPort) (d : Dev) : (setPort p v d).cap = d.cap := rfl
@[simp] theorem setPort_clp (p : Nat) (v : PtpPort) (d : Dev) : (setPort p v d).clp = d.clp := rfl
@[simp] theorem setPort_cle (p : Nat) (v : PtpPort) (d : Dev) : (setPort p v d).cle = d.cle := rfl
@[simp] theorem setPort_adc (p : Nat) (v : PtpPort) (d : Dev) : (setPort p v d).adc = d.adc := rfl
@[simp] theorem setPort_iox (p : Nat) (v : PtpPort) (d : Dev) : (setPort p v d).iox = d.iox := rfl
@[simp] theorem setPort_mtr (p : Nat) (v : PtpPort) (d : Dev) : (setPort p v d).mtr = d.mtr := rfl
@[simp] theorem setPort_can (p : Nat) (v : PtpPort) (d : Dev) : (setPort p v d).can = d.can := rfl
@[simp] theorem setPort_pav (p : Nat) (v : PtpPort) (d : Dev) : (setPort p v d).pav = d.pav := rfl
@[simp] theorem setPort_rtc (p : Nat) (v : PtpPort) (d : Dev) : (setPort p v d).rtc = d.rtc := rfl
@[simp] theorem setPort_hlt (p : Nat) (v : PtpPort) (d : Dev) : (setPort p v d).hlt = d.hlt := rfl

/-! ### setDom -/

@[simp] theorem setDom_sys (x : Nat) (v : PtpDom) (d : Dev) : (setDom x v d).sys = d.sys := rfl
@[simp] theorem setDom_cmd (x : Nat) (v : PtpDom) (d : Dev) : (setDom x v d).cmd = d.cmd := rfl
@[simp] theorem setDom_rg (x : Nat) (v : PtpDom) (d : Dev) : (setDom x v d).rg = d.rg := rfl
@[simp] theorem setDom_mem (x : Nat) (v : PtpDom) (d : Dev) : (setDom x v d).mem = d.mem := rfl
@[simp] theorem setDom_wr (x : Nat) (v : PtpDom) (d : Dev) : (setDom x v d).wr = d.wr := rfl
@[simp] theorem setDom_grn (x : Nat) (v : PtpDom) (d : Dev) : (setDom x v d).grn = d.grn := rfl
@[simp] theorem setDom_mdl (x : Nat) (v : PtpDom) (d : Dev) : (setDom x v d).mdl = d.mdl := rfl
@[simp] theorem setDom_pln (x : Nat) (v : PtpDom) (d : Dev) : (setDom x v d).pln = d.pln := rfl
@[simp] theorem setDom_thr (x : Nat) (v : PtpDom) (d : Dev) : (setDom x v d).thr = d.thr := rfl
@[simp] theorem setDom_plc (x : Nat) (v : PtpDom) (d : Dev) : (setDom x v d).plc = d.plc := rfl
@[simp] theorem setDom_shf (x : Nat) (v : PtpDom) (d : Dev) : (setDom x v d).shf = d.shf := rfl
@[simp] theorem setDom_lsq (x : Nat) (v : PtpDom) (d : Dev) : (setDom x v d).lsq = d.lsq := rfl
@[simp] theorem setDom_ra (x : Nat) (v : PtpDom) (d : Dev) : (setDom x v d).ra = d.ra := rfl
@[simp] theorem setDom_lch (x : Nat) (v : PtpDom) (d : Dev) : (setDom x v d).lch = d.lch := rfl
@[simp] theorem setDom_sec (x : Nat) (v : PtpDom) (d : Dev) : (setDom x v d).sec = d.sec := rfl
@[simp] theorem setDom_trl (x : Nat) (v : PtpDom) (d : Dev) : (setDom x v d).trl = d.trl := rfl
@[simp] theorem setDom_cap (x : Nat) (v : PtpDom) (d : Dev) : (setDom x v d).cap = d.cap := rfl
@[simp] theorem setDom_clp (x : Nat) (v : PtpDom) (d : Dev) : (setDom x v d).clp = d.clp := rfl
@[simp] theorem setDom_cle (x : Nat) (v : PtpDom) (d : Dev) : (setDom x v d).cle = d.cle := rfl
@[simp] theorem setDom_adc (x : Nat) (v : PtpDom) (d : Dev) : (setDom x v d).adc = d.adc := rfl
@[simp] theorem setDom_iox (x : Nat) (v : PtpDom) (d : Dev) : (setDom x v d).iox = d.iox := rfl
@[simp] theorem setDom_mtr (x : Nat) (v : PtpDom) (d : Dev) : (setDom x v d).mtr = d.mtr := rfl
@[simp] theorem setDom_can (x : Nat) (v : PtpDom) (d : Dev) : (setDom x v d).can = d.can := rfl
@[simp] theorem setDom_pav (x : Nat) (v : PtpDom) (d : Dev) : (setDom x v d).pav = d.pav := rfl
@[simp] theorem setDom_rtc (x : Nat) (v : PtpDom) (d : Dev) : (setDom x v d).rtc = d.rtc := rfl
@[simp] theorem setDom_hlt (x : Nat) (v : PtpDom) (d : Dev) : (setDom x v d).hlt = d.hlt := rfl

/-! ### setPeer -/

@[simp] theorem setPeer_sys (a : Nat) (p : Peer) (d : Dev) : (setPeer a p d).sys = d.sys := rfl
@[simp] theorem setPeer_cmd (a : Nat) (p : Peer) (d : Dev) : (setPeer a p d).cmd = d.cmd := rfl
@[simp] theorem setPeer_rg (a : Nat) (p : Peer) (d : Dev) : (setPeer a p d).rg = d.rg := rfl
@[simp] theorem setPeer_mem (a : Nat) (p : Peer) (d : Dev) : (setPeer a p d).mem = d.mem := rfl
@[simp] theorem setPeer_wr (a : Nat) (p : Peer) (d : Dev) : (setPeer a p d).wr = d.wr := rfl
@[simp] theorem setPeer_tim (a : Nat) (p : Peer) (d : Dev) : (setPeer a p d).tim = d.tim := rfl
@[simp] theorem setPeer_grn (a : Nat) (p : Peer) (d : Dev) : (setPeer a p d).grn = d.grn := rfl
@[simp] theorem setPeer_mdl (a : Nat) (p : Peer) (d : Dev) : (setPeer a p d).mdl = d.mdl := rfl
@[simp] theorem setPeer_pln (a : Nat) (p : Peer) (d : Dev) : (setPeer a p d).pln = d.pln := rfl
@[simp] theorem setPeer_thr (a : Nat) (p : Peer) (d : Dev) : (setPeer a p d).thr = d.thr := rfl
@[simp] theorem setPeer_plc (a : Nat) (p : Peer) (d : Dev) : (setPeer a p d).plc = d.plc := rfl
@[simp] theorem setPeer_shf (a : Nat) (p : Peer) (d : Dev) : (setPeer a p d).shf = d.shf := rfl
@[simp] theorem setPeer_lsq (a : Nat) (p : Peer) (d : Dev) : (setPeer a p d).lsq = d.lsq := rfl
@[simp] theorem setPeer_ra (a : Nat) (p : Peer) (d : Dev) : (setPeer a p d).ra = d.ra := rfl
@[simp] theorem setPeer_lch (a : Nat) (p : Peer) (d : Dev) : (setPeer a p d).lch = d.lch := rfl
@[simp] theorem setPeer_sec (a : Nat) (p : Peer) (d : Dev) : (setPeer a p d).sec = d.sec := rfl
@[simp] theorem setPeer_cap (a : Nat) (p : Peer) (d : Dev) : (setPeer a p d).cap = d.cap := rfl
@[simp] theorem setPeer_clp (a : Nat) (p : Peer) (d : Dev) : (setPeer a p d).clp = d.clp := rfl
@[simp] theorem setPeer_cle (a : Nat) (p : Peer) (d : Dev) : (setPeer a p d).cle = d.cle := rfl
@[simp] theorem setPeer_adc (a : Nat) (p : Peer) (d : Dev) : (setPeer a p d).adc = d.adc := rfl
@[simp] theorem setPeer_iox (a : Nat) (p : Peer) (d : Dev) : (setPeer a p d).iox = d.iox := rfl
@[simp] theorem setPeer_mtr (a : Nat) (p : Peer) (d : Dev) : (setPeer a p d).mtr = d.mtr := rfl
@[simp] theorem setPeer_can (a : Nat) (p : Peer) (d : Dev) : (setPeer a p d).can = d.can := rfl
@[simp] theorem setPeer_pav (a : Nat) (p : Peer) (d : Dev) : (setPeer a p d).pav = d.pav := rfl
@[simp] theorem setPeer_rtc (a : Nat) (p : Peer) (d : Dev) : (setPeer a p d).rtc = d.rtc := rfl
@[simp] theorem setPeer_hlt (a : Nat) (p : Peer) (d : Dev) : (setPeer a p d).hlt = d.hlt := rfl

/-! ### setCan -/

@[simp] theorem setCan_sys (n : Nat) (x : CanCtl) (d : Dev) : (setCan n x d).sys = d.sys := rfl
@[simp] theorem setCan_cmd (n : Nat) (x : CanCtl) (d : Dev) : (setCan n x d).cmd = d.cmd := rfl
@[simp] theorem setCan_rg (n : Nat) (x : CanCtl) (d : Dev) : (setCan n x d).rg = d.rg := rfl
@[simp] theorem setCan_mem (n : Nat) (x : CanCtl) (d : Dev) : (setCan n x d).mem = d.mem := rfl
@[simp] theorem setCan_wr (n : Nat) (x : CanCtl) (d : Dev) : (setCan n x d).wr = d.wr := rfl
@[simp] theorem setCan_tim (n : Nat) (x : CanCtl) (d : Dev) : (setCan n x d).tim = d.tim := rfl
@[simp] theorem setCan_grn (n : Nat) (x : CanCtl) (d : Dev) : (setCan n x d).grn = d.grn := rfl
@[simp] theorem setCan_mdl (n : Nat) (x : CanCtl) (d : Dev) : (setCan n x d).mdl = d.mdl := rfl
@[simp] theorem setCan_pln (n : Nat) (x : CanCtl) (d : Dev) : (setCan n x d).pln = d.pln := rfl
@[simp] theorem setCan_thr (n : Nat) (x : CanCtl) (d : Dev) : (setCan n x d).thr = d.thr := rfl
@[simp] theorem setCan_plc (n : Nat) (x : CanCtl) (d : Dev) : (setCan n x d).plc = d.plc := rfl
@[simp] theorem setCan_shf (n : Nat) (x : CanCtl) (d : Dev) : (setCan n x d).shf = d.shf := rfl
@[simp] theorem setCan_lsq (n : Nat) (x : CanCtl) (d : Dev) : (setCan n x d).lsq = d.lsq := rfl
@[simp] theorem setCan_ra (n : Nat) (x : CanCtl) (d : Dev) : (setCan n x d).ra = d.ra := rfl
@[simp] theorem setCan_lch (n : Nat) (x : CanCtl) (d : Dev) : (setCan n x d).lch = d.lch := rfl
@[simp] theorem setCan_sec (n : Nat) (x : CanCtl) (d : Dev) : (setCan n x d).sec = d.sec := rfl
@[simp] theorem setCan_trl (n : Nat) (x : CanCtl) (d : Dev) : (setCan n x d).trl = d.trl := rfl
@[simp] theorem setCan_cap (n : Nat) (x : CanCtl) (d : Dev) : (setCan n x d).cap = d.cap := rfl
@[simp] theorem setCan_clp (n : Nat) (x : CanCtl) (d : Dev) : (setCan n x d).clp = d.clp := rfl
@[simp] theorem setCan_cle (n : Nat) (x : CanCtl) (d : Dev) : (setCan n x d).cle = d.cle := rfl
@[simp] theorem setCan_adc (n : Nat) (x : CanCtl) (d : Dev) : (setCan n x d).adc = d.adc := rfl
@[simp] theorem setCan_iox (n : Nat) (x : CanCtl) (d : Dev) : (setCan n x d).iox = d.iox := rfl
@[simp] theorem setCan_mtr (n : Nat) (x : CanCtl) (d : Dev) : (setCan n x d).mtr = d.mtr := rfl
@[simp] theorem setCan_pav (n : Nat) (x : CanCtl) (d : Dev) : (setCan n x d).pav = d.pav := rfl
@[simp] theorem setCan_rtc (n : Nat) (x : CanCtl) (d : Dev) : (setCan n x d).rtc = d.rtc := rfl
@[simp] theorem setCan_hlt (n : Nat) (x : CanCtl) (d : Dev) : (setCan n x d).hlt = d.hlt := rfl

/-! ### noteAccepted -/

@[simp] theorem noteAccepted_sys (s : OpSpec) (p : Pkt) (d : Dev) : (noteAccepted s p d).sys = d.sys := rfl
@[simp] theorem noteAccepted_cmd (s : OpSpec) (p : Pkt) (d : Dev) : (noteAccepted s p d).cmd = d.cmd := rfl
@[simp] theorem noteAccepted_rg (s : OpSpec) (p : Pkt) (d : Dev) : (noteAccepted s p d).rg = d.rg := rfl
@[simp] theorem noteAccepted_mem (s : OpSpec) (p : Pkt) (d : Dev) : (noteAccepted s p d).mem = d.mem := rfl
@[simp] theorem noteAccepted_wr (s : OpSpec) (p : Pkt) (d : Dev) : (noteAccepted s p d).wr = d.wr := rfl
@[simp] theorem noteAccepted_tim (s : OpSpec) (p : Pkt) (d : Dev) : (noteAccepted s p d).tim = d.tim := rfl
@[simp] theorem noteAccepted_grn (s : OpSpec) (p : Pkt) (d : Dev) : (noteAccepted s p d).grn = d.grn := rfl
@[simp] theorem noteAccepted_mdl (s : OpSpec) (p : Pkt) (d : Dev) : (noteAccepted s p d).mdl = d.mdl := rfl
@[simp] theorem noteAccepted_pln (s : OpSpec) (p : Pkt) (d : Dev) : (noteAccepted s p d).pln = d.pln := rfl
@[simp] theorem noteAccepted_thr (s : OpSpec) (p : Pkt) (d : Dev) : (noteAccepted s p d).thr = d.thr := rfl
@[simp] theorem noteAccepted_plc (s : OpSpec) (p : Pkt) (d : Dev) : (noteAccepted s p d).plc = d.plc := rfl
@[simp] theorem noteAccepted_shf (s : OpSpec) (p : Pkt) (d : Dev) : (noteAccepted s p d).shf = d.shf := rfl
@[simp] theorem noteAccepted_lsq (s : OpSpec) (p : Pkt) (d : Dev) : (noteAccepted s p d).lsq = d.lsq := rfl
@[simp] theorem noteAccepted_ra (s : OpSpec) (p : Pkt) (d : Dev) : (noteAccepted s p d).ra = d.ra := rfl
@[simp] theorem noteAccepted_lch (s : OpSpec) (p : Pkt) (d : Dev) : (noteAccepted s p d).lch = d.lch := rfl
@[simp] theorem noteAccepted_sec (s : OpSpec) (p : Pkt) (d : Dev) : (noteAccepted s p d).sec = d.sec := rfl
@[simp] theorem noteAccepted_cap (s : OpSpec) (p : Pkt) (d : Dev) : (noteAccepted s p d).cap = d.cap := rfl
@[simp] theorem noteAccepted_clp (s : OpSpec) (p : Pkt) (d : Dev) : (noteAccepted s p d).clp = d.clp := rfl
@[simp] theorem noteAccepted_cle (s : OpSpec) (p : Pkt) (d : Dev) : (noteAccepted s p d).cle = d.cle := rfl
@[simp] theorem noteAccepted_adc (s : OpSpec) (p : Pkt) (d : Dev) : (noteAccepted s p d).adc = d.adc := rfl
@[simp] theorem noteAccepted_iox (s : OpSpec) (p : Pkt) (d : Dev) : (noteAccepted s p d).iox = d.iox := rfl
@[simp] theorem noteAccepted_mtr (s : OpSpec) (p : Pkt) (d : Dev) : (noteAccepted s p d).mtr = d.mtr := rfl
@[simp] theorem noteAccepted_can (s : OpSpec) (p : Pkt) (d : Dev) : (noteAccepted s p d).can = d.can := rfl
@[simp] theorem noteAccepted_pav (s : OpSpec) (p : Pkt) (d : Dev) : (noteAccepted s p d).pav = d.pav := rfl
@[simp] theorem noteAccepted_rtc (s : OpSpec) (p : Pkt) (d : Dev) : (noteAccepted s p d).rtc = d.rtc := rfl
@[simp] theorem noteAccepted_hlt (s : OpSpec) (p : Pkt) (d : Dev) : (noteAccepted s p d).hlt = d.hlt := rfl

/-! ### setPo -/

@[simp] theorem setPo_sys (n : Nat) (x : PulseOut) (d : Dev) : (setPo n x d).sys = d.sys := rfl
@[simp] theorem setPo_cmd (n : Nat) (x : PulseOut) (d : Dev) : (setPo n x d).cmd = d.cmd := rfl
@[simp] theorem setPo_rg (n : Nat) (x : PulseOut) (d : Dev) : (setPo n x d).rg = d.rg := rfl
@[simp] theorem setPo_mem (n : Nat) (x : PulseOut) (d : Dev) : (setPo n x d).mem = d.mem := rfl
@[simp] theorem setPo_wr (n : Nat) (x : PulseOut) (d : Dev) : (setPo n x d).wr = d.wr := rfl
@[simp] theorem setPo_tim (n : Nat) (x : PulseOut) (d : Dev) : (setPo n x d).tim = d.tim := rfl
@[simp] theorem setPo_grn (n : Nat) (x : PulseOut) (d : Dev) : (setPo n x d).grn = d.grn := rfl
@[simp] theorem setPo_mdl (n : Nat) (x : PulseOut) (d : Dev) : (setPo n x d).mdl = d.mdl := rfl
@[simp] theorem setPo_pln (n : Nat) (x : PulseOut) (d : Dev) : (setPo n x d).pln = d.pln := rfl
@[simp] theorem setPo_thr (n : Nat) (x : PulseOut) (d : Dev) : (setPo n x d).thr = d.thr := rfl
@[simp] theorem setPo_plc (n : Nat) (x : PulseOut) (d : Dev) : (setPo n x d).plc = d.plc := rfl
@[simp] theorem setPo_shf (n : Nat) (x : PulseOut) (d : Dev) : (setPo n x d).shf = d.shf := rfl
@[simp] theorem setPo_lsq (n : Nat) (x : PulseOut) (d : Dev) : (setPo n x d).lsq = d.lsq := rfl
@[simp] theorem setPo_ra (n : Nat) (x : PulseOut) (d : Dev) : (setPo n x d).ra = d.ra := rfl
@[simp] theorem setPo_lch (n : Nat) (x : PulseOut) (d : Dev) : (setPo n x d).lch = d.lch := rfl
@[simp] theorem setPo_sec (n : Nat) (x : PulseOut) (d : Dev) : (setPo n x d).sec = d.sec := rfl
@[simp] theorem setPo_trl (n : Nat) (x : PulseOut) (d : Dev) : (setPo n x d).trl = d.trl := rfl
@[simp] theorem setPo_cap (n : Nat) (x : PulseOut) (d : Dev) : (setPo n x d).cap = d.cap := rfl
@[simp] theorem setPo_clp (n : Nat) (x : PulseOut) (d : Dev) : (setPo n x d).clp = d.clp := rfl
@[simp] theorem setPo_cle (n : Nat) (x : PulseOut) (d : Dev) : (setPo n x d).cle = d.cle := rfl
@[simp] theorem setPo_adc (n : Nat) (x : PulseOut) (d : Dev) : (setPo n x d).adc = d.adc := rfl
@[simp] theorem setPo_mtr (n : Nat) (x : PulseOut) (d : Dev) : (setPo n x d).mtr = d.mtr := rfl
@[simp] theorem setPo_can (n : Nat) (x : PulseOut) (d : Dev) : (setPo n x d).can = d.can := rfl
@[simp] theorem setPo_pav (n : Nat) (x : PulseOut) (d : Dev) : (setPo n x d).pav = d.pav := rfl
@[simp] theorem setPo_rtc (n : Nat) (x : PulseOut) (d : Dev) : (setPo n x d).rtc = d.rtc := rfl
@[simp] theorem setPo_hlt (n : Nat) (x : PulseOut) (d : Dev) : (setPo n x d).hlt = d.hlt := rfl

/-! ### msixSend -/

@[simp] theorem msixSend_sys (v : Nat) (d : Dev) : (msixSend v d).sys = d.sys := by
  unfold msixSend
  split
  · rfl
  · split
    · rfl
    · exact bump_sys _ _ _ _
@[simp] theorem msixSend_rg (v : Nat) (d : Dev) : (msixSend v d).rg = d.rg := by
  unfold msixSend
  split
  · rfl
  · split
    · rfl
    · exact bump_rg _ _ _ _
@[simp] theorem msixSend_mem (v : Nat) (d : Dev) : (msixSend v d).mem = d.mem := by
  unfold msixSend
  split
  · rfl
  · split
    · rfl
    · exact bump_mem _ _ _ _
@[simp] theorem msixSend_wr (v : Nat) (d : Dev) : (msixSend v d).wr = d.wr := by
  unfold msixSend
  split
  · rfl
  · split
    · rfl
    · exact bump_wr _ _ _ _
@[simp] theorem msixSend_tim (v : Nat) (d : Dev) : (msixSend v d).tim = d.tim := by
  unfold msixSend
  split
  · rfl
  · split
    · rfl
    · exact bump_tim _ _ _ _
@[simp] theorem msixSend_grn (v : Nat) (d : Dev) : (msixSend v d).grn = d.grn := by
  unfold msixSend
  split
  · rfl
  · split
    · rfl
    · exact bump_grn _ _ _ _
@[simp] theorem msixSend_mdl (v : Nat) (d : Dev) : (msixSend v d).mdl = d.mdl := by
  unfold msixSend
  split
  · rfl
  · split
    · rfl
    · exact bump_mdl _ _ _ _
@[simp] theorem msixSend_pln (v : Nat) (d : Dev) : (msixSend v d).pln = d.pln := by
  unfold msixSend
  split
  · rfl
  · split
    · rfl
    · exact bump_pln _ _ _ _
@[simp] theorem msixSend_thr (v : Nat) (d : Dev) : (msixSend v d).thr = d.thr := by
  unfold msixSend
  split
  · rfl
  · split
    · rfl
    · exact bump_thr _ _ _ _
@[simp] theorem msixSend_plc (v : Nat) (d : Dev) : (msixSend v d).plc = d.plc := by
  unfold msixSend
  split
  · rfl
  · split
    · rfl
    · exact bump_plc _ _ _ _
@[simp] theorem msixSend_shf (v : Nat) (d : Dev) : (msixSend v d).shf = d.shf := by
  unfold msixSend
  split
  · rfl
  · split
    · rfl
    · exact bump_shf _ _ _ _
@[simp] theorem msixSend_lsq (v : Nat) (d : Dev) : (msixSend v d).lsq = d.lsq := by
  unfold msixSend
  split
  · rfl
  · split
    · rfl
    · exact bump_lsq _ _ _ _
@[simp] theorem msixSend_ra (v : Nat) (d : Dev) : (msixSend v d).ra = d.ra := by
  unfold msixSend
  split
  · rfl
  · split
    · rfl
    · exact bump_ra _ _ _ _
@[simp] theorem msixSend_lch (v : Nat) (d : Dev) : (msixSend v d).lch = d.lch := by
  unfold msixSend
  split
  · rfl
  · split
    · rfl
    · exact bump_lch _ _ _ _
@[simp] theorem msixSend_sec (v : Nat) (d : Dev) : (msixSend v d).sec = d.sec := by
  unfold msixSend
  split
  · rfl
  · split
    · rfl
    · exact bump_sec _ _ _ _
@[simp] theorem msixSend_trl (v : Nat) (d : Dev) : (msixSend v d).trl = d.trl := by
  unfold msixSend
  split
  · rfl
  · split
    · rfl
    · exact bump_trl _ _ _ _
@[simp] theorem msixSend_cap (v : Nat) (d : Dev) : (msixSend v d).cap = d.cap := by
  unfold msixSend
  split
  · rfl
  · split
    · rfl
    · exact bump_cap _ _ _ _
@[simp] theorem msixSend_clp (v : Nat) (d : Dev) : (msixSend v d).clp = d.clp := by
  unfold msixSend
  split
  · rfl
  · split
    · rfl
    · exact bump_clp _ _ _ _
@[simp] theorem msixSend_cle (v : Nat) (d : Dev) : (msixSend v d).cle = d.cle := by
  unfold msixSend
  split
  · rfl
  · split
    · rfl
    · exact bump_cle _ _ _ _
@[simp] theorem msixSend_adc (v : Nat) (d : Dev) : (msixSend v d).adc = d.adc := by
  unfold msixSend
  split
  · rfl
  · split
    · rfl
    · exact bump_adc _ _ _ _
@[simp] theorem msixSend_iox (v : Nat) (d : Dev) : (msixSend v d).iox = d.iox := by
  unfold msixSend
  split
  · rfl
  · split
    · rfl
    · exact bump_iox _ _ _ _
@[simp] theorem msixSend_mtr (v : Nat) (d : Dev) : (msixSend v d).mtr = d.mtr := by
  unfold msixSend
  split
  · rfl
  · split
    · rfl
    · exact bump_mtr _ _ _ _
@[simp] theorem msixSend_can (v : Nat) (d : Dev) : (msixSend v d).can = d.can := by
  unfold msixSend
  split
  · rfl
  · split
    · rfl
    · exact bump_can _ _ _ _
@[simp] theorem msixSend_pav (v : Nat) (d : Dev) : (msixSend v d).pav = d.pav := by
  unfold msixSend
  split
  · rfl
  · split
    · rfl
    · exact bump_pav _ _ _ _
@[simp] theorem msixSend_rtc (v : Nat) (d : Dev) : (msixSend v d).rtc = d.rtc := by
  unfold msixSend
  split
  · rfl
  · split
    · rfl
    · exact bump_rtc _ _ _ _
@[simp] theorem msixSend_hlt (v : Nat) (d : Dev) : (msixSend v d).hlt = d.hlt := by
  unfold msixSend
  split
  · rfl
  · split
    · rfl
    · exact bump_hlt _ _ _ _

/-! ### raiseVec -/

@[simp] theorem raiseVec_sys (v : Nat) (d : Dev) : (raiseVec v d).sys = d.sys := by
  simp [raiseVec]
@[simp] theorem raiseVec_mem (v : Nat) (d : Dev) : (raiseVec v d).mem = d.mem := by
  simp [raiseVec]
@[simp] theorem raiseVec_wr (v : Nat) (d : Dev) : (raiseVec v d).wr = d.wr := by
  simp [raiseVec]
@[simp] theorem raiseVec_tim (v : Nat) (d : Dev) : (raiseVec v d).tim = d.tim := by
  simp [raiseVec]
@[simp] theorem raiseVec_grn (v : Nat) (d : Dev) : (raiseVec v d).grn = d.grn := by
  simp [raiseVec]
@[simp] theorem raiseVec_mdl (v : Nat) (d : Dev) : (raiseVec v d).mdl = d.mdl := by
  simp [raiseVec]
@[simp] theorem raiseVec_pln (v : Nat) (d : Dev) : (raiseVec v d).pln = d.pln := by
  simp [raiseVec]
@[simp] theorem raiseVec_thr (v : Nat) (d : Dev) : (raiseVec v d).thr = d.thr := by
  simp [raiseVec]
@[simp] theorem raiseVec_plc (v : Nat) (d : Dev) : (raiseVec v d).plc = d.plc := by
  simp [raiseVec]
@[simp] theorem raiseVec_shf (v : Nat) (d : Dev) : (raiseVec v d).shf = d.shf := by
  simp [raiseVec]
@[simp] theorem raiseVec_lsq (v : Nat) (d : Dev) : (raiseVec v d).lsq = d.lsq := by
  simp [raiseVec]
@[simp] theorem raiseVec_ra (v : Nat) (d : Dev) : (raiseVec v d).ra = d.ra := by
  simp [raiseVec]
@[simp] theorem raiseVec_lch (v : Nat) (d : Dev) : (raiseVec v d).lch = d.lch := by
  simp [raiseVec]
@[simp] theorem raiseVec_sec (v : Nat) (d : Dev) : (raiseVec v d).sec = d.sec := by
  simp [raiseVec]
@[simp] theorem raiseVec_trl (v : Nat) (d : Dev) : (raiseVec v d).trl = d.trl := by
  simp [raiseVec]
@[simp] theorem raiseVec_cap (v : Nat) (d : Dev) : (raiseVec v d).cap = d.cap := by
  simp [raiseVec]
@[simp] theorem raiseVec_clp (v : Nat) (d : Dev) : (raiseVec v d).clp = d.clp := by
  simp [raiseVec]
@[simp] theorem raiseVec_cle (v : Nat) (d : Dev) : (raiseVec v d).cle = d.cle := by
  simp [raiseVec]
@[simp] theorem raiseVec_adc (v : Nat) (d : Dev) : (raiseVec v d).adc = d.adc := by
  simp [raiseVec]
@[simp] theorem raiseVec_iox (v : Nat) (d : Dev) : (raiseVec v d).iox = d.iox := by
  simp [raiseVec]
@[simp] theorem raiseVec_mtr (v : Nat) (d : Dev) : (raiseVec v d).mtr = d.mtr := by
  simp [raiseVec]
@[simp] theorem raiseVec_can (v : Nat) (d : Dev) : (raiseVec v d).can = d.can := by
  simp [raiseVec]
@[simp] theorem raiseVec_pav (v : Nat) (d : Dev) : (raiseVec v d).pav = d.pav := by
  simp [raiseVec]
@[simp] theorem raiseVec_rtc (v : Nat) (d : Dev) : (raiseVec v d).rtc = d.rtc := by
  simp [raiseVec]
@[simp] theorem raiseVec_hlt (v : Nat) (d : Dev) : (raiseVec v d).hlt = d.hlt := by
  simp [raiseVec]

/-! ### advanceTo -/

@[simp] theorem advanceTo_sys (t : Nat) (d : Dev) : (advanceTo t d).sys = d.sys := by
  unfold advanceTo
  split
  · rfl
  · exact passTicks_sys _ _
@[simp] theorem advanceTo_cmd (t : Nat) (d : Dev) : (advanceTo t d).cmd = d.cmd := by
  unfold advanceTo
  split
  · rfl
  · exact passTicks_cmd _ _
@[simp] theorem advanceTo_rg (t : Nat) (d : Dev) : (advanceTo t d).rg = d.rg := by
  unfold advanceTo
  split
  · rfl
  · exact passTicks_rg _ _
@[simp] theorem advanceTo_mem (t : Nat) (d : Dev) : (advanceTo t d).mem = d.mem := by
  unfold advanceTo
  split
  · rfl
  · exact passTicks_mem _ _
@[simp] theorem advanceTo_wr (t : Nat) (d : Dev) : (advanceTo t d).wr = d.wr := by
  unfold advanceTo
  split
  · rfl
  · exact passTicks_wr _ _
@[simp] theorem advanceTo_grn (t : Nat) (d : Dev) : (advanceTo t d).grn = d.grn := by
  unfold advanceTo
  split
  · rfl
  · exact passTicks_grn _ _
@[simp] theorem advanceTo_mdl (t : Nat) (d : Dev) : (advanceTo t d).mdl = d.mdl := by
  unfold advanceTo
  split
  · rfl
  · exact passTicks_mdl _ _
@[simp] theorem advanceTo_pln (t : Nat) (d : Dev) : (advanceTo t d).pln = d.pln := by
  unfold advanceTo
  split
  · rfl
  · exact passTicks_pln _ _
@[simp] theorem advanceTo_thr (t : Nat) (d : Dev) : (advanceTo t d).thr = d.thr := by
  unfold advanceTo
  split
  · rfl
  · exact passTicks_thr _ _
@[simp] theorem advanceTo_plc (t : Nat) (d : Dev) : (advanceTo t d).plc = d.plc := by
  unfold advanceTo
  split
  · rfl
  · exact passTicks_plc _ _
@[simp] theorem advanceTo_shf (t : Nat) (d : Dev) : (advanceTo t d).shf = d.shf := by
  unfold advanceTo
  split
  · rfl
  · exact passTicks_shf _ _
@[simp] theorem advanceTo_lsq (t : Nat) (d : Dev) : (advanceTo t d).lsq = d.lsq := by
  unfold advanceTo
  split
  · rfl
  · exact passTicks_lsq _ _
@[simp] theorem advanceTo_ra (t : Nat) (d : Dev) : (advanceTo t d).ra = d.ra := by
  unfold advanceTo
  split
  · rfl
  · exact passTicks_ra _ _
@[simp] theorem advanceTo_lch (t : Nat) (d : Dev) : (advanceTo t d).lch = d.lch := by
  unfold advanceTo
  split
  · rfl
  · exact passTicks_lch _ _
@[simp] theorem advanceTo_sec (t : Nat) (d : Dev) : (advanceTo t d).sec = d.sec := by
  unfold advanceTo
  split
  · rfl
  · exact passTicks_sec _ _
@[simp] theorem advanceTo_trl (t : Nat) (d : Dev) : (advanceTo t d).trl = d.trl := by
  unfold advanceTo
  split
  · rfl
  · exact passTicks_trl _ _
@[simp] theorem advanceTo_cap (t : Nat) (d : Dev) : (advanceTo t d).cap = d.cap := by
  unfold advanceTo
  split
  · rfl
  · exact passTicks_cap _ _
@[simp] theorem advanceTo_clp_loops (t : Nat) (d : Dev) : (advanceTo t d).clp.loops = d.clp.loops := by
  unfold advanceTo
  split
  · rfl
  · exact passTicks_clp_loops _ _
@[simp] theorem advanceTo_clp_map (t : Nat) (d : Dev) : (advanceTo t d).clp.map = d.clp.map := by
  unfold advanceTo
  split
  · rfl
  · exact passTicks_clp_map _ _
@[simp] theorem advanceTo_clp_pubs (t : Nat) (d : Dev) : (advanceTo t d).clp.pubs = d.clp.pubs := by
  unfold advanceTo
  split
  · rfl
  · exact passTicks_clp_pubs _ _
@[simp] theorem advanceTo_clp_traces (t : Nat) (d : Dev) : (advanceTo t d).clp.traces = d.clp.traces := by
  unfold advanceTo
  split
  · rfl
  · exact passTicks_clp_traces _ _
@[simp] theorem advanceTo_cle (t : Nat) (d : Dev) : (advanceTo t d).cle = d.cle := by
  unfold advanceTo
  split
  · rfl
  · exact passTicks_cle _ _
@[simp] theorem advanceTo_adc (t : Nat) (d : Dev) : (advanceTo t d).adc = d.adc := by
  unfold advanceTo
  split
  · rfl
  · exact passTicks_adc _ _
@[simp] theorem advanceTo_iox (t : Nat) (d : Dev) : (advanceTo t d).iox = d.iox := by
  unfold advanceTo
  split
  · rfl
  · exact passTicks_iox _ _
@[simp] theorem advanceTo_mtr (t : Nat) (d : Dev) : (advanceTo t d).mtr = d.mtr := by
  unfold advanceTo
  split
  · rfl
  · exact passTicks_mtr _ _
@[simp] theorem advanceTo_can (t : Nat) (d : Dev) : (advanceTo t d).can = d.can := by
  unfold advanceTo
  split
  · rfl
  · exact passTicks_can _ _
@[simp] theorem advanceTo_pav (t : Nat) (d : Dev) : (advanceTo t d).pav = d.pav := by
  unfold advanceTo
  split
  · rfl
  · exact passTicks_pav _ _
@[simp] theorem advanceTo_rtc (t : Nat) (d : Dev) : (advanceTo t d).rtc = d.rtc := by
  unfold advanceTo
  split
  · rfl
  · exact passTicks_rtc _ _
@[simp] theorem advanceTo_hlt (t : Nat) (d : Dev) : (advanceTo t d).hlt = d.hlt := by
  unfold advanceTo
  split
  · rfl
  · exact passTicks_hlt _ _

/-! ### meetCeil -/

@[simp] theorem meetCeil_sys (c : Nat) (d : Dev) : (meetCeil c d).sys = d.sys := by
  unfold meetCeil
  split
  · rfl
  · split
    · rfl
    · rw [bump_sys, addF_sys, setF_sys, setF_sys]
@[simp] theorem meetCeil_mem (c : Nat) (d : Dev) : (meetCeil c d).mem = d.mem := by
  unfold meetCeil
  split
  · rfl
  · split
    · rfl
    · rw [bump_mem, addF_mem, setF_mem, setF_mem]
@[simp] theorem meetCeil_wr (c : Nat) (d : Dev) : (meetCeil c d).wr = d.wr := by
  unfold meetCeil
  split
  · rfl
  · split
    · rfl
    · rw [bump_wr, addF_wr, setF_wr, setF_wr]
@[simp] theorem meetCeil_tim (c : Nat) (d : Dev) : (meetCeil c d).tim = d.tim := by
  unfold meetCeil
  split
  · rfl
  · split
    · rfl
    · rw [bump_tim, addF_tim, setF_tim, setF_tim]
@[simp] theorem meetCeil_grn (c : Nat) (d : Dev) : (meetCeil c d).grn = d.grn := by
  unfold meetCeil
  split
  · rfl
  · split
    · rfl
    · rw [bump_grn, addF_grn, setF_grn, setF_grn]
@[simp] theorem meetCeil_mdl (c : Nat) (d : Dev) : (meetCeil c d).mdl = d.mdl := by
  unfold meetCeil
  split
  · rfl
  · split
    · rfl
    · rw [bump_mdl, addF_mdl, setF_mdl, setF_mdl]
@[simp] theorem meetCeil_thr (c : Nat) (d : Dev) : (meetCeil c d).thr = d.thr := by
  unfold meetCeil
  split
  · rfl
  · split
    · rfl
    · rw [bump_thr, addF_thr, setF_thr, setF_thr]
@[simp] theorem meetCeil_plc (c : Nat) (d : Dev) : (meetCeil c d).plc = d.plc := by
  unfold meetCeil
  split
  · rfl
  · split
    · rfl
    · rw [bump_plc, addF_plc, setF_plc, setF_plc]
@[simp] theorem meetCeil_shf (c : Nat) (d : Dev) : (meetCeil c d).shf = d.shf := by
  unfold meetCeil
  split
  · rfl
  · split
    · rfl
    · rw [bump_shf, addF_shf, setF_shf, setF_shf]
@[simp] theorem meetCeil_lsq (c : Nat) (d : Dev) : (meetCeil c d).lsq = d.lsq := by
  unfold meetCeil
  split
  · rfl
  · split
    · rfl
    · rw [bump_lsq, addF_lsq, setF_lsq, setF_lsq]
@[simp] theorem meetCeil_ra (c : Nat) (d : Dev) : (meetCeil c d).ra = d.ra := by
  unfold meetCeil
  split
  · rfl
  · split
    · rfl
    · rw [bump_ra, addF_ra, setF_ra, setF_ra]
@[simp] theorem meetCeil_lch (c : Nat) (d : Dev) : (meetCeil c d).lch = d.lch := by
  unfold meetCeil
  split
  · rfl
  · split
    · rfl
    · rw [bump_lch, addF_lch, setF_lch, setF_lch]
@[simp] theorem meetCeil_sec (c : Nat) (d : Dev) : (meetCeil c d).sec = d.sec := by
  unfold meetCeil
  split
  · rfl
  · split
    · rfl
    · rw [bump_sec, addF_sec, setF_sec, setF_sec]
@[simp] theorem meetCeil_trl (c : Nat) (d : Dev) : (meetCeil c d).trl = d.trl := by
  unfold meetCeil
  split
  · rfl
  · split
    · rfl
    · rw [bump_trl, addF_trl, setF_trl, setF_trl]
@[simp] theorem meetCeil_cap (c : Nat) (d : Dev) : (meetCeil c d).cap = d.cap := by
  unfold meetCeil
  split
  · rfl
  · split
    · rfl
    · rw [bump_cap, addF_cap, setF_cap, setF_cap]
@[simp] theorem meetCeil_clp (c : Nat) (d : Dev) : (meetCeil c d).clp = d.clp := by
  unfold meetCeil
  split
  · rfl
  · split
    · rfl
    · rw [bump_clp, addF_clp, setF_clp, setF_clp]
@[simp] theorem meetCeil_cle (c : Nat) (d : Dev) : (meetCeil c d).cle = d.cle := by
  unfold meetCeil
  split
  · rfl
  · split
    · rfl
    · rw [bump_cle, addF_cle, setF_cle, setF_cle]
@[simp] theorem meetCeil_adc (c : Nat) (d : Dev) : (meetCeil c d).adc = d.adc := by
  unfold meetCeil
  split
  · rfl
  · split
    · rfl
    · rw [bump_adc, addF_adc, setF_adc, setF_adc]
@[simp] theorem meetCeil_iox (c : Nat) (d : Dev) : (meetCeil c d).iox = d.iox := by
  unfold meetCeil
  split
  · rfl
  · split
    · rfl
    · rw [bump_iox, addF_iox, setF_iox, setF_iox]
@[simp] theorem meetCeil_mtr (c : Nat) (d : Dev) : (meetCeil c d).mtr = d.mtr := by
  unfold meetCeil
  split
  · rfl
  · split
    · rfl
    · rw [bump_mtr, addF_mtr, setF_mtr, setF_mtr]
@[simp] theorem meetCeil_can (c : Nat) (d : Dev) : (meetCeil c d).can = d.can := by
  unfold meetCeil
  split
  · rfl
  · split
    · rfl
    · rw [bump_can, addF_can, setF_can, setF_can]
@[simp] theorem meetCeil_pav (c : Nat) (d : Dev) : (meetCeil c d).pav = d.pav := by
  unfold meetCeil
  split
  · rfl
  · split
    · rfl
    · rw [bump_pav, addF_pav, setF_pav, setF_pav]
@[simp] theorem meetCeil_rtc (c : Nat) (d : Dev) : (meetCeil c d).rtc = d.rtc := by
  unfold meetCeil
  split
  · rfl
  · split
    · rfl
    · rw [bump_rtc, addF_rtc, setF_rtc, setF_rtc]
@[simp] theorem meetCeil_hlt (c : Nat) (d : Dev) : (meetCeil c d).hlt = d.hlt := by
  unfold meetCeil
  split
  · rfl
  · split
    · rfl
    · rw [bump_hlt, addF_hlt, setF_hlt, setF_hlt]

/-! ### charge -/

@[simp] theorem charge_sys (c : Nat) (x : Currency) (n : Nat) (d : Dev) : (charge c x n d).sys = d.sys := by
  unfold charge
  split
  · rw [meetCeil_sys, addF_sys]
  · rfl
@[simp] theorem charge_mem (c : Nat) (x : Currency) (n : Nat) (d : Dev) : (charge c x n d).mem = d.mem := by
  unfold charge
  split
  · rw [meetCeil_mem, addF_mem]
  · rfl
@[simp] theorem charge_wr (c : Nat) (x : Currency) (n : Nat) (d : Dev) : (charge c x n d).wr = d.wr := by
  unfold charge
  split
  · rw [meetCeil_wr, addF_wr]
  · rfl
@[simp] theorem charge_tim (c : Nat) (x : Currency) (n : Nat) (d : Dev) : (charge c x n d).tim = d.tim := by
  unfold charge
  split
  · rw [meetCeil_tim, addF_tim]
  · rfl
@[simp] theorem charge_grn (c : Nat) (x : Currency) (n : Nat) (d : Dev) : (charge c x n d).grn = d.grn := by
  unfold charge
  split
  · rw [meetCeil_grn, addF_grn]
  · rfl
@[simp] theorem charge_mdl (c : Nat) (x : Currency) (n : Nat) (d : Dev) : (charge c x n d).mdl = d.mdl := by
  unfold charge
  split
  · rw [meetCeil_mdl, addF_mdl]
  · rfl
@[simp] theorem charge_thr (c : Nat) (x : Currency) (n : Nat) (d : Dev) : (charge c x n d).thr = d.thr := by
  unfold charge
  split
  · rw [meetCeil_thr, addF_thr]
  · rfl
@[simp] theorem charge_plc (c : Nat) (x : Currency) (n : Nat) (d : Dev) : (charge c x n d).plc = d.plc := by
  unfold charge
  split
  · rw [meetCeil_plc, addF_plc]
  · rfl
@[simp] theorem charge_shf (c : Nat) (x : Currency) (n : Nat) (d : Dev) : (charge c x n d).shf = d.shf := by
  unfold charge
  split
  · rw [meetCeil_shf, addF_shf]
  · rfl
@[simp] theorem charge_lsq (c : Nat) (x : Currency) (n : Nat) (d : Dev) : (charge c x n d).lsq = d.lsq := by
  unfold charge
  split
  · rw [meetCeil_lsq, addF_lsq]
  · rfl
@[simp] theorem charge_ra (c : Nat) (x : Currency) (n : Nat) (d : Dev) : (charge c x n d).ra = d.ra := by
  unfold charge
  split
  · rw [meetCeil_ra, addF_ra]
  · rfl
@[simp] theorem charge_lch (c : Nat) (x : Currency) (n : Nat) (d : Dev) : (charge c x n d).lch = d.lch := by
  unfold charge
  split
  · rw [meetCeil_lch, addF_lch]
  · rfl
@[simp] theorem charge_sec (c : Nat) (x : Currency) (n : Nat) (d : Dev) : (charge c x n d).sec = d.sec := by
  unfold charge
  split
  · rw [meetCeil_sec, addF_sec]
  · rfl
@[simp] theorem charge_trl (c : Nat) (x : Currency) (n : Nat) (d : Dev) : (charge c x n d).trl = d.trl := by
  unfold charge
  split
  · rw [meetCeil_trl, addF_trl]
  · rfl
@[simp] theorem charge_cap (c : Nat) (x : Currency) (n : Nat) (d : Dev) : (charge c x n d).cap = d.cap := by
  unfold charge
  split
  · rw [meetCeil_cap, addF_cap]
  · rfl
@[simp] theorem charge_clp (c : Nat) (x : Currency) (n : Nat) (d : Dev) : (charge c x n d).clp = d.clp := by
  unfold charge
  split
  · rw [meetCeil_clp, addF_clp]
  · rfl
@[simp] theorem charge_cle (c : Nat) (x : Currency) (n : Nat) (d : Dev) : (charge c x n d).cle = d.cle := by
  unfold charge
  split
  · rw [meetCeil_cle, addF_cle]
  · rfl
@[simp] theorem charge_adc (c : Nat) (x : Currency) (n : Nat) (d : Dev) : (charge c x n d).adc = d.adc := by
  unfold charge
  split
  · rw [meetCeil_adc, addF_adc]
  · rfl
@[simp] theorem charge_iox (c : Nat) (x : Currency) (n : Nat) (d : Dev) : (charge c x n d).iox = d.iox := by
  unfold charge
  split
  · rw [meetCeil_iox, addF_iox]
  · rfl
@[simp] theorem charge_mtr (c : Nat) (x : Currency) (n : Nat) (d : Dev) : (charge c x n d).mtr = d.mtr := by
  unfold charge
  split
  · rw [meetCeil_mtr, addF_mtr]
  · rfl
@[simp] theorem charge_can (c : Nat) (x : Currency) (n : Nat) (d : Dev) : (charge c x n d).can = d.can := by
  unfold charge
  split
  · rw [meetCeil_can, addF_can]
  · rfl
@[simp] theorem charge_pav (c : Nat) (x : Currency) (n : Nat) (d : Dev) : (charge c x n d).pav = d.pav := by
  unfold charge
  split
  · rw [meetCeil_pav, addF_pav]
  · rfl
@[simp] theorem charge_rtc (c : Nat) (x : Currency) (n : Nat) (d : Dev) : (charge c x n d).rtc = d.rtc := by
  unfold charge
  split
  · rw [meetCeil_rtc, addF_rtc]
  · rfl
@[simp] theorem charge_hlt (c : Nat) (x : Currency) (n : Nat) (d : Dev) : (charge c x n d).hlt = d.hlt := by
  unfold charge
  split
  · rw [meetCeil_hlt, addF_hlt]
  · rfl

end Sys2Proof.Machine
end

