-- ==== Sys2Proof/Laws/Regs.lean ====
section
/-!
SUPPORT. Reading a register after writing one (R82): the register written reads as written, every other as before.
-/

namespace Sys2Proof.Machine

/-! ### The tables -/

theorem regTab_set_same {m : SMap (Option Word)} {o : Nat} {w : Word} (h : smAbove none m = true) :
    regTab (regTabSet m o w) o = w := by
  unfold regTab regTabSet
  rw [smGet_smSet_same h]
  split
  · next heq =>
    split at heq
    · cases heq
    · exact (Option.some.inj heq).symm
  · next heq =>
    split at heq
    · next hw => exact hw.symm
    · cases heq

theorem regTab_set_ne {m : SMap (Option Word)} {o q : Nat} {w : Word} (h : smAbove none m = true) (hq : q ≠ o) :
    regTab (regTabSet m o w) q = regTab m q := by
  unfold regTab regTabSet
  rw [smGet_smSet_ne h hq]

/-- The register table of present values is in order. -/
abbrev Sorted (d : Dev) : Prop := smAbove none d.rg.present = true
/-- The register table of applied values is in order. -/
abbrev SortedA (d : Dev) : Prop := smAbove none d.rg.applied = true

theorem sorted_of_wf {d : Dev} (h : smWf none d.rg.present = true) : Sorted d := by
  simp only [smWf, Bool.and_eq_true] at h
  exact h.1

theorem sortedA_of_wf {d : Dev} (h : smWf none d.rg.applied = true) : SortedA d := by
  simp only [smWf, Bool.and_eq_true] at h
  exact h.1

theorem setP_sorted {o v : Nat} {d : Dev} (h : Sorted d) : Sorted (setP o v d) := smSet_sorted h
theorem setF_sorted {o hi lo v : Nat} {d : Dev} (h : Sorted d) : Sorted (setF o hi lo v d) := smSet_sorted h
theorem orP_sorted {o m : Nat} {d : Dev} (h : Sorted d) : Sorted (orP o m d) := smSet_sorted h
theorem addF_sorted {o hi lo n : Nat} {d : Dev} (h : Sorted d) : Sorted (addF o hi lo n d) := smSet_sorted h
theorem setA_sorted {o v : Nat} {d : Dev} (h : SortedA d) : SortedA (setA o v d) := smSet_sorted h

/-! ### Present values -/

theorem regP_lt (d : Dev) (o : Nat) : regP d o < 2 ^ 32 := (regTab d.rg.present o).isLt
theorem regA_lt (d : Dev) (o : Nat) : regA d o < 2 ^ 32 := (regTab d.rg.applied o).isLt

theorem regP_setP_same {o v : Nat} {d : Dev} (h : Sorted d) : regP (setP o v d) o = v % 2 ^ 32 := by
  show (regTab (regTabSet d.rg.present o (u32 v)) o).toNat = _
  rw [regTab_set_same h]
  simp [u32]

theorem regP_setP_ne {o q v : Nat} {d : Dev} (h : Sorted d) (hq : q ≠ o) : regP (setP o v d) q = regP d q := by
  show (regTab (regTabSet d.rg.present o (u32 v)) q).toNat = _
  rw [regTab_set_ne h hq]
  rfl

theorem regP_setF_ne {o hi lo q v : Nat} {d : Dev} (h : Sorted d) (hq : q ≠ o) : regP (setF o hi lo v d) q = regP d q :=
  regP_setP_ne h hq

theorem regP_orP_ne {o m q : Nat} {d : Dev} (h : Sorted d) (hq : q ≠ o) : regP (orP o m d) q = regP d q := regP_setP_ne h hq

theorem regP_addF_ne {o hi lo q n : Nat} {d : Dev} (h : Sorted d) (hq : q ≠ o) : regP (addF o hi lo n d) q = regP d q :=
  regP_setP_ne h hq

/-- Writing applied values leaves the present ones, and the other way round. -/
@[simp] theorem regP_setA (o q v : Nat) (d : Dev) : regP (setA o v d) q = regP d q := rfl
@[simp] theorem regA_setP (o q v : Nat) (d : Dev) : regA (setP o v d) q = regA d q := rfl
@[simp] theorem regA_setF (o hi lo q v : Nat) (d : Dev) : regA (setF o hi lo v d) q = regA d q := rfl
@[simp] theorem regA_orP (o m q : Nat) (d : Dev) : regA (orP o m d) q = regA d q := rfl
@[simp] theorem regA_addF (o hi lo q n : Nat) (d : Dev) : regA (addF o hi lo n d) q = regA d q := rfl

theorem regA_setA_same {o v : Nat} {d : Dev} (h : SortedA d) : regA (setA o v d) o = v % 2 ^ 32 := by
  show (regTab (regTabSet d.rg.applied o (u32 v)) o).toNat = _
  rw [regTab_set_same h]
  simp [u32]

theorem regA_setA_ne {o q v : Nat} {d : Dev} (h : SortedA d) (hq : q ≠ o) : regA (setA o v d) q = regA d q := by
  show (regTab (regTabSet d.rg.applied o (u32 v)) q).toNat = _
  rw [regTab_set_ne h hq]
  rfl

/-! ### Fields -/

/-- A number cut at `lo` and above `hi`. -/
theorem bits_split (v hi lo : Nat) :
    v = v / 2 ^ (lo + (hi + 1 - lo)) * 2 ^ (lo + (hi + 1 - lo)) + bits v hi lo * 2 ^ lo + v % 2 ^ lo := by
  unfold bits
  rw [Nat.shiftRight_eq_div_pow]
  generalize hi + 1 - lo = w
  have h1 := Nat.div_add_mod v (2 ^ lo)
  have h2 := Nat.div_add_mod (v / 2 ^ lo) (2 ^ w)
  rw [Nat.pow_add, ← Nat.div_div_eq_div_mul]
  generalize v / 2 ^ lo / 2 ^ w = a at *
  generalize v / 2 ^ lo % 2 ^ w = b at *
  generalize v / 2 ^ lo = c at *
  subst h2
  generalize v % 2 ^ lo = e at *
  subst h1
  ring

theorem putBits_eq (v hi lo x : Nat) :
    putBits v hi lo x = v / 2 ^ (lo + (hi + 1 - lo)) * 2 ^ (lo + (hi + 1 - lo)) + x % 2 ^ (hi + 1 - lo) * 2 ^ lo + v % 2 ^ lo := by
  have h := bits_split v hi lo
  unfold putBits
  rw [Nat.shiftLeft_eq, Nat.shiftLeft_eq]
  omega

/-- The field put reads as the value put. -/
theorem bits_putBits (v hi lo x : Nat) : bits (putBits v hi lo x) hi lo = x % 2 ^ (hi + 1 - lo) := by
  rw [putBits_eq]
  unfold bits
  rw [Nat.shiftRight_eq_div_pow]
  generalize hi + 1 - lo = w
  have hy := Nat.mod_lt x (Nat.two_pow_pos w)
  have hc := Nat.mod_lt v (Nat.two_pow_pos lo)
  generalize v / 2 ^ (lo + w) = a
  generalize x % 2 ^ w = y at hy ⊢
  generalize v % 2 ^ lo = c at hc ⊢
  have h1 : (a * 2 ^ (lo + w) + y * 2 ^ lo + c) / 2 ^ lo = a * 2 ^ w + y := by
    have h2 : a * 2 ^ (lo + w) + y * 2 ^ lo + c = c + 2 ^ lo * (a * 2 ^ w + y) := by
      rw [Nat.pow_add]
      ring
    rw [h2, Nat.add_mul_div_left _ _ (Nat.two_pow_pos lo), Nat.div_eq_of_lt hc, Nat.zero_add]
  rw [h1, Nat.mul_comm, Nat.mul_add_mod, Nat.mod_eq_of_lt hy]

/-- Putting a field inside 32 bits keeps a number below 2³². -/
theorem putBits_lt {v hi lo x : Nat} (hv : v < 2 ^ 32) (hh : hi < 32) (hl : lo ≤ hi) : putBits v hi lo x < 2 ^ 32 := by
  rw [putBits_eq]
  have hw : lo + (hi + 1 - lo) = hi + 1 := by omega
  rw [hw]
  have hy := Nat.mod_lt x (Nat.two_pow_pos (hi + 1 - lo))
  have hc := Nat.mod_lt v (Nat.two_pow_pos lo)
  generalize x % 2 ^ (hi + 1 - lo) = y at hy ⊢
  generalize v % 2 ^ lo = c at hc ⊢
  have h1 : y * 2 ^ lo + c < 2 ^ (hi + 1) := by
    have h2 : (y + 1) * 2 ^ lo ≤ 2 ^ (hi + 1 - lo) * 2 ^ lo := Nat.mul_le_mul_right _ hy
    rw [← Nat.pow_add, Nat.sub_add_cancel (by omega), Nat.add_mul, Nat.one_mul] at h2
    omega
  have h3 : v / 2 ^ (hi + 1) < 2 ^ (32 - (hi + 1)) := by
    rw [Nat.div_lt_iff_lt_mul (Nat.two_pow_pos _), ← Nat.pow_add, Nat.sub_add_cancel (by omega)]
    exact hv
  have h4 : (v / 2 ^ (hi + 1) + 1) * 2 ^ (hi + 1) ≤ 2 ^ (32 - (hi + 1)) * 2 ^ (hi + 1) := Nat.mul_le_mul_right _ h3
  rw [← Nat.pow_add, Nat.sub_add_cancel (by omega), Nat.add_mul, Nat.one_mul] at h4
  omega

/-- A field set reads as set. -/
theorem fld_setF_same {o hi lo v : Nat} {d : Dev} (h : Sorted d) (hh : hi < 32) (hl : lo ≤ hi) :
    fld (setF o hi lo v d) o hi lo = v % 2 ^ (hi + 1 - lo) := by
  unfold fld setF
  rw [regP_setP_same h, Nat.mod_eq_of_lt (putBits_lt (regP_lt d o) hh hl), bits_putBits]

theorem fld_setP_ne {o q hi lo v : Nat} {d : Dev} (h : Sorted d) (hq : q ≠ o) : fld (setP o v d) q hi lo = fld d q hi lo := by
  unfold fld
  rw [regP_setP_ne h hq]

theorem fld_setF_ne {o q hi lo hi2 lo2 v : Nat} {d : Dev} (h : Sorted d) (hq : q ≠ o) :
    fld (setF o hi2 lo2 v d) q hi lo = fld d q hi lo := fld_setP_ne h hq

theorem fld_addF_ne {o q hi lo hi2 lo2 n : Nat} {d : Dev} (h : Sorted d) (hq : q ≠ o) :
    fld (addF o hi2 lo2 n d) q hi lo = fld d q hi lo := fld_setP_ne h hq

/-- A counter of 32 bits wraps. -/
theorem regP_addF_whole {o n : Nat} {d : Dev} (h : Sorted d) : regP (addF o 31 0 n d) o = (regP d o + n) % 2 ^ 32 := by
  unfold addF setF fld
  rw [regP_setP_same h, Nat.mod_eq_of_lt (putBits_lt (regP_lt d o) (by decide) (by decide)), putBits_eq]
  have hb : bits (regP d o) 31 0 = regP d o := by
    unfold bits
    exact Nat.mod_eq_of_lt (regP_lt d o)
  rw [hb, Nat.div_eq_of_lt (regP_lt d o)]
  simp [Nat.mod_one]

end Sys2Proof.Machine
end

