-- ==== Sys2Proof/Laws/Budget.lean ====
section
/-!
SUPPORT. What a charge to a class leaves: without a frame plan no class meets a ceiling, and what a placement reads is none of the
registers of the budgets.
-/

namespace Sys2Proof.Machine

/-- Without a frame plan no class is at a ceiling. -/
theorem atCeil_open {d : Dev} (h : d.pln.fp = none) (c : Nat) (x : Currency) : atCeil d c x = false := by
  have hb : ceilOf d c x = 0xFFFFFFFF := by cases x <;> simp [ceilOf, budgetOf, h, ClassBudget.open]
  simp [atCeil, hb]

/-- So nothing pauses it. -/
theorem meetCeil_open {d : Dev} (h : d.pln.fp = none) (c : Nat) : meetCeil c d = d := by
  simp [meetCeil, atCeil_open h]

/-- And a charge only counts. -/
theorem charge_open {d : Dev} (h : d.pln.fp = none) (c : Nat) (x : Currency) (n : Nat) :
    charge c x n d = if hasCurrency c x then addF (usedReg c x) 31 0 n d else d := by
  unfold charge
  split
  · exact meetCeil_open (d := addF (usedReg c x) 31 0 n d) h c
  · rfl

/-- Nor does it stop its class. -/
theorem classStops_charge_open {d : Dev} (hs : Sorted d) (h : d.pln.fp = none) (c : Nat) (x : Currency) (n : Nat)
    (hc : Reg.budClsStat c ≠ usedReg c x) : classStops (charge c x n d) c = classStops d c := by
  rw [charge_open h]
  split
  · have hp : classPaused (addF (usedReg c x) 31 0 n d) c = classPaused d c := by
      simp only [classPaused]
      rw [fld_addF_ne hs hc]
    have ho : (addF (usedReg c x) 31 0 n d).pln.fp = none := h
    simp [classStops, hp, atCeil_open h, atCeil_open ho]
  · rfl

theorem homeFor_local {d e : Dev} {env : PlaceEnv} (hr : env.sizes.remote = false) (t : Nat)
    (need : Nat × Option Nat × Nat × Nat × Nat) (homes : List Home) : homeFor e env t need homes = homeFor d env t need homes := by
  simp [homeFor, hr]

theorem homesLoop_local {d e : Dev} {env : PlaceEnv} (hr : env.sizes.remote = false)
    (needs : List (Nat × (Nat × Option Nat × Nat × Nat × Nat))) :
    ∀ homes, homesLoop e env needs homes = homesLoop d env needs homes := by
  induction needs with
  | nil => intro homes; rfl
  | cons x l ih =>
    intro homes
    obtain ⟨t, need⟩ := x
    simp only [homesLoop, homeFor_local (d := d) (e := e) hr]
    cases homeFor d env t need homes with
    | inl x => rfl
    | inr h => exact ih _

/-- Where no memory of other units is used, a placement reads the placement engine and the count of clusters only. -/
theorem placeInto_isRight_local {d e : Dev} {s : Nat} {pl : Plan} (hp : e.plc = d.plc) (hn : nEff e = nEff d)
    (hr : d.plc.sizes.remote = false) : (placeInto s pl e).isRight = (placeInto s pl d).isRight := by
  have hs : ∀ ws homes, placeSlot e ⟨s, pl, d.plc.sizes, nEff d⟩ ws homes = placeSlot d ⟨s, pl, d.plc.sizes, nEff d⟩ ws homes := by
    intro ws homes
    simp only [placeSlot, homesLoop_local (d := d) (e := e) (env := ⟨s, pl, d.plc.sizes, nEff d⟩) hr]
  simp only [placeInto, hp, hn, hs]
  split <;> rfl

/-- The charge of a placement (R200) leaves what the placement reads. -/
theorem chargePlacement_local {d : Dev} (hs : Sorted d) (hf : d.pln.fp = none) (pl : Plan) :
    (chargePlacement pl d).plc = d.plc ∧ nEff (chargePlacement pl d) = nEff d := by
  have h : chargePlacement pl d = addF (Reg.budMgmtUsed 0) 31 0 (Config.placeUs pl.tiles.length pl.entries.length).toNat d := by
    unfold chargePlacement
    rw [charge_open hf]
    rfl
  rw [h]
  refine ⟨rfl, ?_⟩
  have hq : paired (addF (Reg.budMgmtUsed 0) 31 0 (Config.placeUs pl.tiles.length pl.entries.length).toNat d) = paired d := by
    unfold paired
    rw [fld_addF_ne hs (by decide)]
  unfold nEff
  rw [hq]
  rfl

end Sys2Proof.Machine
end

