-- ==== Sys2Proof/Laws/Complete.lean ====
section
/-!
SUPPORT. What storing bytes and completing a command leave of every other part of the device.
-/

namespace Sys2Proof.Machine

@[simp] theorem wrBytes_sys (a : Nat) (bs : List Byte) (d : Dev) : (wrBytes a bs d).sys = d.sys := by
  induction bs generalizing a d with
  | nil => rfl
  | cons b bs ih =>
    unfold wrBytes
    rw [ih]
    split <;> rfl

@[simp] theorem wrBytes_cmd (a : Nat) (bs : List Byte) (d : Dev) : (wrBytes a bs d).cmd = d.cmd := by
  induction bs generalizing a d with
  | nil => rfl
  | cons b bs ih =>
    unfold wrBytes
    rw [ih]
    split <;> rfl

@[simp] theorem wrBytes_rg (a : Nat) (bs : List Byte) (d : Dev) : (wrBytes a bs d).rg = d.rg := by
  induction bs generalizing a d with
  | nil => rfl
  | cons b bs ih =>
    unfold wrBytes
    rw [ih]
    split <;> rfl

@[simp] theorem wrBytes_mem (a : Nat) (bs : List Byte) (d : Dev) : (wrBytes a bs d).mem = d.mem := by
  induction bs generalizing a d with
  | nil => rfl
  | cons b bs ih =>
    unfold wrBytes
    rw [ih]
    split <;> rfl

@[simp] theorem wrBytes_tim (a : Nat) (bs : List Byte) (d : Dev) : (wrBytes a bs d).tim = d.tim := by
  induction bs generalizing a d with
  | nil => rfl
  | cons b bs ih =>
    unfold wrBytes
    rw [ih]
    split <;> rfl

@[simp] theorem wrBytes_grn (a : Nat) (bs : List Byte) (d : Dev) : (wrBytes a bs d).grn = d.grn := by
  induction bs generalizing a d with
  | nil => rfl
  | cons b bs ih =>
    unfold wrBytes
    rw [ih]
    split <;> rfl

@[simp] theorem wrBytes_mdl (a : Nat) (bs : List Byte) (d : Dev) : (wrBytes a bs d).mdl = d.mdl := by
  induction bs generalizing a d with
  | nil => rfl
  | cons b bs ih =>
    unfold wrBytes
    rw [ih]
    split <;> rfl

@[simp] theorem wrBytes_pln (a : Nat) (bs : List Byte) (d : Dev) : (wrBytes a bs d).pln = d.pln := by
  induction bs generalizing a d with
  | nil => rfl
  | cons b bs ih =>
    unfold wrBytes
    rw [ih]
    split <;> rfl

@[simp] theorem wrBytes_thr (a : Nat) (bs : List Byte) (d : Dev) : (wrBytes a bs d).thr = d.thr := by
  induction bs generalizing a d with
  | nil => rfl
  | cons b bs ih =>
    unfold wrBytes
    rw [ih]
    split <;> rfl

@[simp] theorem wrBytes_plc (a : Nat) (bs : List Byte) (d : Dev) : (wrBytes a bs d).plc = d.plc := by
  induction bs generalizing a d with
  | nil => rfl
  | cons b bs ih =>
    unfold wrBytes
    rw [ih]
    split <;> rfl

@[simp] theorem wrBytes_shf (a : Nat) (bs : List Byte) (d : Dev) : (wrBytes a bs d).shf = d.shf := by
  induction bs generalizing a d with
  | nil => rfl
  | cons b bs ih =>
    unfold wrBytes
    rw [ih]
    split <;> rfl

@[simp] theorem wrBytes_lsq (a : Nat) (bs : List Byte) (d : Dev) : (wrBytes a bs d).lsq = d.lsq := by
  induction bs generalizing a d with
  | nil => rfl
  | cons b bs ih =>
    unfold wrBytes
    rw [ih]
    split <;> rfl

@[simp] theorem wrBytes_ra (a : Nat) (bs : List Byte) (d : Dev) : (wrBytes a bs d).ra = d.ra := by
  induction bs generalizing a d with
  | nil => rfl
  | cons b bs ih =>
    unfold wrBytes
    rw [ih]
    split <;> rfl

@[simp] theorem wrBytes_lch (a : Nat) (bs : List Byte) (d : Dev) : (wrBytes a bs d).lch = d.lch := by
  induction bs generalizing a d with
  | nil => rfl
  | cons b bs ih =>
    unfold wrBytes
    rw [ih]
    split <;> rfl

@[simp] theorem wrBytes_sec (a : Nat) (bs : List Byte) (d : Dev) : (wrBytes a bs d).sec = d.sec := by
  induction bs generalizing a d with
  | nil => rfl
  | cons b bs ih =>
    unfold wrBytes
    rw [ih]
    split <;> rfl

@[simp] theorem wrBytes_trl (a : Nat) (bs : List Byte) (d : Dev) : (wrBytes a bs d).trl = d.trl := by
  induction bs generalizing a d with
  | nil => rfl
  | cons b bs ih =>
    unfold wrBytes
    rw [ih]
    split <;> rfl

@[simp] theorem wrBytes_cap (a : Nat) (bs : List Byte) (d : Dev) : (wrBytes a bs d).cap = d.cap := by
  induction bs generalizing a d with
  | nil => rfl
  | cons b bs ih =>
    unfold wrBytes
    rw [ih]
    split <;> rfl

@[simp] theorem wrBytes_clp (a : Nat) (bs : List Byte) (d : Dev) : (wrBytes a bs d).clp = d.clp := by
  induction bs generalizing a d with
  | nil => rfl
  | cons b bs ih =>
    unfold wrBytes
    rw [ih]
    split <;> rfl

@[simp] theorem wrBytes_cle (a : Nat) (bs : List Byte) (d : Dev) : (wrBytes a bs d).cle = d.cle := by
  induction bs generalizing a d with
  | nil => rfl
  | cons b bs ih =>
    unfold wrBytes
    rw [ih]
    split <;> rfl

@[simp] theorem wrBytes_adc (a : Nat) (bs : List Byte) (d : Dev) : (wrBytes a bs d).adc = d.adc := by
  induction bs generalizing a d with
  | nil => rfl
  | cons b bs ih =>
    unfold wrBytes
    rw [ih]
    split <;> rfl

@[simp] theorem wrBytes_iox (a : Nat) (bs : List Byte) (d : Dev) : (wrBytes a bs d).iox = d.iox := by
  induction bs generalizing a d with
  | nil => rfl
  | cons b bs ih =>
    unfold wrBytes
    rw [ih]
    split <;> rfl

@[simp] theorem wrBytes_mtr (a : Nat) (bs : List Byte) (d : Dev) : (wrBytes a bs d).mtr = d.mtr := by
  induction bs generalizing a d with
  | nil => rfl
  | cons b bs ih =>
    unfold wrBytes
    rw [ih]
    split <;> rfl

@[simp] theorem wrBytes_can (a : Nat) (bs : List Byte) (d : Dev) : (wrBytes a bs d).can = d.can := by
  induction bs generalizing a d with
  | nil => rfl
  | cons b bs ih =>
    unfold wrBytes
    rw [ih]
    split <;> rfl

@[simp] theorem wrBytes_pav (a : Nat) (bs : List Byte) (d : Dev) : (wrBytes a bs d).pav = d.pav := by
  induction bs generalizing a d with
  | nil => rfl
  | cons b bs ih =>
    unfold wrBytes
    rw [ih]
    split <;> rfl

@[simp] theorem wrBytes_rtc (a : Nat) (bs : List Byte) (d : Dev) : (wrBytes a bs d).rtc = d.rtc := by
  induction bs generalizing a d with
  | nil => rfl
  | cons b bs ih =>
    unfold wrBytes
    rw [ih]
    split <;> rfl

@[simp] theorem wrBytes_hlt (a : Nat) (bs : List Byte) (d : Dev) : (wrBytes a bs d).hlt = d.hlt := by
  induction bs generalizing a d with
  | nil => rfl
  | cons b bs ih =>
    unfold wrBytes
    rw [ih]
    split <;> rfl

/-- Meeting a ceiling counts a pause and leaves the runs and the slots. -/
@[simp] theorem meetCeil_pln_runs (c : Nat) (d : Dev) : (meetCeil c d).pln.runs = d.pln.runs := by
  unfold meetCeil
  split
  · rfl
  · split
    · rfl
    · simp

@[simp] theorem meetCeil_pln_slots (c : Nat) (d : Dev) : (meetCeil c d).pln.slots = d.pln.slots := by
  unfold meetCeil
  split
  · rfl
  · split
    · rfl
    · simp

@[simp] theorem charge_pln_runs (c : Nat) (x : Currency) (n : Nat) (d : Dev) : (charge c x n d).pln.runs = d.pln.runs := by
  unfold charge
  split
  · rw [meetCeil_pln_runs, addF_pln]
  · rfl

@[simp] theorem charge_pln_slots (c : Nat) (x : Currency) (n : Nat) (d : Dev) : (charge c x n d).pln.slots = d.pln.slots := by
  unfold charge
  split
  · rw [meetCeil_pln_slots, addF_pln]
  · rfl

@[simp] theorem recordEvent_sys (source code : Nat) (data : List Byte) (c : Option Nat) (d : Dev) :
    (recordEvent source code data c d).sys = d.sys := by
  unfold recordEvent
  simp only
  split
  · split
    · split
      · simp
      · simp [evLose]
    · split
      · rfl
      · rfl
  · unfold evWrite
    split
    · rfl
    · simp

@[simp] theorem event_sys (source kind : Nat) (items : List Nat) (d : Dev) : (event source kind items d).sys = d.sys := by
  unfold event
  rw [recordEvent_sys]

@[simp] theorem ringMessage_sys (n : Nat) (b : Bool) (d : Dev) : (ringMessage n b d).sys = d.sys := by
  unfold ringMessage
  simp only
  split
  · split
    · split
      · rfl
      · simp
    · simp
  · rfl

@[simp] theorem writeCpl_sys (n : Nat) (c : Cpl) (d : Dev) : (writeCpl n c d).sys = d.sys := by
  unfold writeCpl
  simp only [ringMessage_sys]
  split <;> split <;> split <;> simp

@[simp] theorem postCpl_sys (n : Nat) (c : Cpl) (d : Dev) : (postCpl n c d).sys = d.sys := by
  unfold postCpl
  simp only
  repeat' split
  all_goals simp [ringFails]

@[simp] theorem complete1_sys (c : Cmd) (x : Res) (d : Dev) : (complete1 c x d).sys = d.sys := by
  have h : (countCancelled c.pkt x.status (retire c.id (decide (0x10 ≤ x.status)) d)).sys = d.sys := by
    unfold countCancelled
    repeat' split
    all_goals rfl
  unfold complete1
  simp only
  repeat' split
  all_goals simp [h]

@[simp] theorem releaseFences_sys (n : Nat) (d : Dev) : (releaseFences n d).sys = d.sys := by
  induction n generalizing d with
  | zero => rfl
  | succ n ih =>
    unfold releaseFences
    split
    · rw [ih, complete1_sys]
    · rfl

@[simp] theorem complete_sys (id : Nat) (x : Res) (d : Dev) : (complete id x d).sys = d.sys := by
  unfold complete
  split
  · rfl
  · rw [releaseFences_sys, complete1_sys]

@[simp] theorem recordEvent_mem (source code : Nat) (data : List Byte) (c : Option Nat) (d : Dev) :
    (recordEvent source code data c d).mem = d.mem := by
  unfold recordEvent
  simp only
  split
  · split
    · split
      · simp
      · simp [evLose]
    · split
      · rfl
      · rfl
  · unfold evWrite
    split
    · rfl
    · simp

@[simp] theorem event_mem (source kind : Nat) (items : List Nat) (d : Dev) : (event source kind items d).mem = d.mem := by
  unfold event
  rw [recordEvent_mem]

@[simp] theorem ringMessage_mem (n : Nat) (b : Bool) (d : Dev) : (ringMessage n b d).mem = d.mem := by
  unfold ringMessage
  simp only
  split
  · split
    · split
      · rfl
      · simp
    · simp
  · rfl

@[simp] theorem writeCpl_mem (n : Nat) (c : Cpl) (d : Dev) : (writeCpl n c d).mem = d.mem := by
  unfold writeCpl
  simp only [ringMessage_mem]
  split <;> split <;> split <;> simp

@[simp] theorem postCpl_mem (n : Nat) (c : Cpl) (d : Dev) : (postCpl n c d).mem = d.mem := by
  unfold postCpl
  simp only
  repeat' split
  all_goals simp [ringFails]

@[simp] theorem complete1_mem (c : Cmd) (x : Res) (d : Dev) : (complete1 c x d).mem = d.mem := by
  have h : (countCancelled c.pkt x.status (retire c.id (decide (0x10 ≤ x.status)) d)).mem = d.mem := by
    unfold countCancelled
    repeat' split
    all_goals rfl
  unfold complete1
  simp only
  repeat' split
  all_goals simp [h]

@[simp] theorem releaseFences_mem (n : Nat) (d : Dev) : (releaseFences n d).mem = d.mem := by
  induction n generalizing d with
  | zero => rfl
  | succ n ih =>
    unfold releaseFences
    split
    · rw [ih, complete1_mem]
    · rfl

@[simp] theorem complete_mem (id : Nat) (x : Res) (d : Dev) : (complete id x d).mem = d.mem := by
  unfold complete
  split
  · rfl
  · rw [releaseFences_mem, complete1_mem]

@[simp] theorem recordEvent_tim (source code : Nat) (data : List Byte) (c : Option Nat) (d : Dev) :
    (recordEvent source code data c d).tim = d.tim := by
  unfold recordEvent
  simp only
  split
  · split
    · split
      · simp
      · simp [evLose]
    · split
      · rfl
      · rfl
  · unfold evWrite
    split
    · rfl
    · simp

@[simp] theorem event_tim (source kind : Nat) (items : List Nat) (d : Dev) : (event source kind items d).tim = d.tim := by
  unfold event
  rw [recordEvent_tim]

@[simp] theorem ringMessage_tim (n : Nat) (b : Bool) (d : Dev) : (ringMessage n b d).tim = d.tim := by
  unfold ringMessage
  simp only
  split
  · split
    · split
      · rfl
      · simp
    · simp
  · rfl

@[simp] theorem writeCpl_tim (n : Nat) (c : Cpl) (d : Dev) : (writeCpl n c d).tim = d.tim := by
  unfold writeCpl
  simp only [ringMessage_tim]
  split <;> split <;> split <;> simp

@[simp] theorem postCpl_tim (n : Nat) (c : Cpl) (d : Dev) : (postCpl n c d).tim = d.tim := by
  unfold postCpl
  simp only
  repeat' split
  all_goals simp [ringFails]

@[simp] theorem complete1_tim (c : Cmd) (x : Res) (d : Dev) : (complete1 c x d).tim = d.tim := by
  have h : (countCancelled c.pkt x.status (retire c.id (decide (0x10 ≤ x.status)) d)).tim = d.tim := by
    unfold countCancelled
    repeat' split
    all_goals rfl
  unfold complete1
  simp only
  repeat' split
  all_goals simp [h]

@[simp] theorem releaseFences_tim (n : Nat) (d : Dev) : (releaseFences n d).tim = d.tim := by
  induction n generalizing d with
  | zero => rfl
  | succ n ih =>
    unfold releaseFences
    split
    · rw [ih, complete1_tim]
    · rfl

@[simp] theorem complete_tim (id : Nat) (x : Res) (d : Dev) : (complete id x d).tim = d.tim := by
  unfold complete
  split
  · rfl
  · rw [releaseFences_tim, complete1_tim]

@[simp] theorem recordEvent_mdl (source code : Nat) (data : List Byte) (c : Option Nat) (d : Dev) :
    (recordEvent source code data c d).mdl = d.mdl := by
  unfold recordEvent
  simp only
  split
  · split
    · split
      · simp
      · simp [evLose]
    · split
      · rfl
      · rfl
  · unfold evWrite
    split
    · rfl
    · simp

@[simp] theorem event_mdl (source kind : Nat) (items : List Nat) (d : Dev) : (event source kind items d).mdl = d.mdl := by
  unfold event
  rw [recordEvent_mdl]

@[simp] theorem ringMessage_mdl (n : Nat) (b : Bool) (d : Dev) : (ringMessage n b d).mdl = d.mdl := by
  unfold ringMessage
  simp only
  split
  · split
    · split
      · rfl
      · simp
    · simp
  · rfl

@[simp] theorem writeCpl_mdl (n : Nat) (c : Cpl) (d : Dev) : (writeCpl n c d).mdl = d.mdl := by
  unfold writeCpl
  simp only [ringMessage_mdl]
  split <;> split <;> split <;> simp

@[simp] theorem postCpl_mdl (n : Nat) (c : Cpl) (d : Dev) : (postCpl n c d).mdl = d.mdl := by
  unfold postCpl
  simp only
  repeat' split
  all_goals simp [ringFails]

@[simp] theorem complete1_mdl (c : Cmd) (x : Res) (d : Dev) : (complete1 c x d).mdl = d.mdl := by
  have h : (countCancelled c.pkt x.status (retire c.id (decide (0x10 ≤ x.status)) d)).mdl = d.mdl := by
    unfold countCancelled
    repeat' split
    all_goals rfl
  unfold complete1
  simp only
  repeat' split
  all_goals simp [h]

@[simp] theorem releaseFences_mdl (n : Nat) (d : Dev) : (releaseFences n d).mdl = d.mdl := by
  induction n generalizing d with
  | zero => rfl
  | succ n ih =>
    unfold releaseFences
    split
    · rw [ih, complete1_mdl]
    · rfl

@[simp] theorem complete_mdl (id : Nat) (x : Res) (d : Dev) : (complete id x d).mdl = d.mdl := by
  unfold complete
  split
  · rfl
  · rw [releaseFences_mdl, complete1_mdl]

@[simp] theorem recordEvent_thr (source code : Nat) (data : List Byte) (c : Option Nat) (d : Dev) :
    (recordEvent source code data c d).thr = d.thr := by
  unfold recordEvent
  simp only
  split
  · split
    · split
      · simp
      · simp [evLose]
    · split
      · rfl
      · rfl
  · unfold evWrite
    split
    · rfl
    · simp

@[simp] theorem event_thr (source kind : Nat) (items : List Nat) (d : Dev) : (event source kind items d).thr = d.thr := by
  unfold event
  rw [recordEvent_thr]

@[simp] theorem ringMessage_thr (n : Nat) (b : Bool) (d : Dev) : (ringMessage n b d).thr = d.thr := by
  unfold ringMessage
  simp only
  split
  · split
    · split
      · rfl
      · simp
    · simp
  · rfl

@[simp] theorem writeCpl_thr (n : Nat) (c : Cpl) (d : Dev) : (writeCpl n c d).thr = d.thr := by
  unfold writeCpl
  simp only [ringMessage_thr]
  split <;> split <;> split <;> simp

@[simp] theorem postCpl_thr (n : Nat) (c : Cpl) (d : Dev) : (postCpl n c d).thr = d.thr := by
  unfold postCpl
  simp only
  repeat' split
  all_goals simp [ringFails]

@[simp] theorem complete1_thr (c : Cmd) (x : Res) (d : Dev) : (complete1 c x d).thr = d.thr := by
  have h : (countCancelled c.pkt x.status (retire c.id (decide (0x10 ≤ x.status)) d)).thr = d.thr := by
    unfold countCancelled
    repeat' split
    all_goals rfl
  unfold complete1
  simp only
  repeat' split
  all_goals simp [h]

@[simp] theorem releaseFences_thr (n : Nat) (d : Dev) : (releaseFences n d).thr = d.thr := by
  induction n generalizing d with
  | zero => rfl
  | succ n ih =>
    unfold releaseFences
    split
    · rw [ih, complete1_thr]
    · rfl

@[simp] theorem complete_thr (id : Nat) (x : Res) (d : Dev) : (complete id x d).thr = d.thr := by
  unfold complete
  split
  · rfl
  · rw [releaseFences_thr, complete1_thr]

@[simp] theorem recordEvent_plc (source code : Nat) (data : List Byte) (c : Option Nat) (d : Dev) :
    (recordEvent source code data c d).plc = d.plc := by
  unfold recordEvent
  simp only
  split
  · split
    · split
      · simp
      · simp [evLose]
    · split
      · rfl
      · rfl
  · unfold evWrite
    split
    · rfl
    · simp

@[simp] theorem event_plc (source kind : Nat) (items : List Nat) (d : Dev) : (event source kind items d).plc = d.plc := by
  unfold event
  rw [recordEvent_plc]

@[simp] theorem ringMessage_plc (n : Nat) (b : Bool) (d : Dev) : (ringMessage n b d).plc = d.plc := by
  unfold ringMessage
  simp only
  split
  · split
    · split
      · rfl
      · simp
    · simp
  · rfl

@[simp] theorem writeCpl_plc (n : Nat) (c : Cpl) (d : Dev) : (writeCpl n c d).plc = d.plc := by
  unfold writeCpl
  simp only [ringMessage_plc]
  split <;> split <;> split <;> simp

@[simp] theorem postCpl_plc (n : Nat) (c : Cpl) (d : Dev) : (postCpl n c d).plc = d.plc := by
  unfold postCpl
  simp only
  repeat' split
  all_goals simp [ringFails]

@[simp] theorem complete1_plc (c : Cmd) (x : Res) (d : Dev) : (complete1 c x d).plc = d.plc := by
  have h : (countCancelled c.pkt x.status (retire c.id (decide (0x10 ≤ x.status)) d)).plc = d.plc := by
    unfold countCancelled
    repeat' split
    all_goals rfl
  unfold complete1
  simp only
  repeat' split
  all_goals simp [h]

@[simp] theorem releaseFences_plc (n : Nat) (d : Dev) : (releaseFences n d).plc = d.plc := by
  induction n generalizing d with
  | zero => rfl
  | succ n ih =>
    unfold releaseFences
    split
    · rw [ih, complete1_plc]
    · rfl

@[simp] theorem complete_plc (id : Nat) (x : Res) (d : Dev) : (complete id x d).plc = d.plc := by
  unfold complete
  split
  · rfl
  · rw [releaseFences_plc, complete1_plc]

@[simp] theorem recordEvent_shf (source code : Nat) (data : List Byte) (c : Option Nat) (d : Dev) :
    (recordEvent source code data c d).shf = d.shf := by
  unfold recordEvent
  simp only
  split
  · split
    · split
      · simp
      · simp [evLose]
    · split
      · rfl
      · rfl
  · unfold evWrite
    split
    · rfl
    · simp

@[simp] theorem event_shf (source kind : Nat) (items : List Nat) (d : Dev) : (event source kind items d).shf = d.shf := by
  unfold event
  rw [recordEvent_shf]

@[simp] theorem ringMessage_shf (n : Nat) (b : Bool) (d : Dev) : (ringMessage n b d).shf = d.shf := by
  unfold ringMessage
  simp only
  split
  · split
    · split
      · rfl
      · simp
    · simp
  · rfl

@[simp] theorem writeCpl_shf (n : Nat) (c : Cpl) (d : Dev) : (writeCpl n c d).shf = d.shf := by
  unfold writeCpl
  simp only [ringMessage_shf]
  split <;> split <;> split <;> simp

@[simp] theorem postCpl_shf (n : Nat) (c : Cpl) (d : Dev) : (postCpl n c d).shf = d.shf := by
  unfold postCpl
  simp only
  repeat' split
  all_goals simp [ringFails]

@[simp] theorem complete1_shf (c : Cmd) (x : Res) (d : Dev) : (complete1 c x d).shf = d.shf := by
  have h : (countCancelled c.pkt x.status (retire c.id (decide (0x10 ≤ x.status)) d)).shf = d.shf := by
    unfold countCancelled
    repeat' split
    all_goals rfl
  unfold complete1
  simp only
  repeat' split
  all_goals simp [h]

@[simp] theorem releaseFences_shf (n : Nat) (d : Dev) : (releaseFences n d).shf = d.shf := by
  induction n generalizing d with
  | zero => rfl
  | succ n ih =>
    unfold releaseFences
    split
    · rw [ih, complete1_shf]
    · rfl

@[simp] theorem complete_shf (id : Nat) (x : Res) (d : Dev) : (complete id x d).shf = d.shf := by
  unfold complete
  split
  · rfl
  · rw [releaseFences_shf, complete1_shf]

@[simp] theorem recordEvent_lsq (source code : Nat) (data : List Byte) (c : Option Nat) (d : Dev) :
    (recordEvent source code data c d).lsq = d.lsq := by
  unfold recordEvent
  simp only
  split
  · split
    · split
      · simp
      · simp [evLose]
    · split
      · rfl
      · rfl
  · unfold evWrite
    split
    · rfl
    · simp

@[simp] theorem event_lsq (source kind : Nat) (items : List Nat) (d : Dev) : (event source kind items d).lsq = d.lsq := by
  unfold event
  rw [recordEvent_lsq]

@[simp] theorem ringMessage_lsq (n : Nat) (b : Bool) (d : Dev) : (ringMessage n b d).lsq = d.lsq := by
  unfold ringMessage
  simp only
  split
  · split
    · split
      · rfl
      · simp
    · simp
  · rfl

@[simp] theorem writeCpl_lsq (n : Nat) (c : Cpl) (d : Dev) : (writeCpl n c d).lsq = d.lsq := by
  unfold writeCpl
  simp only [ringMessage_lsq]
  split <;> split <;> split <;> simp

@[simp] theorem postCpl_lsq (n : Nat) (c : Cpl) (d : Dev) : (postCpl n c d).lsq = d.lsq := by
  unfold postCpl
  simp only
  repeat' split
  all_goals simp [ringFails]

@[simp] theorem complete1_lsq (c : Cmd) (x : Res) (d : Dev) : (complete1 c x d).lsq = d.lsq := by
  have h : (countCancelled c.pkt x.status (retire c.id (decide (0x10 ≤ x.status)) d)).lsq = d.lsq := by
    unfold countCancelled
    repeat' split
    all_goals rfl
  unfold complete1
  simp only
  repeat' split
  all_goals simp [h]

@[simp] theorem releaseFences_lsq (n : Nat) (d : Dev) : (releaseFences n d).lsq = d.lsq := by
  induction n generalizing d with
  | zero => rfl
  | succ n ih =>
    unfold releaseFences
    split
    · rw [ih, complete1_lsq]
    · rfl

@[simp] theorem complete_lsq (id : Nat) (x : Res) (d : Dev) : (complete id x d).lsq = d.lsq := by
  unfold complete
  split
  · rfl
  · rw [releaseFences_lsq, complete1_lsq]

@[simp] theorem recordEvent_lch (source code : Nat) (data : List Byte) (c : Option Nat) (d : Dev) :
    (recordEvent source code data c d).lch = d.lch := by
  unfold recordEvent
  simp only
  split
  · split
    · split
      · simp
      · simp [evLose]
    · split
      · rfl
      · rfl
  · unfold evWrite
    split
    · rfl
    · simp

@[simp] theorem event_lch (source kind : Nat) (items : List Nat) (d : Dev) : (event source kind items d).lch = d.lch := by
  unfold event
  rw [recordEvent_lch]

@[simp] theorem ringMessage_lch (n : Nat) (b : Bool) (d : Dev) : (ringMessage n b d).lch = d.lch := by
  unfold ringMessage
  simp only
  split
  · split
    · split
      · rfl
      · simp
    · simp
  · rfl

@[simp] theorem writeCpl_lch (n : Nat) (c : Cpl) (d : Dev) : (writeCpl n c d).lch = d.lch := by
  unfold writeCpl
  simp only [ringMessage_lch]
  split <;> split <;> split <;> simp

@[simp] theorem postCpl_lch (n : Nat) (c : Cpl) (d : Dev) : (postCpl n c d).lch = d.lch := by
  unfold postCpl
  simp only
  repeat' split
  all_goals simp [ringFails]

@[simp] theorem complete1_lch (c : Cmd) (x : Res) (d : Dev) : (complete1 c x d).lch = d.lch := by
  have h : (countCancelled c.pkt x.status (retire c.id (decide (0x10 ≤ x.status)) d)).lch = d.lch := by
    unfold countCancelled
    repeat' split
    all_goals rfl
  unfold complete1
  simp only
  repeat' split
  all_goals simp [h]

@[simp] theorem releaseFences_lch (n : Nat) (d : Dev) : (releaseFences n d).lch = d.lch := by
  induction n generalizing d with
  | zero => rfl
  | succ n ih =>
    unfold releaseFences
    split
    · rw [ih, complete1_lch]
    · rfl

@[simp] theorem complete_lch (id : Nat) (x : Res) (d : Dev) : (complete id x d).lch = d.lch := by
  unfold complete
  split
  · rfl
  · rw [releaseFences_lch, complete1_lch]

@[simp] theorem recordEvent_sec (source code : Nat) (data : List Byte) (c : Option Nat) (d : Dev) :
    (recordEvent source code data c d).sec = d.sec := by
  unfold recordEvent
  simp only
  split
  · split
    · split
      · simp
      · simp [evLose]
    · split
      · rfl
      · rfl
  · unfold evWrite
    split
    · rfl
    · simp

@[simp] theorem event_sec (source kind : Nat) (items : List Nat) (d : Dev) : (event source kind items d).sec = d.sec := by
  unfold event
  rw [recordEvent_sec]

@[simp] theorem ringMessage_sec (n : Nat) (b : Bool) (d : Dev) : (ringMessage n b d).sec = d.sec := by
  unfold ringMessage
  simp only
  split
  · split
    · split
      · rfl
      · simp
    · simp
  · rfl

@[simp] theorem writeCpl_sec (n : Nat) (c : Cpl) (d : Dev) : (writeCpl n c d).sec = d.sec := by
  unfold writeCpl
  simp only [ringMessage_sec]
  split <;> split <;> split <;> simp

@[simp] theorem postCpl_sec (n : Nat) (c : Cpl) (d : Dev) : (postCpl n c d).sec = d.sec := by
  unfold postCpl
  simp only
  repeat' split
  all_goals simp [ringFails]

@[simp] theorem complete1_sec (c : Cmd) (x : Res) (d : Dev) : (complete1 c x d).sec = d.sec := by
  have h : (countCancelled c.pkt x.status (retire c.id (decide (0x10 ≤ x.status)) d)).sec = d.sec := by
    unfold countCancelled
    repeat' split
    all_goals rfl
  unfold complete1
  simp only
  repeat' split
  all_goals simp [h]

@[simp] theorem releaseFences_sec (n : Nat) (d : Dev) : (releaseFences n d).sec = d.sec := by
  induction n generalizing d with
  | zero => rfl
  | succ n ih =>
    unfold releaseFences
    split
    · rw [ih, complete1_sec]
    · rfl

@[simp] theorem complete_sec (id : Nat) (x : Res) (d : Dev) : (complete id x d).sec = d.sec := by
  unfold complete
  split
  · rfl
  · rw [releaseFences_sec, complete1_sec]

@[simp] theorem recordEvent_trl (source code : Nat) (data : List Byte) (c : Option Nat) (d : Dev) :
    (recordEvent source code data c d).trl = d.trl := by
  unfold recordEvent
  simp only
  split
  · split
    · split
      · simp
      · simp [evLose]
    · split
      · rfl
      · rfl
  · unfold evWrite
    split
    · rfl
    · simp

@[simp] theorem event_trl (source kind : Nat) (items : List Nat) (d : Dev) : (event source kind items d).trl = d.trl := by
  unfold event
  rw [recordEvent_trl]

@[simp] theorem ringMessage_trl (n : Nat) (b : Bool) (d : Dev) : (ringMessage n b d).trl = d.trl := by
  unfold ringMessage
  simp only
  split
  · split
    · split
      · rfl
      · simp
    · simp
  · rfl

@[simp] theorem writeCpl_trl (n : Nat) (c : Cpl) (d : Dev) : (writeCpl n c d).trl = d.trl := by
  unfold writeCpl
  simp only [ringMessage_trl]
  split <;> split <;> split <;> simp

@[simp] theorem postCpl_trl (n : Nat) (c : Cpl) (d : Dev) : (postCpl n c d).trl = d.trl := by
  unfold postCpl
  simp only
  repeat' split
  all_goals simp [ringFails]

@[simp] theorem complete1_trl (c : Cmd) (x : Res) (d : Dev) : (complete1 c x d).trl = d.trl := by
  have h : (countCancelled c.pkt x.status (retire c.id (decide (0x10 ≤ x.status)) d)).trl = d.trl := by
    unfold countCancelled
    repeat' split
    all_goals rfl
  unfold complete1
  simp only
  repeat' split
  all_goals simp [h]

@[simp] theorem releaseFences_trl (n : Nat) (d : Dev) : (releaseFences n d).trl = d.trl := by
  induction n generalizing d with
  | zero => rfl
  | succ n ih =>
    unfold releaseFences
    split
    · rw [ih, complete1_trl]
    · rfl

@[simp] theorem complete_trl (id : Nat) (x : Res) (d : Dev) : (complete id x d).trl = d.trl := by
  unfold complete
  split
  · rfl
  · rw [releaseFences_trl, complete1_trl]

@[simp] theorem recordEvent_cap (source code : Nat) (data : List Byte) (c : Option Nat) (d : Dev) :
    (recordEvent source code data c d).cap = d.cap := by
  unfold recordEvent
  simp only
  split
  · split
    · split
      · simp
      · simp [evLose]
    · split
      · rfl
      · rfl
  · unfold evWrite
    split
    · rfl
    · simp

@[simp] theorem event_cap (source kind : Nat) (items : List Nat) (d : Dev) : (event source kind items d).cap = d.cap := by
  unfold event
  rw [recordEvent_cap]

@[simp] theorem ringMessage_cap (n : Nat) (b : Bool) (d : Dev) : (ringMessage n b d).cap = d.cap := by
  unfold ringMessage
  simp only
  split
  · split
    · split
      · rfl
      · simp
    · simp
  · rfl

@[simp] theorem writeCpl_cap (n : Nat) (c : Cpl) (d : Dev) : (writeCpl n c d).cap = d.cap := by
  unfold writeCpl
  simp only [ringMessage_cap]
  split <;> split <;> split <;> simp

@[simp] theorem postCpl_cap (n : Nat) (c : Cpl) (d : Dev) : (postCpl n c d).cap = d.cap := by
  unfold postCpl
  simp only
  repeat' split
  all_goals simp [ringFails]

@[simp] theorem complete1_cap (c : Cmd) (x : Res) (d : Dev) : (complete1 c x d).cap = d.cap := by
  have h : (countCancelled c.pkt x.status (retire c.id (decide (0x10 ≤ x.status)) d)).cap = d.cap := by
    unfold countCancelled
    repeat' split
    all_goals rfl
  unfold complete1
  simp only
  repeat' split
  all_goals simp [h]

@[simp] theorem releaseFences_cap (n : Nat) (d : Dev) : (releaseFences n d).cap = d.cap := by
  induction n generalizing d with
  | zero => rfl
  | succ n ih =>
    unfold releaseFences
    split
    · rw [ih, complete1_cap]
    · rfl

@[simp] theorem complete_cap (id : Nat) (x : Res) (d : Dev) : (complete id x d).cap = d.cap := by
  unfold complete
  split
  · rfl
  · rw [releaseFences_cap, complete1_cap]

@[simp] theorem recordEvent_clp (source code : Nat) (data : List Byte) (c : Option Nat) (d : Dev) :
    (recordEvent source code data c d).clp = d.clp := by
  unfold recordEvent
  simp only
  split
  · split
    · split
      · simp
      · simp [evLose]
    · split
      · rfl
      · rfl
  · unfold evWrite
    split
    · rfl
    · simp

@[simp] theorem event_clp (source kind : Nat) (items : List Nat) (d : Dev) : (event source kind items d).clp = d.clp := by
  unfold event
  rw [recordEvent_clp]

@[simp] theorem ringMessage_clp (n : Nat) (b : Bool) (d : Dev) : (ringMessage n b d).clp = d.clp := by
  unfold ringMessage
  simp only
  split
  · split
    · split
      · rfl
      · simp
    · simp
  · rfl

@[simp] theorem writeCpl_clp (n : Nat) (c : Cpl) (d : Dev) : (writeCpl n c d).clp = d.clp := by
  unfold writeCpl
  simp only [ringMessage_clp]
  split <;> split <;> split <;> simp

@[simp] theorem postCpl_clp (n : Nat) (c : Cpl) (d : Dev) : (postCpl n c d).clp = d.clp := by
  unfold postCpl
  simp only
  repeat' split
  all_goals simp [ringFails]

@[simp] theorem complete1_clp (c : Cmd) (x : Res) (d : Dev) : (complete1 c x d).clp = d.clp := by
  have h : (countCancelled c.pkt x.status (retire c.id (decide (0x10 ≤ x.status)) d)).clp = d.clp := by
    unfold countCancelled
    repeat' split
    all_goals rfl
  unfold complete1
  simp only
  repeat' split
  all_goals simp [h]

@[simp] theorem releaseFences_clp (n : Nat) (d : Dev) : (releaseFences n d).clp = d.clp := by
  induction n generalizing d with
  | zero => rfl
  | succ n ih =>
    unfold releaseFences
    split
    · rw [ih, complete1_clp]
    · rfl

@[simp] theorem complete_clp (id : Nat) (x : Res) (d : Dev) : (complete id x d).clp = d.clp := by
  unfold complete
  split
  · rfl
  · rw [releaseFences_clp, complete1_clp]

@[simp] theorem recordEvent_cle (source code : Nat) (data : List Byte) (c : Option Nat) (d : Dev) :
    (recordEvent source code data c d).cle = d.cle := by
  unfold recordEvent
  simp only
  split
  · split
    · split
      · simp
      · simp [evLose]
    · split
      · rfl
      · rfl
  · unfold evWrite
    split
    · rfl
    · simp

@[simp] theorem event_cle (source kind : Nat) (items : List Nat) (d : Dev) : (event source kind items d).cle = d.cle := by
  unfold event
  rw [recordEvent_cle]

@[simp] theorem ringMessage_cle (n : Nat) (b : Bool) (d : Dev) : (ringMessage n b d).cle = d.cle := by
  unfold ringMessage
  simp only
  split
  · split
    · split
      · rfl
      · simp
    · simp
  · rfl

@[simp] theorem writeCpl_cle (n : Nat) (c : Cpl) (d : Dev) : (writeCpl n c d).cle = d.cle := by
  unfold writeCpl
  simp only [ringMessage_cle]
  split <;> split <;> split <;> simp

@[simp] theorem postCpl_cle (n : Nat) (c : Cpl) (d : Dev) : (postCpl n c d).cle = d.cle := by
  unfold postCpl
  simp only
  repeat' split
  all_goals simp [ringFails]

@[simp] theorem complete1_cle (c : Cmd) (x : Res) (d : Dev) : (complete1 c x d).cle = d.cle := by
  have h : (countCancelled c.pkt x.status (retire c.id (decide (0x10 ≤ x.status)) d)).cle = d.cle := by
    unfold countCancelled
    repeat' split
    all_goals rfl
  unfold complete1
  simp only
  repeat' split
  all_goals simp [h]

@[simp] theorem releaseFences_cle (n : Nat) (d : Dev) : (releaseFences n d).cle = d.cle := by
  induction n generalizing d with
  | zero => rfl
  | succ n ih =>
    unfold releaseFences
    split
    · rw [ih, complete1_cle]
    · rfl

@[simp] theorem complete_cle (id : Nat) (x : Res) (d : Dev) : (complete id x d).cle = d.cle := by
  unfold complete
  split
  · rfl
  · rw [releaseFences_cle, complete1_cle]

@[simp] theorem recordEvent_adc (source code : Nat) (data : List Byte) (c : Option Nat) (d : Dev) :
    (recordEvent source code data c d).adc = d.adc := by
  unfold recordEvent
  simp only
  split
  · split
    · split
      · simp
      · simp [evLose]
    · split
      · rfl
      · rfl
  · unfold evWrite
    split
    · rfl
    · simp

@[simp] theorem event_adc (source kind : Nat) (items : List Nat) (d : Dev) : (event source kind items d).adc = d.adc := by
  unfold event
  rw [recordEvent_adc]

@[simp] theorem ringMessage_adc (n : Nat) (b : Bool) (d : Dev) : (ringMessage n b d).adc = d.adc := by
  unfold ringMessage
  simp only
  split
  · split
    · split
      · rfl
      · simp
    · simp
  · rfl

@[simp] theorem writeCpl_adc (n : Nat) (c : Cpl) (d : Dev) : (writeCpl n c d).adc = d.adc := by
  unfold writeCpl
  simp only [ringMessage_adc]
  split <;> split <;> split <;> simp

@[simp] theorem postCpl_adc (n : Nat) (c : Cpl) (d : Dev) : (postCpl n c d).adc = d.adc := by
  unfold postCpl
  simp only
  repeat' split
  all_goals simp [ringFails]

@[simp] theorem complete1_adc (c : Cmd) (x : Res) (d : Dev) : (complete1 c x d).adc = d.adc := by
  have h : (countCancelled c.pkt x.status (retire c.id (decide (0x10 ≤ x.status)) d)).adc = d.adc := by
    unfold countCancelled
    repeat' split
    all_goals rfl
  unfold complete1
  simp only
  repeat' split
  all_goals simp [h]

@[simp] theorem releaseFences_adc (n : Nat) (d : Dev) : (releaseFences n d).adc = d.adc := by
  induction n generalizing d with
  | zero => rfl
  | succ n ih =>
    unfold releaseFences
    split
    · rw [ih, complete1_adc]
    · rfl

@[simp] theorem complete_adc (id : Nat) (x : Res) (d : Dev) : (complete id x d).adc = d.adc := by
  unfold complete
  split
  · rfl
  · rw [releaseFences_adc, complete1_adc]

@[simp] theorem recordEvent_iox (source code : Nat) (data : List Byte) (c : Option Nat) (d : Dev) :
    (recordEvent source code data c d).iox = d.iox := by
  unfold recordEvent
  simp only
  split
  · split
    · split
      · simp
      · simp [evLose]
    · split
      · rfl
      · rfl
  · unfold evWrite
    split
    · rfl
    · simp

@[simp] theorem event_iox (source kind : Nat) (items : List Nat) (d : Dev) : (event source kind items d).iox = d.iox := by
  unfold event
  rw [recordEvent_iox]

@[simp] theorem ringMessage_iox (n : Nat) (b : Bool) (d : Dev) : (ringMessage n b d).iox = d.iox := by
  unfold ringMessage
  simp only
  split
  · split
    · split
      · rfl
      · simp
    · simp
  · rfl

@[simp] theorem writeCpl_iox (n : Nat) (c : Cpl) (d : Dev) : (writeCpl n c d).iox = d.iox := by
  unfold writeCpl
  simp only [ringMessage_iox]
  split <;> split <;> split <;> simp

@[simp] theorem postCpl_iox (n : Nat) (c : Cpl) (d : Dev) : (postCpl n c d).iox = d.iox := by
  unfold postCpl
  simp only
  repeat' split
  all_goals simp [ringFails]

@[simp] theorem complete1_iox (c : Cmd) (x : Res) (d : Dev) : (complete1 c x d).iox = d.iox := by
  have h : (countCancelled c.pkt x.status (retire c.id (decide (0x10 ≤ x.status)) d)).iox = d.iox := by
    unfold countCancelled
    repeat' split
    all_goals rfl
  unfold complete1
  simp only
  repeat' split
  all_goals simp [h]

@[simp] theorem releaseFences_iox (n : Nat) (d : Dev) : (releaseFences n d).iox = d.iox := by
  induction n generalizing d with
  | zero => rfl
  | succ n ih =>
    unfold releaseFences
    split
    · rw [ih, complete1_iox]
    · rfl

@[simp] theorem complete_iox (id : Nat) (x : Res) (d : Dev) : (complete id x d).iox = d.iox := by
  unfold complete
  split
  · rfl
  · rw [releaseFences_iox, complete1_iox]

@[simp] theorem recordEvent_mtr (source code : Nat) (data : List Byte) (c : Option Nat) (d : Dev) :
    (recordEvent source code data c d).mtr = d.mtr := by
  unfold recordEvent
  simp only
  split
  · split
    · split
      · simp
      · simp [evLose]
    · split
      · rfl
      · rfl
  · unfold evWrite
    split
    · rfl
    · simp

@[simp] theorem event_mtr (source kind : Nat) (items : List Nat) (d : Dev) : (event source kind items d).mtr = d.mtr := by
  unfold event
  rw [recordEvent_mtr]

@[simp] theorem ringMessage_mtr (n : Nat) (b : Bool) (d : Dev) : (ringMessage n b d).mtr = d.mtr := by
  unfold ringMessage
  simp only
  split
  · split
    · split
      · rfl
      · simp
    · simp
  · rfl

@[simp] theorem writeCpl_mtr (n : Nat) (c : Cpl) (d : Dev) : (writeCpl n c d).mtr = d.mtr := by
  unfold writeCpl
  simp only [ringMessage_mtr]
  split <;> split <;> split <;> simp

@[simp] theorem postCpl_mtr (n : Nat) (c : Cpl) (d : Dev) : (postCpl n c d).mtr = d.mtr := by
  unfold postCpl
  simp only
  repeat' split
  all_goals simp [ringFails]

@[simp] theorem complete1_mtr (c : Cmd) (x : Res) (d : Dev) : (complete1 c x d).mtr = d.mtr := by
  have h : (countCancelled c.pkt x.status (retire c.id (decide (0x10 ≤ x.status)) d)).mtr = d.mtr := by
    unfold countCancelled
    repeat' split
    all_goals rfl
  unfold complete1
  simp only
  repeat' split
  all_goals simp [h]

@[simp] theorem releaseFences_mtr (n : Nat) (d : Dev) : (releaseFences n d).mtr = d.mtr := by
  induction n generalizing d with
  | zero => rfl
  | succ n ih =>
    unfold releaseFences
    split
    · rw [ih, complete1_mtr]
    · rfl

@[simp] theorem complete_mtr (id : Nat) (x : Res) (d : Dev) : (complete id x d).mtr = d.mtr := by
  unfold complete
  split
  · rfl
  · rw [releaseFences_mtr, complete1_mtr]

@[simp] theorem recordEvent_can (source code : Nat) (data : List Byte) (c : Option Nat) (d : Dev) :
    (recordEvent source code data c d).can = d.can := by
  unfold recordEvent
  simp only
  split
  · split
    · split
      · simp
      · simp [evLose]
    · split
      · rfl
      · rfl
  · unfold evWrite
    split
    · rfl
    · simp

@[simp] theorem event_can (source kind : Nat) (items : List Nat) (d : Dev) : (event source kind items d).can = d.can := by
  unfold event
  rw [recordEvent_can]

@[simp] theorem ringMessage_can (n : Nat) (b : Bool) (d : Dev) : (ringMessage n b d).can = d.can := by
  unfold ringMessage
  simp only
  split
  · split
    · split
      · rfl
      · simp
    · simp
  · rfl

@[simp] theorem writeCpl_can (n : Nat) (c : Cpl) (d : Dev) : (writeCpl n c d).can = d.can := by
  unfold writeCpl
  simp only [ringMessage_can]
  split <;> split <;> split <;> simp

@[simp] theorem postCpl_can (n : Nat) (c : Cpl) (d : Dev) : (postCpl n c d).can = d.can := by
  unfold postCpl
  simp only
  repeat' split
  all_goals simp [ringFails]

@[simp] theorem complete1_can (c : Cmd) (x : Res) (d : Dev) : (complete1 c x d).can = d.can := by
  have h : (countCancelled c.pkt x.status (retire c.id (decide (0x10 ≤ x.status)) d)).can = d.can := by
    unfold countCancelled
    repeat' split
    all_goals rfl
  unfold complete1
  simp only
  repeat' split
  all_goals simp [h]

@[simp] theorem releaseFences_can (n : Nat) (d : Dev) : (releaseFences n d).can = d.can := by
  induction n generalizing d with
  | zero => rfl
  | succ n ih =>
    unfold releaseFences
    split
    · rw [ih, complete1_can]
    · rfl

@[simp] theorem complete_can (id : Nat) (x : Res) (d : Dev) : (complete id x d).can = d.can := by
  unfold complete
  split
  · rfl
  · rw [releaseFences_can, complete1_can]

@[simp] theorem recordEvent_pav (source code : Nat) (data : List Byte) (c : Option Nat) (d : Dev) :
    (recordEvent source code data c d).pav = d.pav := by
  unfold recordEvent
  simp only
  split
  · split
    · split
      · simp
      · simp [evLose]
    · split
      · rfl
      · rfl
  · unfold evWrite
    split
    · rfl
    · simp

@[simp] theorem event_pav (source kind : Nat) (items : List Nat) (d : Dev) : (event source kind items d).pav = d.pav := by
  unfold event
  rw [recordEvent_pav]

@[simp] theorem ringMessage_pav (n : Nat) (b : Bool) (d : Dev) : (ringMessage n b d).pav = d.pav := by
  unfold ringMessage
  simp only
  split
  · split
    · split
      · rfl
      · simp
    · simp
  · rfl

@[simp] theorem writeCpl_pav (n : Nat) (c : Cpl) (d : Dev) : (writeCpl n c d).pav = d.pav := by
  unfold writeCpl
  simp only [ringMessage_pav]
  split <;> split <;> split <;> simp

@[simp] theorem postCpl_pav (n : Nat) (c : Cpl) (d : Dev) : (postCpl n c d).pav = d.pav := by
  unfold postCpl
  simp only
  repeat' split
  all_goals simp [ringFails]

@[simp] theorem complete1_pav (c : Cmd) (x : Res) (d : Dev) : (complete1 c x d).pav = d.pav := by
  have h : (countCancelled c.pkt x.status (retire c.id (decide (0x10 ≤ x.status)) d)).pav = d.pav := by
    unfold countCancelled
    repeat' split
    all_goals rfl
  unfold complete1
  simp only
  repeat' split
  all_goals simp [h]

@[simp] theorem releaseFences_pav (n : Nat) (d : Dev) : (releaseFences n d).pav = d.pav := by
  induction n generalizing d with
  | zero => rfl
  | succ n ih =>
    unfold releaseFences
    split
    · rw [ih, complete1_pav]
    · rfl

@[simp] theorem complete_pav (id : Nat) (x : Res) (d : Dev) : (complete id x d).pav = d.pav := by
  unfold complete
  split
  · rfl
  · rw [releaseFences_pav, complete1_pav]

@[simp] theorem recordEvent_rtc (source code : Nat) (data : List Byte) (c : Option Nat) (d : Dev) :
    (recordEvent source code data c d).rtc = d.rtc := by
  unfold recordEvent
  simp only
  split
  · split
    · split
      · simp
      · simp [evLose]
    · split
      · rfl
      · rfl
  · unfold evWrite
    split
    · rfl
    · simp

@[simp] theorem event_rtc (source kind : Nat) (items : List Nat) (d : Dev) : (event source kind items d).rtc = d.rtc := by
  unfold event
  rw [recordEvent_rtc]

@[simp] theorem ringMessage_rtc (n : Nat) (b : Bool) (d : Dev) : (ringMessage n b d).rtc = d.rtc := by
  unfold ringMessage
  simp only
  split
  · split
    · split
      · rfl
      · simp
    · simp
  · rfl

@[simp] theorem writeCpl_rtc (n : Nat) (c : Cpl) (d : Dev) : (writeCpl n c d).rtc = d.rtc := by
  unfold writeCpl
  simp only [ringMessage_rtc]
  split <;> split <;> split <;> simp

@[simp] theorem postCpl_rtc (n : Nat) (c : Cpl) (d : Dev) : (postCpl n c d).rtc = d.rtc := by
  unfold postCpl
  simp only
  repeat' split
  all_goals simp [ringFails]

@[simp] theorem complete1_rtc (c : Cmd) (x : Res) (d : Dev) : (complete1 c x d).rtc = d.rtc := by
  have h : (countCancelled c.pkt x.status (retire c.id (decide (0x10 ≤ x.status)) d)).rtc = d.rtc := by
    unfold countCancelled
    repeat' split
    all_goals rfl
  unfold complete1
  simp only
  repeat' split
  all_goals simp [h]

@[simp] theorem releaseFences_rtc (n : Nat) (d : Dev) : (releaseFences n d).rtc = d.rtc := by
  induction n generalizing d with
  | zero => rfl
  | succ n ih =>
    unfold releaseFences
    split
    · rw [ih, complete1_rtc]
    · rfl

@[simp] theorem complete_rtc (id : Nat) (x : Res) (d : Dev) : (complete id x d).rtc = d.rtc := by
  unfold complete
  split
  · rfl
  · rw [releaseFences_rtc, complete1_rtc]

@[simp] theorem recordEvent_hlt (source code : Nat) (data : List Byte) (c : Option Nat) (d : Dev) :
    (recordEvent source code data c d).hlt = d.hlt := by
  unfold recordEvent
  simp only
  split
  · split
    · split
      · simp
      · simp [evLose]
    · split
      · rfl
      · rfl
  · unfold evWrite
    split
    · rfl
    · simp

@[simp] theorem event_hlt (source kind : Nat) (items : List Nat) (d : Dev) : (event source kind items d).hlt = d.hlt := by
  unfold event
  rw [recordEvent_hlt]

@[simp] theorem ringMessage_hlt (n : Nat) (b : Bool) (d : Dev) : (ringMessage n b d).hlt = d.hlt := by
  unfold ringMessage
  simp only
  split
  · split
    · split
      · rfl
      · simp
    · simp
  · rfl

@[simp] theorem writeCpl_hlt (n : Nat) (c : Cpl) (d : Dev) : (writeCpl n c d).hlt = d.hlt := by
  unfold writeCpl
  simp only [ringMessage_hlt]
  split <;> split <;> split <;> simp

@[simp] theorem postCpl_hlt (n : Nat) (c : Cpl) (d : Dev) : (postCpl n c d).hlt = d.hlt := by
  unfold postCpl
  simp only
  repeat' split
  all_goals simp [ringFails]

@[simp] theorem complete1_hlt (c : Cmd) (x : Res) (d : Dev) : (complete1 c x d).hlt = d.hlt := by
  have h : (countCancelled c.pkt x.status (retire c.id (decide (0x10 ≤ x.status)) d)).hlt = d.hlt := by
    unfold countCancelled
    repeat' split
    all_goals rfl
  unfold complete1
  simp only
  repeat' split
  all_goals simp [h]

@[simp] theorem releaseFences_hlt (n : Nat) (d : Dev) : (releaseFences n d).hlt = d.hlt := by
  induction n generalizing d with
  | zero => rfl
  | succ n ih =>
    unfold releaseFences
    split
    · rw [ih, complete1_hlt]
    · rfl

@[simp] theorem complete_hlt (id : Nat) (x : Res) (d : Dev) : (complete id x d).hlt = d.hlt := by
  unfold complete
  split
  · rfl
  · rw [releaseFences_hlt, complete1_hlt]

@[simp] theorem recordEvent_pln_runs (source code : Nat) (data : List Byte) (c : Option Nat) (d : Dev) :
    (recordEvent source code data c d).pln.runs = d.pln.runs := by
  unfold recordEvent
  simp only
  split
  · split
    · split
      · simp
      · simp [evLose]
    · split
      · rfl
      · rfl
  · unfold evWrite
    split
    · rfl
    · simp

@[simp] theorem event_pln_runs (source kind : Nat) (items : List Nat) (d : Dev) : (event source kind items d).pln.runs = d.pln.runs := by
  unfold event
  rw [recordEvent_pln_runs]

@[simp] theorem ringMessage_pln_runs (n : Nat) (b : Bool) (d : Dev) : (ringMessage n b d).pln.runs = d.pln.runs := by
  unfold ringMessage
  simp only
  split
  · split
    · split
      · rfl
      · simp
    · simp
  · rfl

@[simp] theorem writeCpl_pln_runs (n : Nat) (c : Cpl) (d : Dev) : (writeCpl n c d).pln.runs = d.pln.runs := by
  unfold writeCpl
  simp only [ringMessage_pln_runs]
  split <;> split <;> split <;> simp

@[simp] theorem postCpl_pln_runs (n : Nat) (c : Cpl) (d : Dev) : (postCpl n c d).pln.runs = d.pln.runs := by
  unfold postCpl
  simp only
  repeat' split
  all_goals simp [ringFails]

@[simp] theorem complete1_pln_runs (c : Cmd) (x : Res) (d : Dev) : (complete1 c x d).pln.runs = d.pln.runs := by
  have h : (countCancelled c.pkt x.status (retire c.id (decide (0x10 ≤ x.status)) d)).pln.runs = d.pln.runs := by
    unfold countCancelled
    repeat' split
    all_goals rfl
  unfold complete1
  simp only
  repeat' split
  all_goals simp [h]

@[simp] theorem releaseFences_pln_runs (n : Nat) (d : Dev) : (releaseFences n d).pln.runs = d.pln.runs := by
  induction n generalizing d with
  | zero => rfl
  | succ n ih =>
    unfold releaseFences
    split
    · rw [ih, complete1_pln_runs]
    · rfl

@[simp] theorem complete_pln_runs (id : Nat) (x : Res) (d : Dev) : (complete id x d).pln.runs = d.pln.runs := by
  unfold complete
  split
  · rfl
  · rw [releaseFences_pln_runs, complete1_pln_runs]

@[simp] theorem recordEvent_pln_slots (source code : Nat) (data : List Byte) (c : Option Nat) (d : Dev) :
    (recordEvent source code data c d).pln.slots = d.pln.slots := by
  unfold recordEvent
  simp only
  split
  · split
    · split
      · simp
      · simp [evLose]
    · split
      · rfl
      · rfl
  · unfold evWrite
    split
    · rfl
    · simp

@[simp] theorem event_pln_slots (source kind : Nat) (items : List Nat) (d : Dev) : (event source kind items d).pln.slots = d.pln.slots := by
  unfold event
  rw [recordEvent_pln_slots]

@[simp] theorem ringMessage_pln_slots (n : Nat) (b : Bool) (d : Dev) : (ringMessage n b d).pln.slots = d.pln.slots := by
  unfold ringMessage
  simp only
  split
  · split
    · split
      · rfl
      · simp
    · simp
  · rfl

@[simp] theorem writeCpl_pln_slots (n : Nat) (c : Cpl) (d : Dev) : (writeCpl n c d).pln.slots = d.pln.slots := by
  unfold writeCpl
  simp only [ringMessage_pln_slots]
  split <;> split <;> split <;> simp

@[simp] theorem postCpl_pln_slots (n : Nat) (c : Cpl) (d : Dev) : (postCpl n c d).pln.slots = d.pln.slots := by
  unfold postCpl
  simp only
  repeat' split
  all_goals simp [ringFails]

@[simp] theorem complete1_pln_slots (c : Cmd) (x : Res) (d : Dev) : (complete1 c x d).pln.slots = d.pln.slots := by
  have h : (countCancelled c.pkt x.status (retire c.id (decide (0x10 ≤ x.status)) d)).pln.slots = d.pln.slots := by
    unfold countCancelled
    repeat' split
    all_goals rfl
  unfold complete1
  simp only
  repeat' split
  all_goals simp [h]

@[simp] theorem releaseFences_pln_slots (n : Nat) (d : Dev) : (releaseFences n d).pln.slots = d.pln.slots := by
  induction n generalizing d with
  | zero => rfl
  | succ n ih =>
    unfold releaseFences
    split
    · rw [ih, complete1_pln_slots]
    · rfl

@[simp] theorem complete_pln_slots (id : Nat) (x : Res) (d : Dev) : (complete id x d).pln.slots = d.pln.slots := by
  unfold complete
  split
  · rfl
  · rw [releaseFences_pln_slots, complete1_pln_slots]

@[simp] theorem recordEvent_ra_periods (source code : Nat) (data : List Byte) (c : Option Nat) (d : Dev) :
    (recordEvent source code data c d).ra.periods = d.ra.periods := by
  unfold recordEvent
  simp only
  split
  · split
    · split
      · simp
      · simp [evLose]
    · split
      · rfl
      · rfl
  · unfold evWrite
    split
    · rfl
    · simp

@[simp] theorem event_ra_periods (source kind : Nat) (items : List Nat) (d : Dev) : (event source kind items d).ra.periods = d.ra.periods := by
  unfold event
  rw [recordEvent_ra_periods]

@[simp] theorem ringMessage_ra_periods (n : Nat) (b : Bool) (d : Dev) : (ringMessage n b d).ra.periods = d.ra.periods := by
  unfold ringMessage
  simp only
  split
  · split
    · split
      · rfl
      · simp
    · simp
  · rfl

@[simp] theorem writeCpl_ra_periods (n : Nat) (c : Cpl) (d : Dev) : (writeCpl n c d).ra.periods = d.ra.periods := by
  unfold writeCpl
  simp only [ringMessage_ra_periods]
  split <;> split <;> split <;> simp

@[simp] theorem postCpl_ra_periods (n : Nat) (c : Cpl) (d : Dev) : (postCpl n c d).ra.periods = d.ra.periods := by
  unfold postCpl
  simp only
  repeat' split
  all_goals simp [ringFails]

@[simp] theorem complete1_ra_periods (c : Cmd) (x : Res) (d : Dev) : (complete1 c x d).ra.periods = d.ra.periods := by
  have h : (countCancelled c.pkt x.status (retire c.id (decide (0x10 ≤ x.status)) d)).ra.periods = d.ra.periods := by
    unfold countCancelled
    repeat' split
    all_goals rfl
  unfold complete1
  simp only
  repeat' split
  all_goals simp [h]

@[simp] theorem releaseFences_ra_periods (n : Nat) (d : Dev) : (releaseFences n d).ra.periods = d.ra.periods := by
  induction n generalizing d with
  | zero => rfl
  | succ n ih =>
    unfold releaseFences
    split
    · rw [ih, complete1_ra_periods]
    · rfl

@[simp] theorem complete_ra_periods (id : Nat) (x : Res) (d : Dev) : (complete id x d).ra.periods = d.ra.periods := by
  unfold complete
  split
  · rfl
  · rw [releaseFences_ra_periods, complete1_ra_periods]

end Sys2Proof.Machine
end

