-- ==== Sys2Proof/Laws/Packet.lean ====
section
/-!
SUPPORT. What a packet row does when its packet starts, does not start, or is refused.
-/

namespace Sys2Proof.Machine

theorem placeEntry_nextId (p : Pkt) (d : Dev) : (placeEntry p d).cmd.nextId = d.cmd.nextId := by
  rw [placeEntry, wrBytes_cmd]
  rfl

theorem stageMirror_nextId (sp : OpSpec) (p : Pkt) (d : Dev) : (stageMirror sp p d).cmd.nextId = d.cmd.nextId := by
  unfold stageMirror
  dsimp only
  split <;> rfl

theorem mirrored_eq (sp : OpSpec) (eff : Nat → Pkt → Dev → Dev) (id : Nat) (p : Pkt) (d : Dev) :
    mirrored sp eff id p d = eff id p (mirrored sp (fun _ _ d => d) 0 p d) := by
  unfold mirrored
  split <;> rfl

/-- A packet that starts runs its row's own effect on the device as it stands then. -/
theorem packetRow_starts (sp : OpSpec) (eff : Nat → Pkt → Dev → Dev) (p : Pkt) (s : State) (h : starts sp p s = true) :
    packetRow sp eff p s = .next (settle s (eff s.dev.cmd.nextId p (begun sp p s))) := by
  simp only [starts, reaches, Bool.and_eq_true, decide_eq_true_eq, Bool.not_eq_true', Option.isNone_iff_eq_none] at h
  obtain ⟨⟨⟨⟨⟨⟨ht, h0⟩, hf⟩, hl⟩, ho⟩, ha⟩, hw⟩ := h
  have hid : (placeEntry p (stageMirror sp p s.dev)).cmd.nextId = s.dev.cmd.nextId := by
    rw [placeEntry_nextId, stageMirror_nextId]
  have hgo : runPacket sp (mirrored sp eff) p (stageMirror sp p s.dev) = eff s.dev.cmd.nextId p (begun sp p s) := by
    simp only [placed] at hf hl
    simp only [fetched, placed] at ha
    simp only [waitsLaunch, decide_eq_false_iff_not] at hw
    unfold runPacket startCmd
    simp only [ht, h0, hf, hl, ho, ha, hid, Bool.not_true, Bool.false_eq_true, if_false, ne_eq, not_true_eq_false, or_self]
    rw [if_neg hw, mirrored_eq]
    rfl
  simp only [packetRow, hgo]

end Sys2Proof.Machine
end

