-- ==== Sys2Proof/Laws/Runs.lean ====
section
/-!
SUPPORT. Reading a run of memory: a buffer in DRAM that the command has not written reads as one pass over the listed bytes.
-/

namespace Sys2Proof.Machine

/-- The bytes of a sorted memory from `a` on, read in one pass. -/
def readRun : List Host.Cell → Nat → Nat → List Byte
  | _, _, 0 => []
  | [], a, n + 1 => memDefault :: readRun [] (a + 1) n
  | (k, v) :: m, a, n + 1 => if a = k then v :: readRun m (a + 1) n else memDefault :: readRun ((k, v) :: m) (a + 1) n

theorem smGet_tail {m : List Host.Cell} {k a : Nat} {v : Byte} (h : k < a) :
    smGet memDefault ((k, v) :: m) a = smGet memDefault m a := by
  simp only [smGet]
  rw [if_neg (by omega), if_neg (by omega)]

theorem smAbove_lt {m : List Host.Cell} {b : Nat} (h : smAbove (some b) m = true) : ∀ c ∈ m, b < c.1 := by
  induction m generalizing b with
  | nil => intro c hc; cases hc
  | cons kv m ih =>
    simp only [smAbove, Bool.and_eq_true, decide_eq_true_eq] at h
    intro c hc
    rcases List.mem_cons.mp hc with h1 | h1
    · subst h1; exact h.1
    · exact Nat.lt_trans h.1 (ih h.2 c h1)

/-- Reading a run address by address gives the pass over it, where no listed key lies below the run. -/
theorem readRun_eq (m : List Host.Cell) (a n : Nat) (hs : smAbove none m = true) (hm : ∀ c ∈ m, a ≤ c.1) :
    (List.range n).map (fun i => smGet memDefault m (a + i)) = readRun m a n := by
  induction n generalizing a m with
  | zero => cases m <;> rfl
  | succ n ih =>
    rw [List.range_succ_eq_map, List.map_cons, List.map_map]
    cases m with
    | nil =>
      simp only [readRun]
      rw [← ih [] (a + 1) rfl (by simp)]
      rfl
    | cons c m =>
      obtain ⟨k, v⟩ := c
      have hk : a ≤ k := hm (k, v) (by simp)
      have hs' : smAbove (some k) m = true := hs
      simp only [readRun]
      split
      · rename_i h
        subst h
        rw [← ih m (a + 1) (smAbove_none hs') (fun c hc => smAbove_lt hs' c hc)]
        congr 1
        · simp [smGet]
        · apply List.map_congr_left
          intro i _
          show smGet memDefault ((a, v) :: m) (a + (i + 1)) = _
          rw [smGet_tail (by omega)]
          congr 1
          omega
      · rename_i h
        rw [← ih ((k, v) :: m) (a + 1) hs (by
          intro c hc
          rcases List.mem_cons.mp hc with h1 | h1
          · subst h1; show a + 1 ≤ k; omega
          · have := smAbove_lt hs' c h1; omega)]
        congr 1
        · show smGet memDefault ((k, v) :: m) (a + 0) = _
          simp only [smGet]
          rw [if_neg (by omega), if_pos (by omega)]
        · apply List.map_congr_left
          intro i _
          show smGet memDefault ((k, v) :: m) (a + (i + 1)) = _
          congr 1
          omega

/-- A log that names none of the run's addresses. -/
theorem logFind_none {l : List (Nat × Byte)} {a : Nat} (h : ∀ w ∈ l, w.1 ≠ a) : logFind l a = none := by
  induction l with
  | nil => rfl
  | cons w l ih =>
    simp only [logFind]
    rw [if_neg (h w (by simp)), ih (fun x hx => h x (by simp [hx]))]

/-- An address of the DRAM below the tentative areas stands for itself. -/
theorem target_dram {d : Dev} {a : Nat} (h : a < 0x34000000) : target d a = .key a := by
  unfold target
  rw [if_neg (by omega), if_neg (by omega), if_neg (by omega)]
  unfold ownTarget
  rw [if_pos (by omega)]
  unfold tentTarget
  rw [if_neg (by omega), if_neg (by omega)]

/-- A run of device memory below the tentative areas, untouched by the command, reads as one pass over memory. -/
theorem rdBytes_run {d : Dev} {a n : Nat} (ha : a + n ≤ 0x34000000) (hw : ∀ w ∈ d.wr, w.1 < a ∨ a + n ≤ w.1)
    (hs : smAbove none d.mem = true) (hm : ∀ c ∈ d.mem, a ≤ c.1) : rdBytes d a n = readRun d.mem a n := by
  rw [← readRun_eq d.mem a n hs hm]
  clear hm
  induction n generalizing a with
  | zero => rfl
  | succ n ih =>
    rw [List.range_succ_eq_map, List.map_cons, List.map_map]
    simp only [rdBytes]
    have ht : target d a = .key a := target_dram (by omega)
    have hr : rdB d a = smGet memDefault d.mem a := by
      unfold rdB
      rw [logFind_none (fun w h => by rcases hw w h with h1 | h1 <;> omega)]
    rw [ht, ih (by omega) (fun w h => by rcases hw w h with h1 | h1 <;> omega)]
    congr 1
    apply List.map_congr_left
    intro i _
    show smGet memDefault d.mem (a + 1 + i) = smGet memDefault d.mem (a + (i + 1))
    congr 1
    omega

end Sys2Proof.Machine
end

