-- ==== Sys2Proof/Laws/Settle.lean ====
section
/-!
SUPPORT. The end of a command: what becomes of the queue, the write log, memory and the tables; every row of the command
table ends in it.
-/

namespace Sys2Proof.Machine

@[simp] theorem settle_pending (s : State) (d : Dev) : (settle s d).pending = s.pending := rfl
@[simp] theorem settle_wr (s : State) (d : Dev) : (settle s d).dev.wr = [] := rfl

/-- Committing a log keeps the canonical form. -/
theorem memCommit_wf (m : List Host.Cell) (log : List (Nat × Byte)) (h : Memory.wf m = true) :
    Memory.wf (memCommit m log) = true := by
  induction log with
  | nil => exact h
  | cons w log ih => exact smSet_wf ih

/-- Committed memory reads as the newest entry of the log, or as before. -/
theorem memCommit_get (m : List Host.Cell) (log : List (Nat × Byte)) (a : Nat) (h : Memory.wf m = true) :
    smGet memDefault (memCommit m log) a = (logFind log a).getD (smGet memDefault m a) := by
  induction log with
  | nil => rfl
  | cons w log ih =>
    have hw := memCommit_wf m log h
    have hs : smAbove none (memCommit m log) = true := by
      have := hw
      simp only [Memory.wf, smWf, Bool.and_eq_true] at this
      exact this.1
    show smGet memDefault (smSet memDefault (memCommit m log) w.1 w.2) a = _
    by_cases hk : w.1 = a
    · subst hk
      rw [smGet_smSet_same hs]
      simp [logFind]
    · rw [smGet_smSet_ne hs (fun hq => hk hq.symm), ih]
      simp [logFind, hk]

theorem settle_mem_wf (s : State) (d : Dev) (h : Memory.wf s.dev.mem = true) : Memory.wf (settle s d).dev.mem = true :=
  memCommit_wf _ _ h

theorem settle_present_wf (s : State) (d : Dev) : smWf none (settle s d).dev.rg.present = true := smNorm_wf _
theorem settle_applied_wf (s : State) (d : Dev) : smWf none (settle s d).dev.rg.applied = true := smNorm_wf _
theorem settle_rings_wf (s : State) (d : Dev) : smWf Ring.reset (settle s d).dev.cmd.rings = true := smNorm_wf _

theorem settle_inv (s : State) (d : Dev) (h : Inv s) : Inv (settle s d) :=
  ⟨settle_mem_wf s d h.1, rfl, settle_present_wf s d, settle_applied_wf s d, settle_rings_wf s d⟩

/-- With no RING_RESET under way and nothing written to the register mirror, the end of a command only commits the log. -/
theorem settle_plain (s : State) (d : Dev) (hr : d.cmd.resetting = []) (hw : ∀ w ∈ d.wr, w.1 < mirrorIn) :
    settle s d = { s with
      dev := { d with
        mem := memCommit s.dev.mem d.wr
        wr := []
        rg.present := smNorm none d.rg.present
        rg.applied := smNorm none d.rg.applied
        cmd.rings := smNorm Ring.reset d.cmd.rings } } := by
  have h1 : d.wr.filter (fun w => decide (mirrorOut ≤ w.1)) = [] := by
    apply List.filter_eq_nil_iff.mpr
    intro w hm
    have := hw w hm
    simp only [decide_eq_true_eq, Nat.not_le]
    exact Nat.lt_trans this (by decide)
  have h2 : d.wr.filter (fun w => decide (w.1 < mirrorIn)) = d.wr := by
    apply List.filter_eq_self.mpr
    intro w hm
    simpa using hw w hm
  have h3 : ∀ e : Dev, e.cmd.resetting = [] → finishResets e = e := by
    intro e he
    unfold finishResets
    rw [he]
    rfl
  have h4 : finishResets (mirrorWrites 0 [] { d with wr := d.wr }) = d := h3 d hr
  unfold settle
  rw [h1, h2]
  simp only [List.reverse_nil, List.map_nil, List.length_nil]
  rw [h4, h2]

/-- A row that acts on the device settles. -/
theorem devRow_settles (f : Dev → Dev) (s : State) : ∃ d, devRow f s = .next (settle s d) := ⟨_, rfl⟩
theorem upRow_settles (f : Dev → Dev) (s : State) : ∃ d, upRow f s = .next (settle s d) := ⟨_, rfl⟩
theorem packetRow_settles (sp : OpSpec) (eff : Nat → Pkt → Dev → Dev) (p : Pkt) (s : State) :
    ∃ d, packetRow sp eff p s = .next (settle s d) := ⟨_, rfl⟩

/-- A register or pin row on a device that can be reached. -/
theorem upRow_up {f : Dev → Dev} {s : State} (h : reachable s.dev = true) : upRow f s = .next (settle s (f s.dev)) := by
  simp only [upRow, devRow, whenUp, h, if_true]

end Sys2Proof.Machine
end

