-- ==== Sys2Proof/WellFormed.lean ====
section
/-!
DEFINITION. Which terms of `Instr` the outside can send: a packet carries its row's opcode, an operand lies in the range that
spec/ gives it. A meaning is total on every term; well-formedness says which terms spell a row.
-/

namespace Sys2Proof

/-- Bytes of Base Address Register 0 (R40). -/
def barSize : Nat := 0x2000000

/-- An aligned offset of Base Address Register 0 (R81). -/
def offsetOk (o : Nat) : Bool := decide (o < barSize ∧ o % 4 = 0)

/-- A PTP header (R325): one of four ports, an 8-bit domain, a 64-bit clock identity, 16-bit numbers. -/
def hdrOk (h : PtpHdr) : Bool :=
  decide (h.port < 4 ∧ h.domain < 256 ∧ h.src < 2 ^ 64 ∧ h.srcPort < 0x10000 ∧ h.seq < 0x10000)

/-- What a start finds: at most one result for each of the 34 clusters, slots 2–255 of the Silo (R189, R446). -/
def bootOk (e : BootEnv) : Bool :=
  decide (e.tests.length ≤ 34) && e.badSlots.all (fun k => decide (2 ≤ k ∧ k < 256))

/-- The opcode of a packet row and the packet it carries (spec/02_command_interface.md R66 and the owning chapters). -/
def Instr.packet : Instr → Option (Nat × Pkt)
  | .identify p => some (0x0001, p)
  | .getMode p => some (0x0002, p)
  | .setMode p => some (0x0003, p)
  | .readState p => some (0x0004, p)
  | .fence p => some (0x0005, p)
  | .echo p => some (0x0006, p)
  | .getCounters p => some (0x0007, p)
  | .setFrame p => some (0x0008, p)
  | .ringConfig p => some (0x0101, p)
  | .ringReset p => some (0x0102, p)
  | .classBudget p => some (0x0103, p)
  | .classQuery p => some (0x0104, p)
  | .modelWriteObjects p => some (0x0201, p)
  | .modelWriteMeas p => some (0x0202, p)
  | .modelCommit p => some (0x0203, p)
  | .modelRead p => some (0x0204, p)
  | .modelDiscard p => some (0x0205, p)
  | .measWriteValues p => some (0x0206, p)
  | .modelSignature p => some (0x0207, p)
  | .planLoad p => some (0x0301, p)
  | .planUnload p => some (0x0302, p)
  | .planQuery p => some (0x0303, p)
  | .planBound p => some (0x0304, p)
  | .planPolicy p => some (0x0305, p)
  | .placeQuery p => some (0x0401, p)
  | .placeRebuild p => some (0x0402, p)
  | .placePredict p => some (0x0403, p)
  | .sheafSubmit p => some (0x0501, p)
  | .sheafCancel p => some (0x0502, p)
  | .sheafQuery p => some (0x0503, p)
  | .lsqSubmit p => some (0x0601, p)
  | .lsqCancel p => some (0x0602, p)
  | .lsqQuery p => some (0x0603, p)
  | .raConfig p => some (0x0701, p)
  | .raInputs p => some (0x0702, p)
  | .raForecast p => some (0x0703, p)
  | .raExtrapolate p => some (0x0704, p)
  | .raSquash p => some (0x0705, p)
  | .raQuery p => some (0x0706, p)
  | .loopWrite p => some (0x0801, p)
  | .loopRetune p => some (0x0802, p)
  | .loopEnable p => some (0x0803, p)
  | .spWrite p => some (0x0804, p)
  | .spMap p => some (0x0805, p)
  | .spPublish p => some (0x0806, p)
  | .traceArm p => some (0x0807, p)
  | .traceRead p => some (0x0808, p)
  | .logicLoad p => some (0x0901, p)
  | .logicWordWrite p => some (0x0902, p)
  | .logicPatch p => some (0x0903, p)
  | .logicVarsWrite p => some (0x0904, p)
  | .logicClear p => some (0x0905, p)
  | .logicAck p => some (0x0906, p)
  | .logicRead p => some (0x0907, p)
  | .adcStart p => some (0x0A01, p)
  | .windowArm p => some (0x0A02, p)
  | .windowDisarm p => some (0x0A03, p)
  | .mtrPreset p => some (0x0B01, p)
  | .mtrHeatTable p => some (0x0B02, p)
  | .mtrSave p => some (0x0B03, p)
  | .mtrEventWait p => some (0x0B04, p)
  | .mtrEventRead p => some (0x0B05, p)
  | .mtrEventDisarm p => some (0x0B06, p)
  | .canFields p => some (0x0C01, p)
  | .canWait p => some (0x0C02, p)
  | .canDisarm p => some (0x0C03, p)
  | .canRecover p => some (0x0C04, p)
  | .timeRead p => some (0x0D01, p)
  | .timeSet p => some (0x0D02, p)
  | .timeAccept p => some (0x0D03, p)
  | .ptpStatus p => some (0x0D04, p)
  | .substWrite p => some (0x0D05, p)
  | .launchQueue p => some (0x0D06, p)
  | .launchCancel p => some (0x0D07, p)
  | .trlQuery p => some (0x0E01, p)
  | .redFailover p => some (0x0E02, p)
  | .redRevertNow p => some (0x0E03, p)
  | .redResync p => some (0x0E04, p)
  | .grnQuery p => some (0x0F01, p)
  | .grnCompact p => some (0x0F02, p)
  | .grnSnapshot p => some (0x0F03, p)
  | .grnModelRestore p => some (0x0F04, p)
  | .grnFwWrite p => some (0x0F05, p)
  | .evrRead p => some (0x0F06, p)
  | .evrClear p => some (0x0F07, p)
  | .evrLog p => some (0x0F08, p)
  | .secGenerate p => some (0x1001, p)
  | .secImport p => some (0x1002, p)
  | .secExport p => some (0x1003, p)
  | .secDelete p => some (0x1004, p)
  | .secDerive p => some (0x1005, p)
  | .secCipher p => some (0x1006, p)
  | .secSign p => some (0x1007, p)
  | .secVerify p => some (0x1008, p)
  | .secAttest p => some (0x1009, p)
  | .secPubkey p => some (0x100A, p)
  | .secRandom p => some (0x100B, p)
  | .pavDraw p => some (0x1101, p)
  | .pavFlip p => some (0x1102, p)
  | .pavStressRead p => some (0x1103, p)
  | .pavStressPreset p => some (0x1104, p)
  | .rtcSet p => some (0x1201, p)
  | .rtcAlarm p => some (0x1202, p)
  | .rtcUnlock p => some (0x1203, p)
  | .rtcTrim p => some (0x1204, p)
  | .hltRefresh p => some (0x1205, p)
  | .hltBatTest p => some (0x1206, p)
  | .sqTailDoorbell _ _ => none
  | .cqHeadWrite _ _ => none
  | .updateStrobe => none
  | .updateStrobeImmediate => none
  | .commitAtStrobe => none
  | .commitNow => none
  | .captureNextPass => none
  | .winBaseWrite _ => none
  | .hostBaseWrite _ => none
  | .rcClearingRead _ => none
  | .latchingRead _ => none
  | .postedWrite _ _ => none
  | .postedWriteLands _ => none
  | .rtcCommitDatetime => none
  | .rtcCommitAlarm => none
  | .rtcCommitCtl => none
  | .rtcUnlockKey => none
  | .canLockBuffer _ _ => none
  | .canReleaseBuffer _ _ => none
  | .canFifoPop _ _ => none
  | .canTxreqWrite _ _ _ => none
  | .canTxabortWrite _ _ _ => none
  | .canBoffRecover _ _ => none
  | .adcStartWrite _ => none
  | .timAlarmArm _ _ => none
  | .gpioOutWrite _ _ => none
  | .registerWrite _ _ => none
  | .irregularRegisterAccess _ _ _ => none
  | .bar2Access _ _ _ _ => none
  | .spiWrite _ _ => none
  | .spiRead _ _ => none
  | .spiStatus => none
  | .spiUnknownInstruction => none
  | .functionLevelReset => none
  | .ringTransferFailure _ _ => none
  | .msixModerationExpiry _ => none
  | .launchTimedCommandStart => none
  | .powerOnReset => none
  | .mainSupplyLoss => none
  | .resetNAssert => none
  | .resetNRelease _ => none
  | .lockstepDivergence _ => none
  | .watchdogExpiry _ => none
  | .pfailNLatch => none
  | .pfailNRelease _ => none
  | .referenceLoss => none
  | .referenceRelock => none
  | .frameBoundary _ _ _ => none
  | .rePlacement => none
  | .shareRerun _ _ => none
  | .reSolveStart _ => none
  | .guardPass _ => none
  | .paceWindowEnd _ => none
  | .avsResponse _ => none
  | .governorRepeat => none
  | .governorLower => none
  | .fabricRunStart _ => none
  | .deadlineReached _ => none
  | .sheafStatusPhase _ => none
  | .lsqStatusPhase _ => none
  | .fabricNop _ => none
  | .loopBegin _ => none
  | .loopTest _ => none
  | .loopEnd _ => none
  | .copy _ => none
  | .fill _ => none
  | .gatherMeas _ => none
  | .publish _ => none
  | .axpy _ => none
  | .dot _ => none
  | .gemv _ => none
  | .gemm _ => none
  | .syrk _ => none
  | .bpotrf _ => none
  | .bldlt _ => none
  | .bgetrf _ => none
  | .bgeqrf _ => none
  | .btrs _ => none
  | .bresid _ => none
  | .bperm _ => none
  | .bqrApply _ => none
  | .potrf _ => none
  | .trs _ => none
  | .jacEval _ => none
  | .jtwj _ => none
  | .blockElim _ => none
  | .blockBack _ => none
  | .lmDampDamp _ => none
  | .lmDampDecide _ => none
  | .boxProject _ => none
  | .extrapolate _ => none
  | .tolCompare _ => none
  | .knownAnswer _ _ _ _ => none
  | .logicScanStart _ => none
  | .logicScanResume _ => none
  | .logicScanOverrun => none
  | .loopSample => none
  | .launchFire => none
  | .setpointRepeatSend => none
  | .pwmPeriodStart _ => none
  | .pulseOutputPulse _ => none
  | .pulseInputEdge _ _ => none
  | .holdNChange _ _ => none
  | .adcTriggerTimer _ => none
  | .adcSequenceRequest => none
  | .adcConversionComplete _ _ _ _ => none
  | .mtrSample _ => none
  | .pseudoCycle _ => none
  | .zeroCrossingLoss _ => none
  | .mtrTempRead _ => none
  | .heatCircuitCompute _ => none
  | .periodicSave => none
  | .meteringPulseDue _ => none
  | .canFrameReceived _ _ _ _ _ _ _ => none
  | .canFrameTransmitted _ _ _ _ _ _ => none
  | .canRecoveryComplete _ => none
  | .canTimingTakeup _ => none
  | .sync _ _ _ _ => none
  | .followUp _ _ _ => none
  | .announce _ _ _ _ _ _ _ _ => none
  | .announceReceiptTimeout _ => none
  | .delayReq _ => none
  | .delayResp _ _ _ => none
  | .pdelayReq _ _ => none
  | .pdelayResp _ _ => none
  | .ptpMessageTransmit _ _ => none
  | .arpRequest _ _ _ => none
  | .telemetryDatagram _ _ _ _ _ => none
  | .ethernetFrameDrop _ _ => none
  | .timeAlarm _ => none
  | .enumInFall _ => none
  | .trellisLinkTrained _ => none
  | .trellisCrcFailure _ _ => none
  | .timeMark _ _ _ => none
  | .healthReportSend => none
  | .healthReport _ _ _ _ => none
  | .healthReportMissed _ => none
  | .leaseLapse => none
  | .forwardedLaunch _ => none
  | .mirrorFastPart _ _ _ _ _ => none
  | .mirrorBulkPart _ => none
  | .mirrorLate _ => none
  | .syncImage _ => none
  | .windowTraffic _ _ _ _ => none
  | .takeover => none
  | .revertRequest => none
  | .handoverRelease => none
  | .handover _ => none
  | .journalAppendCommit => none
  | .appendWaitTimeout => none
  | .checkpointDue => none
  | .checkpointComplete => none
  | .eventRecord => none
  | .remaskPass => none
  | .entropyTestFailure => none
  | .drbgReseed => none
  | .panelFrameStart => none
  | .panelLine => none
  | .stressJournal => none
  | .rtcSecond => none
  | .trimCorrection => none
  | .oscStopDetect => none
  | .interfaceLock _ => none
  | .switchToVbat => none
  | .switchBackToVaon => none
  | .alwaysOnReset => none
  | .unlockReady => none
  | .healthRecord => none
  | .batLoadTestEnd _ _ => none
  | .spiWriteLands => none
  | .canBusIntegration _ => none
  | .ethernetLinkChange _ _ => none
  | .nandBlockRetirement _ => none
  | .recorderStateAppend => none

/-- The operands of the other rows lie in their ranges. -/
def Instr.operandsOk : Instr → Bool
  | .identify _ => true
  | .getMode _ => true
  | .setMode _ => true
  | .readState _ => true
  | .fence _ => true
  | .echo _ => true
  | .getCounters _ => true
  | .setFrame _ => true
  | .ringConfig _ => true
  | .ringReset _ => true
  | .classBudget _ => true
  | .classQuery _ => true
  | .modelWriteObjects _ => true
  | .modelWriteMeas _ => true
  | .modelCommit _ => true
  | .modelRead _ => true
  | .modelDiscard _ => true
  | .measWriteValues _ => true
  | .modelSignature _ => true
  | .planLoad _ => true
  | .planUnload _ => true
  | .planQuery _ => true
  | .planBound _ => true
  | .planPolicy _ => true
  | .placeQuery _ => true
  | .placeRebuild _ => true
  | .placePredict _ => true
  | .sheafSubmit _ => true
  | .sheafCancel _ => true
  | .sheafQuery _ => true
  | .lsqSubmit _ => true
  | .lsqCancel _ => true
  | .lsqQuery _ => true
  | .raConfig _ => true
  | .raInputs _ => true
  | .raForecast _ => true
  | .raExtrapolate _ => true
  | .raSquash _ => true
  | .raQuery _ => true
  | .loopWrite _ => true
  | .loopRetune _ => true
  | .loopEnable _ => true
  | .spWrite _ => true
  | .spMap _ => true
  | .spPublish _ => true
  | .traceArm _ => true
  | .traceRead _ => true
  | .logicLoad _ => true
  | .logicWordWrite _ => true
  | .logicPatch _ => true
  | .logicVarsWrite _ => true
  | .logicClear _ => true
  | .logicAck _ => true
  | .logicRead _ => true
  | .adcStart _ => true
  | .windowArm _ => true
  | .windowDisarm _ => true
  | .mtrPreset _ => true
  | .mtrHeatTable _ => true
  | .mtrSave _ => true
  | .mtrEventWait _ => true
  | .mtrEventRead _ => true
  | .mtrEventDisarm _ => true
  | .canFields _ => true
  | .canWait _ => true
  | .canDisarm _ => true
  | .canRecover _ => true
  | .timeRead _ => true
  | .timeSet _ => true
  | .timeAccept _ => true
  | .ptpStatus _ => true
  | .substWrite _ => true
  | .launchQueue _ => true
  | .launchCancel _ => true
  | .trlQuery _ => true
  | .redFailover _ => true
  | .redRevertNow _ => true
  | .redResync _ => true
  | .grnQuery _ => true
  | .grnCompact _ => true
  | .grnSnapshot _ => true
  | .grnModelRestore _ => true
  | .grnFwWrite _ => true
  | .evrRead _ => true
  | .evrClear _ => true
  | .evrLog _ => true
  | .secGenerate _ => true
  | .secImport _ => true
  | .secExport _ => true
  | .secDelete _ => true
  | .secDerive _ => true
  | .secCipher _ => true
  | .secSign _ => true
  | .secVerify _ => true
  | .secAttest _ => true
  | .secPubkey _ => true
  | .secRandom _ => true
  | .pavDraw _ => true
  | .pavFlip _ => true
  | .pavStressRead _ => true
  | .pavStressPreset _ => true
  | .rtcSet _ => true
  | .rtcAlarm _ => true
  | .rtcUnlock _ => true
  | .rtcTrim _ => true
  | .hltRefresh _ => true
  | .hltBatTest _ => true
  | .sqTailDoorbell _ _ => true
  | .cqHeadWrite _ _ => true
  | .updateStrobe => true
  | .updateStrobeImmediate => true
  | .commitAtStrobe => true
  | .commitNow => true
  | .captureNextPass => true
  | .winBaseWrite _ => true
  | .hostBaseWrite _ => true
  | .rcClearingRead o => offsetOk o
  | .latchingRead o => offsetOk o
  | .postedWrite o _ => offsetOk o
  | .postedWriteLands b => decide (b < 16)
  | .rtcCommitDatetime => true
  | .rtcCommitAlarm => true
  | .rtcCommitCtl => true
  | .rtcUnlockKey => true
  | .canLockBuffer _ _ => true
  | .canReleaseBuffer _ _ => true
  | .canFifoPop _ _ => true
  | .canTxreqWrite _ _ _ => true
  | .canTxabortWrite _ _ _ => true
  | .canBoffRecover _ _ => true
  | .adcStartWrite _ => true
  | .timAlarmArm _ _ => true
  | .gpioOutWrite _ _ => true
  | .registerWrite o _ => offsetOk o
  | .irregularRegisterAccess o _ _ => decide (o < barSize)
  | .bar2Access x write len data => decide (x + len ≤ 0x4000000) && (!write || decide (data.length = len))
  | .spiWrite a _ => decide (a < 0x1000000)
  | .spiRead a _ => decide (a < 0x1000000)
  | .spiStatus => true
  | .spiUnknownInstruction => true
  | .functionLevelReset => true
  | .ringTransferFailure _ _ => true
  | .msixModerationExpiry _ => true
  | .launchTimedCommandStart => true
  | .powerOnReset => true
  | .mainSupplyLoss => true
  | .resetNAssert => true
  | .resetNRelease e => bootOk e
  | .lockstepDivergence e => bootOk e
  | .watchdogExpiry e => bootOk e
  | .pfailNLatch => true
  | .pfailNRelease e => bootOk e
  | .referenceLoss => true
  | .referenceRelock => true
  | .frameBoundary _ _ e => bootOk e
  | .rePlacement => true
  | .shareRerun _ _ => true
  | .reSolveStart _ => true
  | .guardPass _ => true
  | .paceWindowEnd raw => decide (raw.length = 16)
  | .avsResponse _ => true
  | .governorRepeat => true
  | .governorLower => true
  | .fabricRunStart _ => true
  | .deadlineReached _ => true
  | .sheafStatusPhase _ => true
  | .lsqStatusPhase _ => true
  | .fabricNop _ => true
  | .loopBegin _ => true
  | .loopTest _ => true
  | .loopEnd _ => true
  | .copy _ => true
  | .fill _ => true
  | .gatherMeas _ => true
  | .publish _ => true
  | .axpy _ => true
  | .dot _ => true
  | .gemv _ => true
  | .gemm _ => true
  | .syrk _ => true
  | .bpotrf _ => true
  | .bldlt _ => true
  | .bgetrf _ => true
  | .bgeqrf _ => true
  | .btrs _ => true
  | .bresid _ => true
  | .bperm _ => true
  | .bqrApply _ => true
  | .potrf _ => true
  | .trs _ => true
  | .jacEval _ => true
  | .jtwj _ => true
  | .blockElim _ => true
  | .blockBack _ => true
  | .lmDampDamp _ => true
  | .lmDampDecide _ => true
  | .boxProject _ => true
  | .extrapolate _ => true
  | .tolCompare _ => true
  | .knownAnswer slot entry margins pass => decide (slot < 8) && decide (entry < 16) && decide (margins.length ≤ 34) && decide (pass.length = margins.length) && margins.all (fun v => decide (v < 0x100))
  | .logicScanStart _ => true
  | .logicScanResume _ => true
  | .logicScanOverrun => true
  | .loopSample => true
  | .launchFire => true
  | .setpointRepeatSend => true
  | .pwmPeriodStart _ => true
  | .pulseOutputPulse _ => true
  | .pulseInputEdge _ _ => true
  | .holdNChange _ _ => true
  | .adcTriggerTimer _ => true
  | .adcSequenceRequest => true
  | .adcConversionComplete _ _ _ _ => true
  | .mtrSample codes => decide (codes.length = 8)
  | .pseudoCycle _ => true
  | .zeroCrossingLoss _ => true
  | .mtrTempRead _ => true
  | .heatCircuitCompute c => decide (c < 16)
  | .periodicSave => true
  | .meteringPulseDue n => decide (n < 8)
  | .canFrameReceived _ id _ data _ _ _ => decide (id < 0x20000000) && decide (data.length ≤ 64)
  | .canFrameTransmitted _ _ lec _ _ _ => decide (lec < 8)
  | .canRecoveryComplete _ => true
  | .canTimingTakeup _ => true
  | .sync h _ _ ns => hdrOk h && decide (ns < 1000000000)
  | .followUp h _ ns => hdrOk h && decide (ns < 1000000000)
  | .announce h prio1 cls accuracy variance prio2 gm steps => hdrOk h && decide (prio1 < 256 ∧ cls < 256 ∧ accuracy < 256 ∧ variance < 0x10000 ∧ prio2 < 256 ∧ gm < 2 ^ 64 ∧ steps < 0x10000)
  | .announceReceiptTimeout _ => true
  | .delayReq h => hdrOk h
  | .delayResp h _ ns => hdrOk h && decide (ns < 1000000000)
  | .pdelayReq h _ => hdrOk h
  | .pdelayResp h _ => hdrOk h
  | .ptpMessageTransmit _ _ => true
  | .arpRequest _ addr from_ => decide (addr.length = 16 ∧ from_ < 2 ^ 48)
  | .telemetryDatagram _ dport src dst _ => decide (dport < 0x10000 ∧ src.length = 16 ∧ dst.length = 16)
  | .ethernetFrameDrop _ _ => true
  | .timeAlarm _ => true
  | .enumInFall up => decide (1 ≤ up ∧ up ≤ 16)
  | .trellisLinkTrained _ => true
  | .trellisCrcFailure _ _ => true
  | .timeMark _ _ _ => true
  | .healthReportSend => true
  | .healthReport data _ _ _ => decide (data.length = 64)
  | .healthReportMissed a => decide (1 ≤ a ∧ a ≤ 16)
  | .leaseLapse => true
  | .forwardedLaunch _ => true
  | .mirrorFastPart _ _ _ _ _ => true
  | .mirrorBulkPart _ => true
  | .mirrorLate _ => true
  | .syncImage _ => true
  | .windowTraffic o write len msg => decide (o + len ≤ 0x400000000) && msg.ok write len
  | .takeover => true
  | .revertRequest => true
  | .handoverRelease => true
  | .handover _ => true
  | .journalAppendCommit => true
  | .appendWaitTimeout => true
  | .checkpointDue => true
  | .checkpointComplete => true
  | .eventRecord => true
  | .remaskPass => true
  | .entropyTestFailure => true
  | .drbgReseed => true
  | .panelFrameStart => true
  | .panelLine => true
  | .stressJournal => true
  | .rtcSecond => true
  | .trimCorrection => true
  | .oscStopDetect => true
  | .interfaceLock _ => true
  | .switchToVbat => true
  | .switchBackToVaon => true
  | .alwaysOnReset => true
  | .unlockReady => true
  | .healthRecord => true
  | .batLoadTestEnd _ _ => true
  | .spiWriteLands => true
  | .canBusIntegration _ => true
  | .ethernetLinkChange _ _ => true
  | .nandBlockRetirement _ => true
  | .recorderStateAppend => true

/-- A command is well formed. -/
def Instr.wf (i : Instr) : Bool :=
  i.operandsOk && match i.packet with
    | some (code, p) => decide (p.opcode.toNat = code)
    | none => true

end Sys2Proof
end

