-- ==== Sys2Proof/Tests/Slice0.lean ====
section
/-!
SUPPORT. The model's own tests: ill-formed terms that the check refuses, values written out from the tables of spec/, and for
every statement about a command a concrete state and operands that meet its hypotheses.
-/

namespace Sys2Proof.Tests

open Sys2Proof.Machine

-- one theorem at a time: each waits for the kernel, and a thread for each would fill the memory
set_option Elab.async false

/-! ### Small states -/

/-- A protection table that grants ring 0 every opcode group, it and ring 1 every class, and both and the host window every address. -/
def prot0 : List (Nat × Byte) :=
  [(0x4, 1), (0x10, 0xFF), (0x11, 0xFF), (0x12, 0xFF), (0x13, 0xFF), (0x14, 0xFF), (0x15, 0xFF), (0x18, 1),
   (0x24, 0xFF), (0x25, 0xFF), (0x28, 1), (0x410, 3),
   (0x418, 0xFF), (0x419, 0xFF), (0x41A, 0xFF), (0x41B, 0xFF), (0x41C, 0xFF)]

/-- Ring 0 active with 16 entries, eight of them waiting. -/
def ring0 : Ring := { Ring.reset with st := .active, log2 := 4, cls := 3, sqTail := 8, sqBase := 0x1000, cqBase := 0x2000 }

/-- A device in mode `m` with ring 0 served. -/
def ready (m : Mode) : Dev :=
  let d := Dev.reset
  { d with sys.mode := m, sys.resetLow := false, sys.seqOn := true, sys.prot := prot0, cmd.rings := [(0, ring0)] }

def st (d : Dev) : State := { dev := d, pending := [] }

/-- A packet of ring 0: opcode, parameters, buffer. -/
def pkt (op : Nat) (ps : List Nat) (addr len : Nat) : Pkt :=
  { ring := 0, opcode := BitVec.ofNat 16 op, flags := 0, classOvr := 0xFF, tag := 7, launchTime := 0,
    bufAddr := BitVec.ofNat 64 addr, bufLen := BitVec.ofNat 32 len, word1C := 0,
    p0 := BitVec.ofNat 32 (ps.getD 0 0), p1 := BitVec.ofNat 32 (ps.getD 1 0), p2 := BitVec.ofNat 32 (ps.getD 2 0),
    p3 := BitVec.ofNat 32 (ps.getD 3 0), p4 := BitVec.ofNat 32 (ps.getD 4 0), p5 := BitVec.ofNat 32 (ps.getD 5 0),
    p6 := BitVec.ofNat 32 (ps.getD 6 0), p7 := BitVec.ofNat 32 (ps.getD 7 0) }

/-! ### Ill-formed terms (WellFormed.lean) -/

/-- A start in which nothing is wrong. -/
def boot0 : BootEnv := default
/-- A PTP header. -/
def hdr0 : PtpHdr := default

/-- The check refuses a packet under another row's opcode, and one operand out of range for each other check. -/
theorem test_illFormed_refused :
    [Instr.identify (pkt 2 [] 0 0), .rcClearingRead 2, .latchingRead barSize, .postedWrite 1 0, .postedWriteLands 16,
     .registerWrite 3 0, .irregularRegisterAccess barSize true true, .bar2Access 0x4000000 false 1 [], .bar2Access 0 true 2 [0],
     .spiWrite 0x1000000 [], .spiRead 0x1000000 1, .resetNRelease { boot0 with badSlots := [1] },
     .lockstepDivergence { boot0 with badSlots := [256] }, .watchdogExpiry { boot0 with tests := List.replicate 35 (true, 0) },
     .pfailNRelease { boot0 with badSlots := [0] }, .frameBoundary 0 false { boot0 with badSlots := [1] }, .paceWindowEnd [],
     .knownAnswer 8 0 [] [], .knownAnswer 0 16 [] [], .knownAnswer 0 0 [256] [true], .knownAnswer 0 0 [1] [],
     .knownAnswer 0 0 (List.replicate 35 0) (List.replicate 35 true), .mtrSample [0], .heatCircuitCompute 16, .meteringPulseDue 8,
     .canFrameReceived 0 0x20000000 0 [] 0 0 0, .canFrameReceived 0 0 0 (List.replicate 65 0) 0 0 0,
     .canFrameTransmitted 0 0 8 false 0 0, .sync { hdr0 with port := 4 } false 0 0, .sync hdr0 false 0 1000000000,
     .followUp { hdr0 with domain := 256 } 0 0, .followUp hdr0 0 1000000000, .announce hdr0 256 0 0 0 0 0 0,
     .delayReq { hdr0 with srcPort := 0x10000 }, .delayResp { hdr0 with seq := 0x10000 } 0 0, .delayResp hdr0 0 1000000000,
     .pdelayReq { hdr0 with port := 4 } 0, .pdelayResp { hdr0 with src := 2 ^ 64 } false, .arpRequest 0 [] 0,
     .telemetryDatagram 0 0x10000 (List.replicate 16 0) (List.replicate 16 0) [],
     .telemetryDatagram 0 0 [] (List.replicate 16 0) [], .enumInFall 0, .enumInFall 17, .healthReport [] 0 0 0,
     .healthReportMissed 17, .windowTraffic 0x400000000 false 1 (.access []), .windowTraffic 0 true 2 (.access [0])].all
      (fun i => !i.wf) = true := by decide +kernel

theorem test_wellFormed_accepted :
    [Instr.identify (pkt 1 [] 0 0), .registerWrite 4 0, .resetNRelease boot0, .sync hdr0 false 0 999999999, .updateStrobe].all
      Instr.wf = true := by decide +kernel

/-- The table gives no row bits. -/
theorem test_no_word : decodeTableWord 32 0 = none := rfl

/-! ### Values that spec/ states in its worked examples -/

/-- The loop of spec/12_control_loops.md's example: u = 28,188 and i_acc = 6,313. -/
theorem test_loop_sample :
    let x := controlLaw { LoopSt.reset with iAcc := 6000, first := false }
      [14 + 14 <<< 5, 24576, 4096, 0, 0, 0, 0, enc 32 (-10000), 30000, 0, 65535, 20000] 28750 30000 0 true false none
    (x.e, x.p, x.st.iAcc, x.u) = (1250, 1875, 6313, 28188) := by decide +kernel

/-- The program of spec/13_cyclic_logic.md's example is accepted; without its END it is not. -/
theorem test_logic_program :
    progFault [0x04000091, 0x62001840, 0x50004103, 0x10000258, 0x20000104, 0xFC000000] = none ∧
    progFault [0x04000091] = some (0x44, 0) := by decide +kernel

/-- The drive of spec/21_pavilion_display.md's example: 800 at stress 150,000 and age 4,096 is driven as 914. -/
theorem test_drive_code : driveCode 4096 150000 800 = (914, false) := by decide +kernel

/-- Record steps of the example in spec/06_plans_static_schedule.md: GATHER_MEAS, JAC_EVAL, JTWJ and BLOCK_ELIM at WIDTH 32. -/
theorem test_record_steps :
    [(⟨0x06, 32, 0, [], 0, 0, 0, 0, 11000, 0, 0⟩ : KRec), ⟨0x1A, 32, 0, [], 0, 0, 0, 0, 11000, 0, 0⟩,
      ⟨0x1B, 32, 0, [], 0, 0, 6, 0, 11000, 0, 0⟩, ⟨0x1C, 32, 0, [], 10, 4, 0, 0, 2700, 0, 0⟩].map kernelSteps =
      [38, 896, 468, 7140] := by decide +kernel

/-- SET_FRAME in RUN is turned away with its mode mask and mode (spec/02_command_interface.md's example). -/
theorem test_set_frame_in_run :
    starts specSetFrame (pkt 8 [500000] 0 0) (st (ready .run)) = false ∧
    starts specSetFrame (pkt 8 [500000] 0 0) (st (ready .config)) = true := by decide +kernel


/-- Memory holding little-endian words at `a`, their zero bytes left out. -/
def poke (a : Nat) (ws : List (Nat × Nat)) (d : Dev) : Dev :=
  { d with mem := (ws.flatMap (fun w => (leBytes 4 w.2).zipIdx.map (fun x => (a + w.1 + x.2, x.1)))).filter (fun c => c.2 ≠ 0) }

/-- What a state becomes by a command. -/
def after (i : Instr) (s : State) : State :=
  match exec i s with
  | .next t => t
  | _ => State.reset

/-- A packet whose buffer, if it has one, lies at 0x3000. -/
def cmd (op : Nat) (ps : List Nat) (len : Nat) : Pkt := pkt op ps (if len = 0 then 0 else 0x3000) len

/-- A packet of opcode `op` starts on the device `d`. -/
def go (sp : OpSpec) (ps : List Nat) (len : Nat) (d : Dev) : Bool := starts sp (cmd sp.opcode ps len) (st d)

/-- The packet starts, and its device then meets `q`. -/
def goes (sp : OpSpec) (ps : List Nat) (len : Nat) (d : Dev) (q : Pkt → Dev → Bool) : Bool :=
  go sp ps len d && q (cmd sp.opcode ps len) (begun sp (cmd sp.opcode ps len) (st d))

/-- A plan image of one tile, one entry of class 3 and one record that does nothing (R137–R143). -/
def image0 : List (Nat × Nat) :=
  [(0x0, 0x50565349), (0x4, 0x1), (0x10, 0x180), (0x14, 0x9), (0x1c, 0xd34e69df), (0x20, 0x100), (0x24, 0x1), (0x28, 0x120),
   (0x2c, 0x1), (0x30, 0x140), (0x34, 0x1), (0x58, 0x18), (0xd4, 0x1), (0x104, 0x1), (0x108, 0x1), (0x10c, 0x1), (0x110, 0x40),
   (0x120, 0x503), (0x128, 0x1), (0x12c, 0x1), (0x130, 0x18), (0x138, 0x18), (0x140, 0x10000), (0x144, 0xffffffff),
   (0x148, 0xffffffff)]

/-- A frame plan without floors or ceilings (R151). -/
def framePlan0 : List (Nat × Nat) :=
  [(0x0, 0x42565349), (0x4, 0x1), (0x8, 0x1), (0xc, 0xf4240), (0x10, 0x76543210), (0x14, 0xfedcba98), (0x18, 0x76543210),
   (0x1c, 0xfedcba98), (0x20, 0x240), (0x24, 0x242e4cae)]

/-- A device whose register reads `v` and applies it. -/
def reg (o v : Nat) (d : Dev) : Dev := setPA o v d
/-- A command of ring 0 with tag 7 that has not completed. -/
def busy (op : Nat) (d : Dev) : Dev :=
  { d with cmd.cmds := [⟨0, pkt op [1] 0 0, .active, 0, false⟩], cmd.nextId := 1 }
/-- A device in CONFIG whose frame plan is that plan. -/
def planned : Dev :=
  { ready .config with pln.fp := some (framePlanOf (rdBytes (poke 0x3000 framePlan0 (ready .config)) 0x3000 576)) }

/-! ### Commands of a ring: hypotheses that a state meets -/

theorem witness_SystemRowsComplete :
    ([go specIdentify [] 64 (ready .config), go specIdentify [] 0 (ready .config), go specGetMode [] 0 (ready .config),
     go specEcho [1, 2, 3, 0xFFFFFFFF] 0 (ready .config), go specGetCounters [0x12, 1] 64 (ready .config), go specGetCounters [0, 0] 0 (ready .hold),
     go specSetFrame [250000] 0 (ready .service), go specSetMode [3] 0 (ready .config),
     goes specSetMode [6] 0 (ready .run) (fun _ d => decide (d.sys.mode.code ≠ 6)),
     goes specSetMode [3] 0 (ready .standby) (fun _ d => d.sys.modeReq.isNone),
     goes specReadState [0] 64 (ready .config) (fun p _ => decide ((stateSize (param p 0)).getD 0 ≤ 4096)),
     goes specReadState [0x04000000] 0x10000 (ready .config) (fun p _ => decide (4096 < (stateSize (param p 0)).getD 0)),
     goes specFence [0] 0 (ready .config) (fun _ d => (findCmd d 0).elim false (fun c => fenceDone d c)),
     goes specFence [1] 0
       { ready .config with cmd.cmds := [⟨0, { pkt 3 [4] 0 0 with ring := 1 }, .active, 0, false⟩], cmd.nextId := 1 }
       (fun _ d => (findCmd d 1).elim false (fun c => !fenceDone d c))].all id) = true := by decide +kernel

theorem witness_RingAndClassRowsComplete :
    ([go specRingConfig [1, 0x80000004, 0, 0x40, 0x1000, 0x40] 0 (ready .config), go specRingConfig [63, 0] 0 (ready .config),
     goes specRingReset [1] 0 (ready .config) (fun _ d => decide ((ringOf d 1).st = .disabled)),
     goes specRingReset [63] 0 { ready .config with cmd.rings := [(0, ring0), (63, ring0)] }
       (fun _ d => decide ((ringOf d 63).st ≠ .disabled)),
     goes specClassBudget [4, 1, 0, 5] 0 planned
       (fun p d => rowOk (param p 0) (currencyOf (param p 1)) ⟨param p 2, param p 3⟩ &&
         d.pln.fp.elim false (fun fp => (admission d (amendPlan fp (param p 0) (param p 1) ⟨param p 2, param p 3⟩)).isRight)),
     go specClassQuery [15] 64 (ready .config), go specClassQuery [0] 0 (ready .config)].all id) = true := by decide +kernel


/-- A record without operands. -/
def rec0 (kernel n batch arg : Nat) : KRec :=
  { kernel := kernel, width := 1, prec := 0, opnd := List.replicate 4 0xFFFF, m := 0, n := n, k := 0, r := 0, batch := batch,
    steps := 0, arg := arg }

/-- A device with a plan in slot 0: one entry of class 3 and of group `op` over all the records. -/
def withPlan (op : Nat) (rs : List KRec) (d : Dev) : Dev :=
  { d with pln.slots := [(0, ⟨some ⟨9, 0, 0, 0x180, 0, [], [⟨if op = 7 then 5 else 3, op, 0, rs.length, 1, 24, 24⟩], rs⟩, 0, 1⟩)],
           pln.loads := 1 }

theorem witness_ModelRowsAllComplete :
    ([go specModelWriteObjects [16383, 1] 64 (ready .run), go specModelWriteMeas [65535, 1] 32 (ready .config),
      goes specModelRead [3, 65535, 1] 64 (ready .hold) (fun p _ => decide (param p 0 ≤ 3)),
      go specModelRead [0, 0, 1] 64 (ready .run), go specModelDiscard [] 0 (ready .config),
      go specMeasWriteValues [1] 24 (ready .run), go specModelSignature [] 0 (ready .service),
      goes specModelCommit [] 0 (ready .config) (fun _ d => (modelFault d).isNone)].all id) = true := by decide +kernel

/-- The device that PLAN_LOAD of that image reaches, with the pool sizes taken. -/
def loading : Dev :=
  let d := begun specPlanLoad (cmd 0x301 [0, 7] 0x180) (st (poke 0x3000 image0 (ready .config)))
  if allEmpty d then latchSizes d else d

/-- Its placement succeeds, whatever its charge. -/
theorem witness_PlanLoadPlaces :
    let pl := planOfBytes (rdBytes loading 0x3000 0x180)
    (placeInto 7 pl (chargePlacement pl loading)).isRight = true := by
  intro pl
  have h := chargePlacement_local (d := loading) (by decide +kernel) (by decide +kernel) pl
  rw [placeInto_isRight_local h.1 h.2 (by decide +kernel)]
  decide +kernel

theorem witness_PlanRowsAllComplete :
    ([go specPlanUnload [0] 0 (withPlan 5 [rec0 0 0 0 0] (ready .config)),
      goes specPlanQuery [0] 0 (withPlan 5 [rec0 0 0 0 0] (ready .run)) (fun p d => (planIn d (param p 0)).isSome),
      goes specPlanQuery [7] 0 (ready .config) (fun p d => (planIn d (param p 0)).isNone),
      goes specPlanBound [0, 0, 0xFF] 0 (withPlan 5 [rec0 0 0 0 0] (ready .run)) (fun p d =>
        (planIn d (param p 0)).elim false (fun pl => decide (param p 1 < pl.entries.length))),
      goes specPlanPolicy [3, 0xFF] 0 (ready .config) (fun _ d =>
        decide (d.grn.refuse = false ∧ retainedBytes d.grn + queuedBytes d.grn + jBytes 0x0A 4 ≤ jRing - jReserve)),
      go specPlaceQuery [0] 320 (withPlan 5 [rec0 0 0 0 0] (ready .run)),
      go specPlaceQuery [7] 0 (ready .config),
      go specPlaceRebuild [] 0 (ready .config)].all id) = true := by decide +kernel

theorem witness_PlanRowsAllComplete_image :
    ([goes specPlanLoad [0, 7] 0x180 (poke 0x3000 image0 (ready .config)) (fun p d =>
        let b := rdBytes d (bufA p) (bufL p)
        (imageFault d (pktClass p d) b (bufL p) true).isNone)].all id) = true := by decide +kernel

theorem witness_PlanRowsAllComplete_framePlan :
    ([goes specPlanLoad [1, 0] 576 (poke 0x3000 framePlan0 (ready .config)) (fun p d =>
        let b := rdBytes d (bufA p) (bufL p)
        (framePlanFault d (pktClass p d) b (bufL p)).isNone && (framePlanAdmit d (framePlanOf b)).isRight)].all id) = true := by decide +kernel

theorem witness_PlanRowsAllComplete_predict :
    ([goes specPlacePredict [7] 0x180 (poke 0x3000 image0 (ready .config)) (fun p d =>
        let b := rdBytes d (bufA p) (bufL p)
        let d1 := releaseSlot (param p 0) d
        (imageFault d 0 b (bufL p) false).isNone &&
        (placeSlot d1 ⟨param p 0, planOfBytes b, if allEmpty d then (latchSizes d).plc.sizes else d.plc.sizes, nEff d⟩
          d1.plc.widthSum d1.plc.homes).isRight)].all id) = true := by decide +kernel

theorem witness_PlanRowsAllComplete_predictNone :
    ([goes specPlacePredict [7] 0x180
        { poke 0x3000 image0 (ready .config) with thr.clusters := [] } (fun p d =>
        let b := rdBytes d (bufA p) (bufL p)
        let d1 := releaseSlot (param p 0) d
        (imageFault d 0 b (bufL p) false).isNone &&
        (placeSlot d1 ⟨param p 0, planOfBytes b, if allEmpty d then (latchSizes d).plc.sizes else d.plc.sizes, nEff d⟩
          d1.plc.widthSum d1.plc.homes).isLeft)].all id) = true := by decide +kernel

/-- A sheaf of 4,096 members on a factoring of order 1, submitted. -/
def sheafDev : Dev := withPlan 5 [rec0 0x10 1 4096 0] (poke 0x3000 [(0, 0x48565349), (4, 1)] (ready .run))
def sheafRunning : Dev := (after (.sheafSubmit (cmd 0x501 [0, 4096] 128)) (st sheafDev)).dev
/-- An estimate whose one record does nothing, submitted. -/
def lsqDev : Dev := withPlan 6 [rec0 0 0 0 0] (poke 0x3000 [(0, 0x4C565349), (4, 1), (0x24, 0x3FF00000), (0x2C, 0x3FF00000),
  (0x34, 0x3FF00000), (0x3C, 0x3FF00000), (0x44, 0x3FF00000)] (ready .run))
def lsqRunning : Dev := (after (.lsqSubmit (cmd 0x601 [0] 544)) (st lsqDev)).dev
/-- A submission that waits for its launch time. -/
def waiting (op : Nat) : Dev :=
  { ready .run with cmd.cmds := [⟨0, { pkt op [0] 0 0 with flags := 2 }, .waiting, 0, false⟩], cmd.nextId := 1 }
/-- Run-ahead of depth 2 with period 5 open. -/
def ahead (d : Dev) : Dev :=
  { d with ra.plen := 1, ra.depth := 2, ra.periods := [⟨5, 0, 0, false, 0, false, 0, false, (0, 0), none, []⟩] }

theorem witness_RunRowsAllComplete :
    ([go specRaExtrapolate [0, 0, 5, 0] 0 (ahead (withPlan 7 [rec0 0 0 0 0] (ready .run))),
      go specRaConfig [0x40001] 0 (ready .config),
      go specRaInputs [4095, 1] 16 (ready .config),
      goes specRaForecast [5, 0, 1] 16 (ahead (ready .run)) (fun p d => (periodOf d (param64 p 0)).isSome),
      go specRaSquash [5, 0] 0 (ahead (ready .run)),
      go specRaQuery [5, 0] 0 (ahead (ready .run))].all id) = true := by decide +kernel

theorem witness_RunRowsAllComplete_sheaf :
    ([go specSheafSubmit [0, 4096] 128 sheafDev,
      goes specSheafCancel [7, 0] 0 sheafRunning (fun p d =>
        (outstanding d 0x501 (param p 0) (param p 1)).elim false (fun c => (runOfCmd d c.id).isSome)),
      goes specSheafCancel [7, 0] 0 (waiting 0x501) (fun p d =>
        (outstanding d 0x501 (param p 0) (param p 1)).elim false (fun c => (runOfCmd d c.id).isNone)),
      goes specSheafQuery [7, 0] 0 sheafRunning (fun p d =>
        (outstanding d 0x501 (param p 0) (param p 1)).elim false (fun c => (runOfCmd d c.id).isSome)),
      goes specSheafQuery [7, 0] 0 (waiting 0x501) (fun p d =>
        (outstanding d 0x501 (param p 0) (param p 1)).elim false (fun c => (runOfCmd d c.id).isNone))].all id) = true := by decide +kernel

theorem witness_RunRowsAllComplete_lsq :
    ([go specLsqSubmit [0] 544 lsqDev,
      goes specLsqCancel [7, 0] 0 lsqRunning (fun p d =>
        (outstanding d 0x601 (param p 0) (param p 1)).elim false (fun c => (runOfCmd d c.id).isSome)),
      goes specLsqCancel [7, 0] 0 (waiting 0x601) (fun p d =>
        (outstanding d 0x601 (param p 0) (param p 1)).elim false (fun c => (runOfCmd d c.id).isNone)),
      goes specLsqQuery [7, 0] 0 lsqRunning (fun p d =>
        (outstanding d 0x601 (param p 0) (param p 1)).elim false (fun c => (runOfCmd d c.id).isSome)),
      goes specLsqQuery [7, 0] 0 (waiting 0x601) (fun p d =>
        (outstanding d 0x601 (param p 0) (param p 1)).elim false (fun c => (runOfCmd d c.id).isNone))].all id) = true := by decide +kernel


/-- Scans run: the logic engine enabled, a program of one patchable word and END. -/
def scanning (m : Mode) : Dev := { reg Reg.cleCtl 1 (ready m) with cle.prog := [0x1B <<< 26, 0xFC000000] }

theorem witness_LoopRowsAllComplete :
    ([go specLoopWrite [0xEFF, 1] 4 (ready .run), go specLoopEnable [255, 1] 0 (ready .config), go specSpWrite [1023, 1] 4 (ready .run),
      go specSpMap [0, 1] 16 (ready .config), go specSpPublish [4] 128 (ready .run), go specSpPublish [0] 0 (ready .config),
      goes specLoopRetune [0, 3, 5, 6] 48 (reg (Reg.clpEn 0) 1 (ready .run)) (fun p d =>
        (loopOf d (param p 0)).retune.isNone && loopOn d (param p 0) && decide (d.sys.mode ≠ .config)),
      goes specLoopRetune [255, 0] 48 (ready .run) (fun p d => (loopOf d (param p 0)).retune.isNone && !loopOn d (param p 0)),
      goes specLoopRetune [0, 0] 48 (reg (Reg.clpEn 0) 1 (ready .config)) (fun p d =>
        (loopOf d (param p 0)).retune.isNone && decide (d.sys.mode = .config)),
      go specTraceArm [7, 0, 0xFFFFFFFF] 0 (ready .run), go specTraceRead [7] 32 (ready .config)].all id) = true := by decide +kernel

theorem witness_LogicRowsAllComplete :
    ([go specLogicLoad [1] 4 (poke 0x3000 [(0, 0xFC000000)] (ready .config)),
      goes specLogicVarsWrite [0, 4095, 1] 1 (ready .config) (fun p _ => decide (param p 0 = 0)),
      goes specLogicVarsWrite [1, 1023, 1] 4 (ready .hold) (fun p _ => decide (param p 0 ≠ 0)),
      go specLogicClear [] 0 (ready .config), go specLogicAck [] 0 (ready .run), go specLogicRead [65535, 1] 4 (ready .run),
      goes specLogicWordWrite [64, 5] 0 (scanning .run) (fun _ d => scansRun d && decide (d.cle.queue.length < 64)),
      goes specLogicWordWrite [1023, 5] 0 (scanning .config) (fun _ d => !scansRun d),
      goes specLogicPatch [0, 32767] 0 (scanning .run) (fun _ d => scansRun d && decide (d.cle.queue.length < 64)),
      goes specLogicPatch [0, 0xFFFF8000] 0 (scanning .hold) (fun _ d => !scansRun d)].all id) = true := by decide +kernel

/-- Window channel 0 armed in its register, its channel out of band when `out` is 1. -/
def banded (out : Nat) : Dev := setP Reg.adcWinStat out (reg (Reg.adcWinHyst 0) 0x80000000 (ready .run))

theorem witness_ConverterRowsAllComplete :
    ([goes specAdcStart [0] 0 (ready .run) (fun p _ => (List.range 8).all (fun q => !bitAt (param p 0) q)),
      goes specAdcStart [0x80] 0 (reg (Reg.adcSeqCfg 7) 0x99000000 (ready .run))
        (fun p _ => (List.range 8).any (fun q => bitAt (param p 0) q)),
      goes specWindowArm [1, 1] 0 (banded 1) (fun p d => decide (param p 1 = 1 ∧ outOfBand d (param p 0) ≠ 0)),
      goes specWindowArm [1, 0] 0 (banded 1) (fun p _ => decide (param p 1 = 0)),
      goes specWindowArm [1, 1] 0 (banded 0) (fun p d => decide (outOfBand d (param p 0) = 0)),
      goes specWindowDisarm [7, 0] 0 { busy 0xA02 (ready .run) with adc.arms := [(0, 1)] } (fun p d =>
        (namedAmong d (d.adc.arms.map (·.1)) (param p 0) (param p 1)).isSome)].all id) = true := by decide +kernel

/-- A heat table whose 257 positive numbers are 2⁻¹²⁶ (R379). -/
def heat0 : List (Nat × Nat) := (4, 0x800000) :: (List.range 256).map (fun i => (0x10 + 4 * i, 0x800000))

/-- A device that holds it. -/
def heated : Dev := poke 0x3000 heat0 (ready .run)

/-- A packet starts when it starts without its last check and that check finds nothing. -/
theorem go_of {sp : OpSpec} {ps : List Nat} {len : Nat} {d : Dev} (h0 : go { sp with resources := fun _ _ => none } ps len d = true)
    (h1 : sp.resources (cmd sp.opcode ps len) (fetched sp (cmd sp.opcode ps len) (st d)) = none) : go sp ps len d = true := by
  have ha (p : Pkt) (e : Dev) (h : sp.resources p e = none) : accept sp p e = accept { sp with resources := fun _ _ => none } p e := by
    unfold accept
    rw [h]
    rfl
  unfold go starts at h0 ⊢
  rw [ha _ _ h1]
  exact h0

/-- The check of a heat table at 0x3000 that the command has not written. -/
theorem heat_resources {p : Pkt} {e : Dev} {m : List Host.Cell} (hb : bufA p = 0x3000) (hw : ∀ w ∈ e.wr, w.1 < 0x3000 ∨ 0x3000 + 1040 ≤ w.1)
    (he : e.mem = m) (hs : smAbove none m = true) (hm : ∀ c ∈ m, 0x3000 ≤ c.1) (h : heatBad (readRun m 0x3000 1040) = none) :
    specMtrHeatTable.resources p e = none := by
  subst he
  have h1 : heatBad (rdBytes e (bufA p) 1040) = none := by
    rw [hb, rdBytes_run (by decide) hw hs hm]
    exact h
  show Option.map _ (heatBad (rdBytes e (bufA p) 1040)) = none
  rw [h1]
  rfl

theorem witness_MeterAndCanRowsComplete_heat : go specMtrHeatTable [3] 1040 heated = true :=
  go_of (by decide +kernel) (heat_resources (m := heated.mem) (by decide +kernel) (by decide +kernel) (by decide +kernel)
    (by decide +kernel) (by decide +kernel) (by decide +kernel))

theorem witness_MeterAndCanRowsComplete :
    ([go specMtrPreset [95, 1] 8 (ready .config), go specMtrPreset [96, 0] 0 (ready .config),
      go specMtrSave [1] 0 (ready .run), go specMtrSave [0] 0 (ready .config), go specMtrEventWait [0x17] 0 (ready .run),
      goes specMtrEventRead [0] 32 { ready .run with mtr.fifo := [⟨0, 0, false, 0, 0, 0, 0⟩] } (fun _ d => !d.mtr.fifo.isEmpty),
      goes specMtrEventRead [0xFFFFFFFF] 32 (ready .run) (fun _ d => d.mtr.fifo.isEmpty),
      goes specMtrEventDisarm [7, 0] 0 { busy 0xB04 (ready .run) with mtr.waits := [(0, 1, 1)] } (fun p d =>
        (namedAmong d (d.mtr.waits.map (·.1)) (param p 0) (param p 1)).isSome)].all id) = true := by decide +kernel

/-- A CAN controller with a frame waiting in receive FIFO 0. -/
def canHeld (d : Dev) : Dev := { d with can.ctl := smSet CanCtl.reset d.can.ctl 7 { CanCtl.reset with fifo0 := [default] } }

theorem witness_MeterAndCanRowsComplete_can :
    ([go specCanFields [511, 1] 8 (poke 0x3000 [(0, 0x01000000)] (ready .config)),
      goes specCanWait [0x80, 8] 0 (canHeld (ready .run)) (fun p d => (canHolds d (param p 0) (param p 1)).isSome),
      goes specCanWait [0xFF, 0x3F] 0 (ready .run) (fun p d => (canHolds d (param p 0) (param p 1)).isNone),
      goes specCanDisarm [7, 0] 0 { busy 0xC02 (ready .run) with can.waits := [(0, 1, 1)] } (fun p d =>
        (namedAmong d (d.can.waits.map (·.1)) (param p 0) (param p 1)).isSome),
      go specCanRecover [7] 0 (ready .run)].all id) = true := by decide +kernel

theorem witness_TimeRowsAllComplete :
    ([go specTimeRead [] 0 (ready .hold), go specTimeSet [5, 0, 0] 0 (ready .config), go specTimeSet [0xFFFFFFFF, 0xFFFFFFFF, 1] 0 (ready .config),
      go specTimeAccept [] 0 (setF Reg.timStat 4 4 1 (ready .config)), go specPtpStatus [] 128 (ready .run),
      go specSubstWrite [4095, 1] 32 (ready .run)].all id) = true := by decide +kernel

theorem witness_LaunchRowsAllComplete :
    ([go specLaunchQueue [1, 0] 16 (poke 0x3000 [(0, 20000)] (ready .run)),
      go specLaunchQueue [1, 2] 16 (poke 0x3000 [(0, 1000000)] (setP Reg.trlPresent 4 (ready .run))),
      goes specLaunchCancel [7, 0] 0 { busy 0xD06 (ready .run) with lch.groups := [⟨0, 1, 0, 0, none, false, false, 0, 0⟩] }
        (fun p d => (cancelNames p d).isSome)].all id) = true := by decide +kernel

/-- A paired unit 1 with partner 2 in mode `m`, home role 1 and its models in step. -/
def pairedDev (own : Mode) (m : Nat) : Dev :=
  { setP Reg.redStat 0xA0000000 (reg Reg.redCtl 0x201 (setF Reg.trlStat 4 0 1 (ready own))) with
    trl.peers := [(2, ⟨[0, BitVec.ofNat 8 m, 0, 2] ++ List.replicate 60 0, true, true, 0, 0, 0, 0⟩)] }

theorem witness_TrellisRowsAllComplete :
    ([go specTrlQuery [] 1024 (ready .run), go specRedFailover [] 0 (pairedDev .run 4), go specRedRevertNow [] 0 (pairedDev .standby 5),
      go specRedResync [] 0 (pairedDev .standby 5)].all id) = true := by decide +kernel


/-- A device whose slot `k` holds a key of these attributes. -/
def keyed (k a : Nat) (d : Dev) : Dev :=
  { d with sec.slots := smSet Slot.none d.sec.slots k { Slot.none with attr := a, state := .ready, height := 5 } }

theorem witness_StoreRowsAllComplete :
    ([go specGrnQuery [] 64 (ready .run), go specGrnQuery [] 0 (ready .config), go specGrnCompact [] 0 (ready .config),
      goes specGrnSnapshot [2] 64 { ready .run with grn.items := [(itemKey 5 0, [1, 2])] } (fun p _ =>
        decide (2 ≤ param p 0 ∧ param p 0 ≤ 3)),
      go specGrnModelRestore [] 0 { ready .run with grn.items := [(itemKey 7 0, [1, 2, 0])] },
      goes { specGrnFwWrite with resources := fun _ _ => none } [1] 4096 (poke 0x3000 [(0, 0x46565349), (4, 1)] (ready .service))
        (fun p d => d.grn.fwBusy.isNone && decide (bufA p + bufL p ≤ 0x2000000000)),
      go specEvrRead [0] 64 (ready .run),
      goes specEvrLog [0x80, 1] 0 (setP (Reg.budClsStat 11) 2 (ready .run)) (fun _ d => recorderPaused d && decide (d.grn.evq.length < 64)),
      goes specEvrLog [0xFF, 1] 0 (ready .config) (fun _ d => !(recorderPaused d || clearing d || !d.grn.evq.isEmpty)),
      goes specEvrClear [2] 0x44 (keyed 2 0x40000410 (poke 0x3000 [(0, 0x43565349), (4, 1)] (ready .run))) (fun p d =>
        let b := rdBytes d (bufA p) (bufL p)
        decide (0x44 + fieldLE b 0x40 4 ≤ bufL p) && decide (sliceB b 0 4 = [0x49, 0x53, 0x56, 0x43]) && decide (fieldLE b 4 4 = 1) &&
        (sliceB b 0x20 32).all (fun x => x = 0) &&
        (slotRefusalBy d (param p 0) (fun x => decide (attrType x.attr = 4) && attrUse x.attr 4 && bitAt x.attr 10)
          (pktClass p d) none).isNone &&
        decide ((countUse (param p 0) d).grn.refuse = false ∧ retainedBytes (countUse (param p 0) d).grn +
          queuedBytes (countUse (param p 0) d).grn + jBytes 12 40 ≤ jRing - jReserve))].all id) = true := by decide +kernel

theorem sum_bound {f : Nat → Nat} {b : Nat} (l : List Nat) (h : ∀ x ∈ l, f x ≤ b) (n : Nat) :
    l.foldl (fun n x => n + f x) n ≤ n + l.length * b := by
  induction l generalizing n with
  | nil => simp
  | cons x l ih =>
    have h1 := ih (fun y hy => h y (List.mem_cons_of_mem _ hy)) (n + f x)
    have h2 := h x List.mem_cons_self
    simp only [List.foldl_cons, List.length_cons, Nat.add_mul, Nat.one_mul]
    omega

/-- The snapshot of the calibration registers fits the journal of a device whose journal is empty. -/
theorem witness_snapshot :
    let p := cmd 0xF03 [1] 0
    let d := begun specGrnSnapshot p (st (ready .config))
    starts specGrnSnapshot p (st (ready .config)) = true ∧ param p 0 < 2 ∧
    journalTakes d (5 + param p 0 % 2) (4 * (snapshotWords (param p 0 % 2) d).length) := by
  intro p d
  refine ⟨by decide +kernel, by decide +kernel, by decide +kernel, ?_⟩
  have hp : param p 0 % 2 = 1 := by decide +kernel
  have h0 : retainedBytes d.grn + queuedBytes d.grn = 0 := by decide +kernel
  rw [hp, h0]
  have hl : (snapshotWords 1 d).length ≤ 32777 := by
    have hc : (configOffsets 0x0D0000 0x0E0000).length ≤ 16384 := by
      refine Nat.le_trans (List.length_filter_le _ _) ?_
      simp
    simp only [snapshotWords, List.length_append, List.length_flatMap, List.length_cons, List.length_nil, Nat.one_ne_zero, if_false,
      List.length_map, List.length_range, List.map_const', List.sum_replicate_nat]
    omega
  generalize (snapshotWords 1 d).length = m at hl ⊢
  have hn : max 1 (ceilDiv (4 * m) 65464) ≤ 3 := by
    unfold ceilDiv
    omega
  have hb := sum_bound (f := jSize) (b := 65600)
    ((List.range (max 1 (ceilDiv (4 * m) 65464))).map (fun i => 8 + min 65464 (4 * m - 65464 * i))) (by
      intro x hx
      obtain ⟨i, -, rfl⟩ := List.mem_map.mp hx
      simp only [jSize, roundUp, ceilDiv]
      omega) 0
  simp only [List.length_map, List.length_range, Nat.zero_add] at hb
  have hj : jBytes (5 + 1) (4 * m) =
      ((List.range (max 1 (ceilDiv (4 * m) 65464))).map (fun i => 8 + min 65464 (4 * m - 65464 * i))).foldl
        (fun n x => n + jSize x) 0 := rfl
  have hr : jRing - jReserve = 14352384 := by decide
  omega

theorem witness_KeyRowsAllComplete :
    ([goes specSecGenerate [255, 0x30000000, 0, 0, 2] 0 (ready .config) (fun p d =>
        slotFree d (param p 0) && attrOk (param p 1) && decide (attrType (param p 1) ≠ 4)),
      goes specSecGenerate [2, 0x10000000] 0 (ready .service) (fun p d =>
        slotFree d (param p 0) && attrOk (param p 1) && decide (attrType (param p 1) ≠ 4)),
      goes specSecImport [2, 0x40000010] 60 (ready .config) (fun p d => slotFree d 2 && !bitAt (param p 0) 16 && attrOk (param p 1)),
      goes specSecImport [0x302, 0x10000000] 40 (keyed 3 0x10000040 (ready .config)) (fun p d =>
        slotFree d 2 && !bitAt (param p 0) 16 && attrOk (param p 1) && decide (attrType (param p 1) ≠ 3 ∧ attrType (param p 1) ≠ 4) &&
        (slotRefusal d 3 [1] 6 (pktClass p d) none).isNone),
      goes specSecImport [0x10302, 0] 56 (keyed 3 0x10000040 (ready .config)) (fun p d =>
        slotFree d 2 && bitAt (param p 0) 16 && (slotRefusal d 3 [1] 6 (pktClass p d) none).isNone),
      goes specSecExport [0x302] 48 (keyed 3 0x10000040 (keyed 2 0x10000200 (ready .config))) (fun p d =>
        let x := slotOf d 2
        decide ((exportBytes x).length + 8 ≤ bufL p) &&
        (slotRefusalBy d 2 (fun _ => true) (pktClass p d) (if bitAt x.attr 9 then none else some (refuse 0x0013 0x04))).isNone &&
        (slotRefusal d 3 [1] 6 (pktClass p d) none).isNone),
      goes specSecDelete [2] 0 { keyed 2 0x30000008 (ready .config) with sec.signq := [⟨0, 2, 0, false, [], none, false⟩] } (fun p d =>
        decide (2 ≤ param p 0 ∧ (slotOf d (param p 0)).state ≠ .empty) && keyBusy d (param p 0)),
      goes specSecDelete [255] 0 (keyed 255 0x30000008 (ready .service)) (fun p d =>
        decide (2 ≤ param p 0 ∧ (slotOf d (param p 0)).state ≠ .empty) && !keyBusy d (param p 0)),
      goes specSecDerive [0x300, 0x10000000] 64 (keyed 0 0x50000020 (ready .config)) (fun p d =>
        slotFree d 3 && attrOk (param p 1) && decide (attrType (param p 1) ≤ 2) && (slotRefusal d 0 [2, 5] 5 (pktClass p d) none).isNone),
      goes specSecDerive [0x302, 0x20000000] 1 (keyed 2 0x20000020 (ready .config)) (fun p d =>
        slotFree d 3 && attrOk (param p 1) && decide (attrType (param p 1) ≤ 2) &&
        (slotRefusal d 2 [2, 5] 5 (pktClass p d) none).isNone)].all id) = true := by decide +kernel

/-- Operation `op` of SEC_CIPHER with the key of slot 2, an IV that is 0 or not. -/
def ciphers (op a iv : Nat) : Bool :=
  goes specSecCipher [2 + 256 * op] 64 (keyed 2 a (poke 0x3000 (if iv = 0 then [] else [(8, iv)]) (ready .run))) (fun p d =>
    (cipherRefusal p d).isNone && decide (bits (param p 0) 10 8 = op) && ((cIv p d).all (fun b => b = 0) == decide (iv = 0)))

theorem witness_CryptographyRowsAllComplete :
    ([ciphers 0 0x10000001 1, ciphers 0 0x10000001 0, ciphers 1 0x10000002 1, ciphers 2 0x10000004 0, ciphers 3 0x10000004 0,
      ciphers 4 0x20000004 0, ciphers 5 0x20000004 0, ciphers 6 0 0,
      goes specSecSign [2] 1292 (keyed 2 0x30000008 (ready .run)) (fun p d =>
        decide (32 ≤ bufL p ∧ sigLen (slotOf d 2) ≤ bufL p) && (slotRefusal d 2 [3] 3 (pktClass p d) none).isNone &&
        decide (d.sec.signq.length < 9)),
      goes specSecVerify [2] 36 (keyed 2 0x40000010 (ready .run)) (fun p d =>
        decide (36 + rdLE d (bufA p + 32) 4 ≤ bufL p) && (slotRefusal d 2 [4] 4 (pktClass p d) none).isNone),
      goes specSecAttest [] 1872 (keyed 1 0x30000008 (ready .run)) (fun p d =>
        (slotRefusal d 1 [3] 3 (pktClass p d) none).isNone && decide (d.sec.signq.length < 9)),
      goes specSecPubkey [2] 60 (keyed 2 0x40000000 (ready .run)) (fun p d =>
        (slotRefusalBy d 2 (fun x => decide (attrType x.attr = 3 ∨ attrType x.attr = 4)) (pktClass p d) none).isNone),
      go specSecRandom [4096] 4096 (ready .run), go specSecRandom [1] 1 (ready .config)].all id) = true := by decide +kernel

theorem witness_PanelClockHealthRowsComplete :
    ([goes specPavDraw [0xEF013F, 0x10001] 4 { ready .run with pav.flip := some 5 } (fun _ d => d.pav.flip.isSome),
      goes specPavDraw [0, 0x10001] 4 (ready .config) (fun _ d => d.pav.flip.isNone), go specPavFlip [] 0 (ready .run),
      go specPavStressRead [230399, 1] 4 (ready .run),
      goes specPavStressPreset [230399, 1] 4 (ready .config) (fun _ d =>
        decide (d.grn.refuse = false ∧ retainedBytes d.grn + queuedBytes d.grn + jBytes 11 stressLen ≤ jRing - jReserve)),
      goes specRtcSet [1, 0, 0, 0] 0 (setF Reg.rtcStat 1 1 0 (reg Reg.timEpochLo 1577836800 (setF Reg.timStat 0 0 1 (ready .run))))
        (fun p _ => decide (param p 0 % 2 = 1)),
      goes specRtcSet [0, 0xC70C1F, 0x173B3B] 0 (setF Reg.rtcStat 1 1 0 (ready .config)) (fun p _ => decide (param p 0 % 2 = 0)),
      go specRtcAlarm [1, 0x81010C1F, 0x173B3B] 0 (setF Reg.rtcStat 1 1 0 (ready .run)), go specRtcUnlock [] 0 (setF Reg.rtcStat 2 2 1 (ready .run)),
      go specRtcTrim [0x3FF] 0 (setF Reg.rtcStat 1 1 0 (ready .run)), go specHltRefresh [] 0 (ready .hold),
      goes specHltBatTest [] 0 { ready .run with rtc.onVbat := true } (fun _ d => d.rtc.onVbat),
      goes specHltBatTest [] 0 { ready .run with rtc.onVbat := false } (fun _ d => !d.rtc.onVbat && d.hlt.testAt.isNone)].all id) = true := by decide +kernel


/-! ### Register accesses, pins, resets: hypotheses that a state meets -/

/-- A device in RUN with rings 0 and 63 served. -/
def rings2 : Dev := { ready .run with cmd.rings := [(0, ring0), (63, { ring0 with cqTail := 3 })] }

theorem witness_DoorbellRowsAllComplete :
    (let r := ringOf rings2 63
     [reachable rings2, decide (r.st = .active), decide (15 < r.depth),
      decide ((r.sqTail + r.depth - r.sqHead) % r.depth + (15 + r.depth - r.sqTail) % r.depth < r.depth),
      decide ((3 + r.depth - r.cqHead) % r.depth ≤ (r.cqTail + r.depth - r.cqHead) % r.depth)].all id) = true := by decide +kernel

theorem witness_DoorbellDiscarded :
    (let r := ringOf rings2 63
     let q := ringOf rings2 62
     [reachable rings2, decide (q.st ≠ .active), decide (r.st = .active), decide (r.depth ≤ 16),
      decide (r.depth ≤ (r.sqTail + r.depth - r.sqHead) % r.depth + (0 + r.depth - r.sqTail) % r.depth),
      decide ((r.cqTail + r.depth - r.cqHead) % r.depth < (4 + r.depth - r.cqHead) % r.depth)].all id) = true := by decide +kernel

/-- A device with no ring active on the host. -/
def quiet : Dev := { ready .config with cmd.rings := [] }

theorem witness_AccessRowsAllComplete :
    ([reachable quiet, reachable (ready .run),
      !(List.range 64).any (fun n => decide ((ringOf quiet n).st = .active) && !(ringOf quiet n).loc),
      (List.range 64).any (fun n => decide ((ringOf (ready .run) n).st = .active) && !(ringOf (ready .run) n).loc),
      decide (Reg.rtcCommit % 4 = 0), !isMsixTable Reg.rtcCommit, !isMsixPba Reg.rtcCommit, decide (Reg.rtcCommit % 0x10000 < 0x8000),
      offsetImplemented Reg.rtcCommit, decide (postMask Reg.rtcCommit ≠ 0),
      decide (0x1000FFE % 4 ≠ 0), decide (0x1007FFC % 4 = 0), !isMsixTable 0x1007FFC, !isMsixPba 0x1007FFC,
      decide (0x1007FFC % 0x10000 < 0x8000), !offsetImplemented 0x1007FFC,
      !isMsixTable 0x8000, !isMsixPba 0x8000, decide (0x8000 ≤ 0x8000 % 0x10000)].all id) = true := by decide +kernel

theorem witness_PostedAndCanRegisterRowsComplete :
    ([decide (posted { ready .run with rg.post := [(8, some (Reg.canCtl 7, 1))] } 8 = some (Reg.canCtl 7, 1)),
      decide (posted { ready .run with rg.post := [(0, some (Reg.rtcCommit, 0xF))] } 0 = some (Reg.rtcCommit, 0xF)),
      decide ((0xF : Word).toNat &&& 1 ≠ 0 ∧ (0xF : Word).toNat &&& 6 ≠ 0 ∧ (0xF : Word).toNat &&& 8 ≠ 0),
      decide (posted { ready .run with rg.post := [(0, some (Reg.rtcUnlock, 0xA5))] } 0 = some (Reg.rtcUnlock, 0xA5))].all id) = true ∧
    (let full : Dev := setMb 7 63 2 true (setCbuf 7 63 { CanBuf.zero with shadow := some default } (ready .run))
     [reachable full, !mbBit (ready .run) 7 63 2, mbBit (setMb 7 63 2 true (ready .run)) 7 63 2,
      decide ((cbufOf (setMb 7 63 2 true (ready .run)) 7 63).shadow = none), mbBit full 7 63 2, (cbufOf full 7 63).shadow.isSome,
      !(fifoOf (canHeld (ready .run)) 7 0).isEmpty,
      !(fifoOf { ready .run with can.ctl := smSet CanCtl.reset [] 0 { CanCtl.reset with fifo1 := [default] } } 0 1).isEmpty,
      decide ((ready .run).sys.mode ≠ .standby ∧ 3 ≤ (ready .run).sys.mode.code),
      canStatBit (writePlain (Reg.canCtl 7) 0 (setStat 7 31 true (ready .run))) 7 31].all id) = true := by
  constructor <;> decide +kernel

/-- Class 15 paused. -/
def stopped15 : Dev := setF (Reg.budClsStat 15) 1 1 1 (ready .run)

theorem witness_InterfaceRowsAllComplete :
    ([decide ((writePlain (Reg.ioxGpioOut 2) 5 (ready .run)).sys.mode = .run),
      decide ((writePlain (Reg.ioxGpioOut 2) 5 (ready .config)).sys.mode ≠ .run),
      winReaches (ready .run) (winBase (ready .run) + 0x1FFFFFF) 1 false, winReaches (ready .run) (winBase (ready .run)) 4 true,
      !classStops (ready .run) 15, (ready .run).cmd.bar2.isEmpty, classStops stopped15 15,
      winReaches stopped15 (winBase stopped15 + 0x1FFFFFF) 1 false, winReaches stopped15 (winBase stopped15) 4 true,
      !(ready .run).cmd.spiBusy, !(List.range 256).any (fun i => decide (spiTarget (0x1700 + i) = .none)),
      !(List.range (4 * ceilDiv 5 4)).any (fun i => decide (spiTarget (0x2000 + i) = .none)),
      (let d : Dev := { ready .run with cmd.spiBusy := true, cmd.spiWrite := some (0, [1, 2, 3, 4]) }
       reachable d && d.cmd.spiWrite.isSome),
      decide ((ringOf rings2 63).st ≠ .disabled), canFetch rings2 63,
      (let d : Dev := { ready .run with cmd.rings := [(0, { ring0 with msgDue := true, lastMsg := some 5 })] }
       reachable d && (ringOf d 0).msgDue && (ringOf d 0).lastMsg.isSome),
      (nextTimed (waiting 0x501)).isSome].all id) = true := by decide +kernel

theorem witness_PowerRowsAllComplete :
    ([decide ((ready .backup).sys.mode = .backup), decide ((ready .run).sys.mode ≠ .backup), !(ready .run).sys.resetLow,
      ({ ready .run with sys.resetLow := true } : Dev).sys.resetLow, !(ready .run).sys.pfail,
      ({ ready .run with sys.pfail := true } : Dev).sys.pfail, ({ ready .run with sys.refPresent := true } : Dev).sys.refPresent,
      !({ ready .run with sys.refPresent := false } : Dev).sys.refPresent].all id) = true := by decide +kernel

theorem witness_FrameBoundaryRowCompletes :
    ([(ready .run).sys.seqOn, (fireBoundary (ready .run)).trl.lease,
      !(fireBoundary { ready .run with trl.lease := false }).trl.lease].all id) = true := by decide +kernel

/-- The sheaf run of `sheafRunning`, begun, and in the phase `ph`. -/
def sheafAt (ph : RunPhase) : Dev :=
  { sheafRunning with pln.runs := sheafRunning.pln.runs.map (fun r => { r with phase := ph }) }
/-- The same run with a share that unit 2 has not reported. -/
def sheafShared : Dev := { sheafAt .status with shf := sheafRunning.shf.map (fun q => { q with shares := [(2, 0, 1)] }) }
def lsqAt (ph : RunPhase) : Dev := { lsqRunning with pln.runs := lsqRunning.pln.runs.map (fun r => { r with phase := ph }) }
/-- A device whose squashed sheaf waits to be solved again. -/
def reSolving (firm : Bool) : Dev := { sheafRunning with ra.resolves := [⟨0, 5, firm, 3⟩], pln.runs := [] }
/-- The plan in slot 0 is left unplaced. -/
def noPlace (d : Dev) : Dev := { d with plc.unplaced := smSet false d.plc.unplaced 0 true }
/-- Every slot is to be placed again on this tick. -/
def replacing (id : Option Nat) : Dev :=
  { ready .config with plc.replacePend := true, plc.rebuild := id, plc.replaceAt := some (ready .config).tim.ticks }

theorem witness_RunEventRowsAllComplete :
    ([[some 5, none].all (fun x =>
        let d := replacing x
        d.plc.replacePend && !runInProgress d && decide (d.plc.replaceAt = some d.tim.ticks) && decide (d.plc.rebuild = x)),
      (findRun sheafShared 0).elim false (fun r => decide (r.phase = .status)),
      (sheafOf sheafShared 0).elim false (fun q => (q.shares.find? (fun x => x.1 = 2)).isSome),
      [true, false].all (fun f =>
        let d := reSolving f
        (d.ra.resolves.find? (fun y => y.cmd = 0)).elim false (fun x => x.firm || !earlierResolve d x) &&
        slicesRun d 5 && (findCmd d 0).elim false (fun c =>
          let p := resolvePkt ⟨0, 5, f, 3⟩ c.pkt
          let d1 : Dev := { d with ra.resolves := d.ra.resolves.filter (fun y => y.cmd ≠ 0) }
          (planIn d1 (subSlot p)).elim false (fun pl => decide (subEntry p < pl.entries.length))))].all id) = true := by decide +kernel

theorem witness_RunEventRowsAllComplete_start :
    ([(sheafOf sheafRunning 0).isSome,
      (findRun sheafRunning 0).elim false (fun r => canStart sheafRunning r && !unplacedSlot sheafRunning r.slot &&
        (findRun (startRun r sheafRunning) 0).elim false (fun r1 => decide (r1.kind ≠ .lsq))),
      (findRun (noPlace sheafRunning) 0).elim false (fun r => canStart (noPlace sheafRunning) r &&
        unplacedSlot (noPlace sheafRunning) r.slot),
      (lsqOf lsqRunning 0).elim false (fun q => !bitAt q.lflags 0)].all id) = true := by decide +kernel

theorem witness_RunEventRowsAllComplete_end :
    ([(findRun lsqRunning 0).elim false (fun r => canStart lsqRunning r && !unplacedSlot lsqRunning r.slot &&
        (findRun (startRun r lsqRunning) 0).elim false (fun r1 => decide (r1.kind = .lsq))),
      (let d : Dev := { sheafRunning with pln.runs := sheafRunning.pln.runs.map (fun r => { r with deadline := 99 }) }
       (findRun d 0).elim false (fun r => decide (r.deadline ≠ 0) && (findRun (advanceTo r.deadline d) 0).isSome)),
      (findRun (sheafAt .status) 0).elim false (fun r => decide (r.phase = .status ∧ r.kind = .sheaf) &&
        !classStops (sheafAt .status) r.cls),
      (sheafOf (sheafAt .status) 0).elim false (fun q => q.shares.isEmpty),
      (findRun (lsqAt .status) 0).elim false (fun r => decide (r.phase = .status ∧ r.kind = .lsq) && !classStops (lsqAt .status) r.cls),
      (lsqOf (lsqAt .status) 0).isSome].all id) = true := by decide +kernel


/-! ### Kernels: hypotheses that a state meets -/

/-- A run of kind `k` that stands at its only record, of kernel `kernel`, inside the loops `ls`. -/
def atRec (k : RunKind) (kernel arg : Nat) (ls : List (Nat × Nat)) : Dev :=
  { sheafRunning with
    pln.runs := sheafRunning.pln.runs.map (fun r =>
      { r with kind := k, phase := .records, loops := ls, plan := { r.plan with recs := [rec0 kernel 0 0 arg] } }) }

/-- That run's record ends now, in the sense of `recordReady`, once its reads of the register mirror are done. -/
def endsNow (d : Dev) (kernel : Nat) (cond : KRec → Bool) : Bool :=
  (findRun d 0).elim false (fun r =>
    let e := stageRecord kernel cond 0 d
    decide (findRun e 0 = some r) && recordEnds e r kernel cond)

/-- The same of the run of `atRec`, which has that kind, those loops and that argument. -/
def due (k : RunKind) (kernel arg : Nat) (ls : List (Nat × Nat)) (cond : KRec → Bool := anyRec) : Bool :=
  endsNow (atRec k kernel arg ls) kernel cond &&
  (findRun (atRec k kernel arg ls) 0).elim false (fun r => decide (r.kind = k ∧ (recAt r.plan 0).arg = arg ∧ r.loops = ls))

theorem witness_RecordKernelRowsComplete :
    ([due .sheaf 0x00 0 [], due .sheaf 0x01 5 [], due .sheaf 0x02 0 [], due .sheaf 0x02 2 [], due .sheaf 0x03 2 [(0, 0)],
      due .sheaf 0x03 3 [(0, 0), (0, 1)], due .sheaf 0x03 1 [(0, 0)], due .sheaf 0x03 1 [(0, 0), (0, 1)], due .sheaf 0x04 0 [],
      due .sheaf 0x07 0 [], due .sheaf 0x05 0 [], due .sheaf 0x08 0 []].all id) = true := by decide +kernel

theorem witness_MatrixKernelRowsComplete :
    (([0x09, 0x0A, 0x0B, 0x0C, 0x10, 0x11, 0x12, 0x13, 0x14, 0x15, 0x16, 0x17].map (fun c => due .sheaf c 0 [])).all id) = true := by decide +kernel

/-- A known-answer entry of class 13 in slot 0, whose one record fills a tile that its plan holds in cluster memory. -/
def testDev : Dev :=
  { ready .run with
    pln.slots := [(0, ⟨some ⟨9, 0, 0, 0x180, 0, [], [⟨13, 0, 0, 1, 1, 24, 24⟩], [{ rec0 0x22 0 1 0 with steps := 1 }]⟩, 0, 1⟩)],
    pln.loads := 1 }

theorem witness_EngineKernelRowsComplete :
    ((([0x06, 0x18, 0x19, 0x1A, 0x1B, 0x1C, 0x1D, 0x1F].map (fun c => due .lsq c 0 [])) ++
      [due .lsq 0x1E 0 [] dampRec, due .lsq 0x1E 1 [] decideRec, due .extrapolate 0x20 0 [], due .extrapolate 0x21 0 [],
       (let d := startSelfTest 0 0 testDev
        (testRun d 0 0).elim false (fun r => !d.sys.pfail && idleFor d r && decide (findRun d r.id = some r) &&
          recordEnds d r 0x22 anyRec))]).all id) = true := by decide +kernel

/-- The run of `atRec` as no sheaf, on a tile of the fixed extrapolation area, or on a private tile in cluster memory. -/
def tiled (kernel binding : Nat) : Dev :=
  { atRec .sheaf kernel 0 [] with
    shf := []
    plc.homes := [⟨0, 0, 0xFF, 0, 0, 0, 0, 1, 16, 2, 0, 0⟩]
    pln.runs := (atRec .sheaf kernel 0 []).pln.runs.map (fun r =>
      { r with plan := { r.plan with tiles := [{ (default : Tile) with binding := binding, kind := 2, rows := 2, cols := 3, bytes := 96 }],
                                     recs := [{ rec0 kernel 3 2 0 with m := 2, opnd := [0, 0, 0, 0] }] } }) }

/-- What the frame of the element kernels asks of a run that stores into operand `dst`, for the byte at `a`. -/
def framed (c binding dst a : Nat) : Bool :=
  (findRun (tiled c binding) 0).elim false (fun r =>
    let e := stageRecord c anyRec 0 (tiled c binding)
    let x := curRec r
    let tl := tileAt r.plan (opnd x dst)
    decide (r.kind ≠ .extrapolate) && (sheafOf e 0).isNone && endsNow (tiled c binding) c anyRec &&
    (List.range x.batch).all (fun j => (List.range x.m).all (fun i => (List.range x.n).all (fun n =>
      (List.range (elemSize tl.prec)).all (fun b =>
        (tileKey (paidDev e r) (paidRun e r) (opnd x dst) (elemOfs tl j i n + b)).elim true
          (fun k => decide (k < mirrorIn ∧ k ≠ a)))))))

theorem witness_ElementKernelsFrame :
    ([framed 0x05 4 0 5, framed 0x04 4 1 5, framed 0x07 4 1 5, framed 0x08 0 1 5, framed 0x05 4 0 0x31000060].all id) = true := by decide +kernel

/-! ### Scans, pins, converters, meters: hypotheses that a state meets -/

/-- A device with one scan in stage `g`. -/
def scan (g : ScanStage) (d : Dev) : Dev := { d with cle.scans := [⟨g, Capture.none, 0, false, 250000, 0, 0⟩] }
/-- A frame's loops at loop 0, which is enabled; `w` makes it wait a retune. -/
def sampling (w : Option Retune) : Dev :=
  { reg (Reg.clpEn 0) 1 (ready .run) with
    clp.jobs := [⟨Capture.none, [], 0, [], 250000, false⟩]
    clp.loops := smSet LoopSt.reset [] 0 { LoopSt.reset with retune := w } }
/-- An entry of the launch queue that fires at `t`. -/
def entry (t : Nat) (spec : Option Nat) : LEntry :=
  { time := t, value := 1, kind := 0, flags := 0, index := 0, fireAt := t, owner := 0, spec := spec, bySpec := false, late := false }

theorem witness_ScanAndLaunchRowsComplete :
    ([scansRun (scan .due (scanning .run)), !scanPaused (scan .due (scanning .run)),
      scansRun (scan .due (setP (Reg.budClsStat 2) 2 (scanning .run))), scanPaused (scan .due (setP (Reg.budClsStat 2) 2 (scanning .run))),
      decide ((scan .pausedIn (scanning .run)).cle.scans.map (·.stage) = [.pausedIn]), !scanPaused (scan .pausedIn (scanning .run)),
      decide ((scan .pausedOut (scanning .run)).cle.scans.map (·.over_) = [false]), !scanPaused (scan .pausedOut (scanning .run)),
      (let d : Dev := { ready .run with lch.q := [(0, some (entry 9 none)), (300, some (entry 9 (some 4)))] }
       (firstFire d).elim false (fun t => !(dueEntries t (advanceTo t d)).isEmpty &&
         !(awaitedBoundary d).any (fun b => decide (b ≤ now (advanceTo t d)))) && decide (3 ≤ d.sys.mode.code) && d.sys.seqOn),
      [none, some ⟨0, [], false, 0, false, 0⟩].all (fun w =>
        let e := endJobs (dropDue (sampling w))
        (e.clp.jobs.head?).elim false (fun j => !j.waitScan && decide (nextLoop e j = some 0) &&
          decide ((loopOf e 0).retune = w))),
      [(Mode.config, 1), (Mode.run, 0), (Mode.run, 1)].all (fun x =>
        let d : Dev := { ready x.1 with tim.repeats := [⟨5, 0, 0, x.2, []⟩] }
        let d1 := advanceTo 5 { d with tim.repeats := [] }
        decide (d1.sys.mode = x.1))].all id) = true := by decide +kernel

/-- Nor does the charge of that sample, whatever it is, stop class 1. -/
theorem witness_LoopSampleRuns : ∀ w ∈ [none, some ⟨0, [], false, 0, false, 0⟩],
    let e := endJobs (dropDue (sampling w))
    classStops (charge 1 .beats (Config.loopBeats 0).toNat { e with clp.jobs := e.clp.jobs.map (fun j => { j with next := 1 }) }) 1 =
      false := by
  intro w hw e
  have h : Sorted e ∧ e.pln.fp = none ∧ classStops { e with clp.jobs := e.clp.jobs.map (fun j => { j with next := 1 }) } 1 = false := by
    simp only [List.mem_cons, List.not_mem_nil, or_false] at hw
    obtain rfl | rfl := hw <;> decide +kernel
  exact (classStops_charge_open (d := { e with clp.jobs := e.clp.jobs.map (fun j => { j with next := 1 }) }) h.1 h.2.1 1 .beats _
    (by decide)).trans h.2.2

theorem witness_PinEventRowsAllComplete :
    ([pwmOn (reg (Reg.ioxPwmCfg 15) 0x80000000 (ready .run)) 15,
      (poOf (setPo 7 ⟨1, true, 5, 9⟩ (ready .run)) 7).active,
      (let d := setPo 7 ⟨1, false, 5, 9⟩ (reg (Reg.ioxPoCfg 7) 0x80000000 (ready .run))
       !(poOf d 7).active && poLaunch d 7 && decide ((poOf d 7).remaining ≠ 0)),
      [0x80000000, 0x80000100, 0x80000200].all (fun v =>
        bitAt (regA (reg (Reg.ioxPiCfg 15) v (ready .run)) (Reg.ioxPiCfg 15)) 31 &&
        decide (bits (regA (reg (Reg.ioxPiCfg 15) v (ready .run)) (Reg.ioxPiCfg 15)) 9 8 = bits v 9 8)),
      !bitAt (regA (ready .run) (Reg.ioxPiCfg 0)) 31,
      (let d := reg (Reg.adcTimerCfg 7) 0x80000001 (ready .run)
       decide (smGet none (d.adc.timerLast.map (fun kv => (kv.1, some kv.2))) 7 = none) &&
       bitAt (regA d (Reg.adcTimerCfg 7)) 31 && decide (4 * bits (regA d (Reg.adcTimerCfg 7)) 23 0 < d.sys.frameLen)),
      !({ ready .run with adc.reqs := [⟨0, 5, none⟩] } : Dev).adc.reqs.isEmpty,
      (let d : Dev := { ready .run with adc.convs := [⟨some (3, 0, 7, 9), [], false⟩, AdcConv.idle] }
       (convOf d 0).running.isSome && !(convOf d 0).last && !adcOn d 0),
      [0x100000, 0x000000].all (fun v =>
        let d : Dev := { reg Reg.adcCtl 1 (reg (Reg.adcSeqCfg 3) v (ready .run)) with
          adc.convs := [⟨some (3, 0, 7, 9), [], false⟩, AdcConv.idle] }
        (convOf d 0).running.isSome && adcOn d 0 &&
        decide ((0 < bits (seqCfg d 3) 23 20) = (v ≠ 0)))].all id) = true := by decide +kernel

/-- A device whose electricity meter is on, its phases with `n` samples below 0 before the next. -/
def metering (n : Nat) : Dev :=
  { reg Reg.mtrCtl 1 (ready .run) with
    mtr.on := true
    mtr.phases := List.replicate 3 { Phase.reset with negRun := n, halfDone := true } }

/-- The crossings that a sample of zeros brings. -/
def crossings (d : Dev) : List Nat :=
  let k := max (d.mtr.lastTick / 31250 + 1) (ceilDiv d.tim.ticks 31250) * 31250
  let d1 := advanceTicks k d
  let d3 := { d1 with mtr.lastTick := k, mtr.hist := (now d1, List.replicate 8 (0 : Int)) :: d1.mtr.hist }
  let d4 := [0, 1, 2].foldl (fun d p => halfWindow p d) d3
  ([0, 1, 2].foldl (fun (r : List Nat × Dev) p =>
    ((match (lookCross p r.2).1 with
      | some _ => r.1 ++ [p]
      | none => r.1), (lookCross p r.2).2)) (([] : List Nat), d4)).1

theorem witness_MeterEventRowsAllComplete :
    ([elecOn (metering 0), decide (crossings (metering 0) = []), decide ((crossings (metering 40)).contains 0),
      decide ((metering 0).mtr.on = true),
      decide (evMode (reg (Reg.mtrEvtCfg 2) 0x80000000 (metering 0)) 2 = 2), (phaseOf (metering 0) 2).zx.isNone,
      (({ metering 0 with mtr.jobs := [⟨3, 0, 0, 0, 0, 0⟩] } : Dev).mtr.jobs.find? (fun j => j.c = 3)).isSome, !classStops (metering 0) 6,
      decide (3 ≤ (metering 0).sys.mode.code ∧ (metering 0).mtr.pfailed = false),
      !poLaunch (metering 0) 7, pulsesDriven (metering 0),
      decide ((mpOf (setMp 7 { MtrPulse.zero with restored := 1 } (metering 0)) 7).restored ≠ 0),
      decide ((mpOf (setMp 7 { MtrPulse.zero with queue := [5] } (metering 0)) 7).restored = 0),
      !(mpOf (setMp 7 { MtrPulse.zero with queue := [5] } (metering 0)) 7).queue.isEmpty].all id) = true := by decide +kernel


/-! ### Buses, network, chain: hypotheses that a state meets -/

/-- A device on the bus of CAN controller 7 in normal operation, its counters as given. -/
def onBus (m : Mode) (tec rec_ : Nat) : Dev :=
  setStat 7 26 true (setCan 7 { CanCtl.reset with tec := tec, rec_ := rec_ } (reg (Reg.canCtl 7) 4 (ready m)))

theorem witness_CanEventRowsAllComplete :
    ([decide (canActs (onBus .run 0 127) 7 = 1), decide (canActs (onBus .standby 0 0) 7 = 2), canStatBit (onBus .run 0 127) 7 26,
      !canStatBit (onBus .run 0 127) 7 31, decide ((canOf (onBus .run 0 127) 7).run = none),
      decide ((canOf (onBus .run 0 127) 7).rec_ ≤ 127), decide (127 < (canOf (onBus .run 0 128) 7).rec_), !bitAt 0x20000008 31,
      bitAt 0x80000008 31 && canFd (reg (Reg.canCtl 7) 6 (onBus .run 0 0)) 7,
      (let d := setCan 7 { CanCtl.reset with run := some 63 } (onBus .run 0 0)
       decide ((canOf d 7).run = some 63) && canMayTx d 7 && !bitAt (cbufOf d 7 63).format 31 && decide (canActs d 7 ≠ 3)),
      canStatBit (setStat 7 28 true (ready .run)) 7 28,
      (let d := setCan 7 { CanCtl.reset with take := true } (ready .config)
       (canOf d 7).take && decide ((canOf d 7).run = none)),
      !(canOf (onBus .run 0 0) 7).take, decide (canActs (onBus .run 0 0) 7 ≠ 0)].all id) = true := by decide +kernel

/-- A device whose port `p` is up with these bits of configuration. -/
def port (p cfg : Nat) (x : PtpPort) : Dev :=
  setPort p { x with speed := 1000 } (reg (Reg.ethCfg p) (1 + cfg) (ready .run))
/-- A header from source 9, port 1, sequence number 3, on port 0 of domain 0. -/
def hdr : PtpHdr := ⟨0, 0, 9, 1, 3, 0, 0⟩
/-- Its sender as a foreign master. -/
def master : Foreign := ⟨0, 9, 1, 128, 248, 0xFE, 0xFFFF, 128, 9, 0⟩
/-- A port of domain 0 whose parent is that sender. -/
def slave (cfg : Nat) (x : PtpPort) : Dev := setDom 0 { PtpDom.reset with parent := some master } (port 0 cfg x)

theorem witness_NetworkRowsAllComplete :
    ([decide (msgDom (slave 0x10 PtpPort.reset) hdr = some 0), inRange (-4) 1 hdr.interval,
      isParent (domOf (slave 0x10 PtpPort.reset) 0) hdr,
      (let d := slave 0x10 { PtpPort.reset with waiting := some ⟨9, 1, 3, 50, 0⟩ }
       decide (msgDom d hdr = some 0) && decide ((portOf d 0).waiting = some ⟨9, 1, 3, 50, 0⟩)),
      inRange (-3) 3 hdr.interval,
      (let d := slave 0x10 { PtpPort.reset with delayReq := some (3, 60), toSlave := some 7 }
       decide (msgDom d hdr = some 0) && decide ((portOf d 0).delayReq = some (3, 60) ∧ (portOf d 0).toSlave = some 7) && !isP2P d 0 &&
       isParent (domOf d 0) hdr),
      (let d := slave 0x110 { PtpPort.reset with pdelayReq := some (3, 60) }
       decide (msgDom d hdr = some 0) && decide ((portOf d 0).pdelayReq = some (3, 60)) && ptpOn d 0 && isP2P d 0),
      [0, 1].all (fun y =>
        let d := setF Reg.timStat 0 0 1 (setF Reg.timStat 2 2 y (reg Reg.timCtl 1 (slave 0x10 PtpPort.reset)))
        decide (msgDom d hdr = some 0) && decide (timeSource d = 1 ∧ activeDom d = y) && !holdover d && timeValid d),
      ptpOn (port 0 0x30 PtpPort.reset) 0 && decide (ptpRole (port 0 0x30 PtpPort.reset) 0 = 3) && !isP2P (port 0 0x30 PtpPort.reset) 0 &&
        decide (hdr.domain = domNumber (port 0 0x30 PtpPort.reset) 0),
      ptpOn (port 3 0x118 PtpPort.reset) 3 && isP2P (port 3 0x118 PtpPort.reset) 3,
      ptpOn (port 3 0x18 PtpPort.reset) 3 && decide (ptpRole (port 3 0x18 PtpPort.reset) 3 ≠ 3) && !isP2P (port 3 0x18 PtpPort.reset) 3,
      (let d := reg (Reg.ethIp4 0) 0x0A000001 (port 0 0 PtpPort.reset)
       portUp d 0 && ownIp d 0 (List.replicate 10 (0 : Byte) ++ [0xFF, 0xFF, 10, 0, 0, 1])),
      (let d0 := reg (Reg.ethIp4 0) 0x0A000001 (port 0 0x200 PtpPort.reset)
       let src : List Byte := List.replicate 15 (0 : Byte) ++ [7]
       let d : Dev := { d0 with tim.subst := [(5, { Subst.empty with addr := src, port := 0x80, slot := 0xFF })] }
       let b : List Byte := [0x49, 0x53, 0x56, 0x44, 1, 1, 5, 0] ++ leBytes 4 1 ++ [1, 0, 0, 0] ++ List.replicate 24 (0 : Byte)
       portUp d 0 && bitAt (ethCfg d 0) 9 && (telemetryFault src b d).isNone)].all id) = true := by decide +kernel

/-- A unit 1 whose upstream link is trained and whose time follows the chain as unit 2. -/
def chained : Dev := setF Reg.trlStat 28 28 1 (reg Reg.timCtl 2 (setF Reg.trlStat 4 0 2 (ready .run)))

theorem witness_TrellisEventRowsComplete :
    ([(let d : Dev := { ready .run with tim.alarms := [(3, some 9)] }
       decide (smGet none d.tim.alarms 3 = some 9 ∧ now d < 9)),
      decide ((ready .run).trl.enumInLow = false ∧ ownAddr (ready .run) = 0 ∧ (ready .run).sys.mode ≠ .backup),
      bitAt (regA (reg Reg.trlCtl 3 (ready .run)) Reg.trlCtl) 1, bitAt (regA (reg Reg.trlCtl 3 (ready .run)) Reg.trlCtl) 0,
      decide (fld (setF Reg.trlStat 27 27 1 (ready .run)) Reg.trlStat 27 27 = 1),
      decide (fld (setF Reg.trlStat 28 28 1 (ready .run)) Reg.trlStat 28 28 = 1),
      decide (fld chained Reg.trlStat 28 28 = 1 ∧ timeSource chained = 2), decide (chained.trl.marked = false),
      decide (({ chained with trl.marked := true } : Dev).trl.marked = true),
      (let d : Dev := { ready .run with sys.lastBoundary := some 0 }
       reports d && decide (d.trl.reported = false ∧ d.trl.lease = true ∧ now d ≤ cutOff d) && decide (5 ≤ d.sys.mode.code)),
      [(none, false), (none, true), (some 4, true)].all (fun x =>
        let d : Dev := { ready .run with trl.fault := x.2, trl.failover := x.1 }
        reports d && decide (d.trl.reported = false ∧ d.trl.lease = true ∧ now d ≤ cutOff d)),
      [(1, 0x2fb0a16a), (2, 0xb17c4d87)].all (fun x =>
        let b : List Byte := leBytes 60 x.1 ++ leBytes 4 x.2
        let d := setF Reg.trlStat 4 0 1 (ready .run)
        decide (crc32c (sliceB b 0 0x3C) = fieldLE b 0x3C 4 ∧ 1 ≤ fieldLE b 0 1 ∧ fieldLE b 0 1 ≤ 16 ∧ d.sys.mode ≠ .backup) &&
        decide ((fieldLE b 0 1 = ownAddr d) = (x.1 = 1)) && !addrConflict d),
      (let d : Dev := { setF Reg.trlStat 4 0 1 (ready .run) with trl.peers := [(16, ⟨[16], true, false, 2, 0, 0, 0⟩)] }
       decide (16 ≠ ownAddr d ∧ (peerOf d 16).fresh = false) && !(peerOf d 16).report.isEmpty)].all id) = true := by decide +kernel

/-- The acting standby of a pair, its items awaited. -/
def standby (image : Bool) : Dev :=
  let d := pairedDev .standby 5
  { d with trl.imageReq := image, trl.items := some [], trl.stepsWait := some (Capture.none, []) }

theorem witness_RedundancyEventRowsComplete :
    ([mirroring (standby false), (standby false).trl.stepsWait.isSome, (standby false).trl.items.isSome,
      decide ((standby true).trl.imageReq = true ∧ (standby false).trl.imageReq = false), decide (0 = frameNo (standby true)),
      actingStandby (standby true), !lenMismatch (standby true),
      (requestImage (orP Reg.redEvent 0x20 (bump 0xE 4 1 (raiseVec 70 (standby true))))).trl.stepsWait.isSome,
      (let d := setF Reg.trlStat 4 0 1 (ready .run)
       decide (ownAddr d ≠ 0 ∧ d.sys.mode ≠ .backup) && !addrConflict d && mapped d (0x8000000000 + ownAddr d * 0x400000000 + 0x3000) 4),
      [(Mode.standby, false), (Mode.standby, true), (Mode.run, false)].all (fun x =>
        let d : Dev := setPeerOwn x.2 { ready x.1 with trl.takeoverAt := some 9 }
        decide (d.trl.takeoverAt = some 9 ∧ d.sys.mode = x.1) && decide (peerOwnLow d = x.2)),
      (let d : Dev := { reg Reg.redCtl 0x211 (pairedDev .standby 5) with trl.healthyFrom := some 0, trl.peers := (pairedDev .standby 5).trl.peers }
       revertCondition d && decide (fldA d Reg.redCtl 4 4 = 1 ∧ d.trl.revertReq = false ∧ d.trl.revertAt = none)),
      (let d : Dev := { ready .run with trl.handoverAt := some 90000 }
       decide (d.trl.handoverAt = some 90000 ∧ d.trl.released = false ∧ 5 ≤ d.sys.mode.code) &&
       decide ((setPeerOwn true (advanceTo 90000 d)).sys.mode = .run)),
      (let d : Dev := { ready .standby with trl.handoverAt := some 90000 }
       decide ((setPeerOwn false (advanceTo 90000 d)).sys.mode ≠ .run)),
      [(Mode.standby, false), (Mode.standby, true), (Mode.config, false)].all (fun x =>
        let d : Dev := { ready x.1 with trl.revertAt := some 90000 }
        decide (d.trl.handoverAt = none ∧ d.trl.revertAt = some 90000) &&
        decide ((setPeerOwn x.2 (advanceTo 90000 d)).sys.mode = x.1))].all id) = true := by decide +kernel


/-! ### Stores, panel, clock, health: hypotheses that a state meets -/

/-- A device with an append of `type` that waits. -/
def queued (since : Option Nat) : Dev :=
  { ready .run with grn.queue := [⟨2, 0, [1], 4, some ⟨5, 0, 0, 0, 0, 0⟩, false, since⟩] }
/-- A checkpoint under way. -/
def checkpointing : Dev := { ready .run with grn.ckRun := some ⟨⟨1, 0, 0, false, [], 0, []⟩, false, none⟩ }

theorem witness_StoreEventRowsComplete :
    ([((queued none).grn.queue.find? (fun r => hasRoom r (queued none))).isSome, !classStops (queued none) 10,
      decide ((queued none).grn.refuse = false),
      (let d := setP (usedReg 10 .mgmt) 5 { queued none with
         pln.fp := planned.pln.fp.map (fun f => amendPlan f 10 2 ⟨0, 5⟩) }
       classStops d 10 && !classPaused d 10 && (d.grn.queue.find? (fun r => hasRoom r d)).isSome),
      ((queued (some 3)).grn.queue.find? (fun r => r.since.isSome && r.done.isSome)).isSome,
      (let d : Dev := { ready .run with grn.formatted := true }
       d.grn.ckRun.isNone && decide (d.grn.formatted = true ∧ d.grn.refuse = false ∧ d.sys.mode ≠ .backup ∧ d.sys.mode ≠ .boot) &&
         !classStops d 10 && classStops (setF (Reg.budClsStat 10) 1 1 1 d) 10),
      checkpointing.grn.ckRun.elim false (fun r => decide (r.marker = false)), decide (checkpointing.grn.refuse = false),
      [none, some 5].all (fun c =>
        let d : Dev := { ready .run with grn.evq := [⟨1, 1, 0, [], c⟩] }
        decide (d.grn.evq.map (·.cmd) = [c]) && !recorderPaused d && !clearing d),
      (let d : Dev := { ready .run with grn.recDirty := true, grn.recTime := some 4 }
       decide (d.grn.recDirty = true ∧ d.grn.refuse = false)),
      decide (smGet 0 (ready .run).grn.retired 4031 = 0 ∧ (ready .run).sys.mode ≠ .backup),
      decide ((ready .backup).sys.mode = .backup ∧ (ready .backup).sec.noiseFlag = false),
      (let d : Dev := { ready .run with sec.rootOk := true }
       decide (d.sys.mode ≠ .backup ∧ d.sec.trngFail = false ∧ d.sec.rootOk = true)),
      decide (2 ^ 20 ≤ ({ ready .run with sec.requests := 2 ^ 20 } : Dev).sec.requests),
      decide (({ ready .run with sec.trngFail := true } : Dev).sec.trngFail = true)].all id) = true := by decide +kernel

/-- A device whose panel timing is usable, at its last line. -/
def panel : Dev := { reg Reg.pavCtl 1 (ready .run) with pav.timing := ⟨400, 250, 1, 399, 5, 10, 2⟩, pav.line := 239 }

theorem witness_PanelClockHealthEventsComplete :
    ([decide (panel.sys.mode ≠ .backup), decide (panel.pav.line < 240),
      (let line (d : Dev) : Dev :=
         advanceTicks (d.pav.start + d.pav.line * d.pav.timing.hTotal + d.pav.timing.phStart) { d with pav.line := d.pav.line + 1 }
       blanked (line { ready .run with pav.line := 0 }) && !blanked (line panel) && !classStops (line panel) 9 &&
       classStops (line (setP (Reg.budClsStat 9) 2 panel)) 9 && !blanked (line (setP (Reg.budClsStat 9) 2 panel))),
      decide ((ready .run).rtc.commit ≠ some (ready .run).tim.ticks), ({ ready .run with sys.pfail := true } : Dev).sys.pfail,
      (let d : Dev := { ready .run with rtc.onVbat := false }
       decide (d.rtc.onVbat = false ∧ d.sys.pfail = false)),
      decide (3 ≤ (ready .config).sys.mode.code),
      [none, some 5].all (fun c =>
        let d : Dev := { ready .run with hlt.testAt := some 3, hlt.test := c }
        decide (d.hlt.testAt = some 3 ∧ d.hlt.test = c))].all id) = true := by decide +kernel

theorem witness_PanelDriveCode :
    ([decide (({ panel with pav.flip := none } : Dev).sys.mode ≠ .backup), decide (panel.pav.flip = none), decide (panel.cmd.resetting = []),
      (let d := advanceTicks (panel.pav.start + panel.pav.line * panel.pav.timing.hTotal + panel.pav.timing.phStart)
         { panel with pav.line := panel.pav.line + 1 }
       !blanked d && !classStops d 9)].all id) = true := by decide +kernel


/-! ### The statements about the block as a whole -/

/-- What every step keeps holds of this device. -/
def keeps (d : Dev) : Bool :=
  Memory.wf d.mem && d.wr.isEmpty && smWf none d.rg.present && smWf none d.rg.applied && smWf Ring.reset d.cmd.rings && d.cmd.resetting.isEmpty

theorem witness_StepTakesFrontCommand : State.reset.pending = [] := rfl

theorem witness_EveryCommandAnswers : ∃ t, exec .updateStrobe State.reset = .next t := ⟨_, rfl⟩

theorem witness_InvariantKept : keeps State.reset.dev = true ∧ ∃ t, step State.reset = .next t := ⟨by decide +kernel, _, rfl⟩

theorem witness_MemoryHoldsStores :
    ([keeps (ready .run), (poke 0x3000 [(0, 7)] (ready .run)).cmd.resetting.isEmpty,
      [(0x3000, (1 : Byte)), (0x3001, 2)].all (fun w => decide (w.1 < mirrorIn)),
      (List.range 4).all (fun k => decide (target (ready .run) (0x3000 + k) = .key (0x3000 + k)))].all id) = true := by decide +kernel

/-- Packet `p`, put into its ring on device `d`, is fetched at once, behind a link that failed if `failed`. -/
def fetches (sp : OpSpec) (p : Pkt) (d : Dev) (failed : Bool) : Bool :=
  let e := stageMirror sp p d
  takesEntry e (ringN p) && decide ((ringOf e (ringN p)).filled = 0) && fetchable (placeEntry p e) p &&
  linkFailed (ringOf (placeEntry p e) (ringN p)) == failed

theorem witness_packetOf (p : Pkt) : packetOf (.echo p) = some (specEcho, p) ∧ packetOf (.loopEnable p) = some (specLoopEnable, p) :=
  ⟨rfl, rfl⟩

theorem witness_PacketOutcomes :
    (let timed : Pkt := { cmd 0x803 [0, 0] 0 with flags := 2, launchTime := 5000 }
     let full : Dev := { ready .run with
       cmd.cmds := (List.range 1024).map (fun i => ⟨i, { timed with ring := 1 }, .waiting, 0, false⟩), cmd.nextId := 1024 }
     let linked : Dev := { ready .run with cmd.rings := [(0, { ring0 with link := some ⟨9, some true⟩ })] }
     let fenced : Pkt := { cmd 6 [] 0 with flags := 1 }
     [!takesEntry (stageMirror specEcho (cmd 6 [] 0) { ready .run with cmd.rings := [] }) 0,
      takesEntry (stageMirror specEcho fenced full) 0 && decide (fenced.ring = 0) &&
        !fetchable (placed specEcho fenced (st { ready .run with cmd.cmds := [⟨0, cmd 0x803 [0, 0] 0, .waiting, 0, false⟩] })) fenced,
      takesEntry { ready .run with cmd.rings := [(0, { ring0 with filled := 7 })] } 0,
      fetches specEcho (cmd 6 [] 0) linked true, fetches specEcho (cmd 7 [] 0) (ready .run) false,
      reaches specEcho (cmd 6 [0, 0, 0, 0, 1] 0) (st (ready .run)) &&
        (accept specEcho (cmd 6 [0, 0, 0, 0, 1] 0) (fetched specEcho (cmd 6 [0, 0, 0, 0, 1] 0) (st (ready .run)))).isSome,
      reaches specLoopEnable timed (st (ready .run)) && waitsLaunch specLoopEnable timed &&
        (accept specLoopEnable timed (fetched specLoopEnable timed (st (ready .run)))).isNone &&
        decide (waitingCount (fetched specLoopEnable timed (st (ready .run))) < 1024),
      reaches specLoopEnable timed (st full) && waitsLaunch specLoopEnable timed &&
        (accept specLoopEnable timed (fetched specLoopEnable timed (st full))).isNone &&
        decide (1024 ≤ waitingCount (fetched specLoopEnable timed (st full)))].all id) = true := by decide +kernel

/-- An entry in flight of ring 0 before the next. -/
def inFlight (ph : CmdPhase) : Cmd := ⟨0, cmd 0x803 [0, 0] 0, ph, 0, false⟩

theorem witness_FenceHolds :
    ((let fenced : Pkt := { cmd 6 [] 0 with flags := 1 }
     [CmdPhase.waiting, .active].map (fun ph =>
       let d : Dev := { ready .run with cmd.cmds := [inFlight ph], cmd.nextId := 1 }
       let e := stageMirror specEcho fenced d
       takesEntry e 0 && decide (inFlight ph ∈ d.cmd.cmds ∧ (inFlight ph).pkt.ring = fenced.ring) && !(inFlight ph).ringless &&
       bitAt fenced.flags.toNat 0 && !linkFailed (ringOf e 0)) ++
     [(let d : Dev := { ready .run with cmd.rings := [(0, { ring0 with filled := 7 })] }
       let e := stageMirror specEcho (cmd 6 [] 0) d
       takesEntry e 0 && decide ((ringOf e 0).filled ≠ 0))]).all id) = true := by decide +kernel

theorem witness_CompletionEntry :
    (let d : Dev := { ready .run with cmd.cmds := [inFlight .active], cmd.nextId := 1 }
     let r := ringOf d 0
     let a := r.cqBase + 32 * r.cqTail
     [keeps d, (findCmd d 0).isSome, d.cmd.cmds.all (fun e => decide (e.pkt.opcode.toNat ≠ 0x0005)), !r.lost, decide (r.st ≠ .disabled),
      !r.failing, r.kept.isEmpty, !cqFullNow r, (List.range 32).all (fun k => decide (target d (a + k) = .key (a + k)))].all id) = true := by decide +kernel

theorem witness_FullRingKeepsCompletions :
    (let d : Dev := { ready .run with cmd.rings := [(0, { ring0 with cqTail := 15 })] }
     [decide ((ringOf d 0).lost = false ∧ (ringOf d 0).st ≠ .disabled), cqFullNow (ringOf d 0)].all id) = true := by decide +kernel

theorem witness_ModeChangeRaises : (ready .run).sys.mode ≠ .hold := by decide +kernel

theorem witness_FieldAccess :
    (([Reg.cleCtl, Reg.mtrStat].map (fun o =>
      reachable (ready .run) && keeps (ready .run) && decide (o % 4 = 0 ∧ o % 0x10000 < 0x8000) && !isMsixTable o && !isMsixPba o &&
      offsetImplemented o && !([0, 1, 2, 8, 12, 14, 15, 17, 20, 21, 26].contains (o / 0x10000))) ++
     [bitAt (accMask (fieldsAt Reg.cleCtl) .rw) 24, bitAt (accMask (fieldsAt Reg.cleCtl) .rws) 1, !bitAt (accMask (fieldsAt Reg.cleCtl) .rw) 1,
      bitAt (accMask (fieldsAt Reg.mtrStat) .ro) 31, bitAt (accMask (fieldsAt Reg.mtrStat) .rc) 30]).all id) = true := by decide +kernel

/-- The logic engine before an instruction, with a stack of `n` entries. -/
def logicAt (n a : Nat) : Exec := ⟨true, List.replicate n true, 0, a, false, 0, CleSt.reset⟩

theorem witness_LogicStack :
    ([decide (bits (0x0C <<< 26) 31 26 = 0x0C ∧ (logicAt 16 0).stack.length = 16 ∧ (logicAt 15 0).stack.length < 16),
      decide (bits (0x0D <<< 26) 31 26 = 0x0D ∧ (logicAt 0 0).stack = []), decide (bits (0x0E <<< 26) 31 26 = 0x0E),
      decide ((logicAt 0 0).faults = 0)].all id) = true := by decide +kernel

theorem witness_EveryScanEnds :
    (let prog := [0x20 <<< 26 ||| 2, 0x21 <<< 26 ||| 2, 0x3F <<< 26]
     [(progFault prog).isNone, !prog.isEmpty, decide (bits (prog.getD 0 0) 31 26 = 0x20), decide (bits (prog.getD 1 0) 31 26 = 0x21),
      decide ((logicAt 0 2).addr < prog.length)].all id) = true := by decide +kernel

theorem witness_StoresNothing : keeps (ready .run) = true ∧ storesNothing .updateStrobe = true ∧ ∃ t, exec .updateStrobe (st (ready .run)) = .next t :=
  ⟨by decide +kernel, rfl, _, rfl⟩

theorem witness_OutputCommandsFrame :
    (([(specGetCounters, [0x12, 0], 64), (specEvrRead, [0], 64), (specPavStressRead, [0, 1], 4), (specGrnQuery, [], 64),
      (specSecRandom, [4], 4)].map (fun x =>
        let d := ready .run
        let r := ringOf d 0
        keeps d && d.cmd.cmds.isEmpty && go x.1 x.2.1 x.2.2 d &&
        (List.range x.2.2).all (fun k => decide (target d (0x3000 + k) = .key (0x3000 + k))) &&
        (List.range 64).all (fun k => decide (target d (entryAddr r r.filled + k) = .key (0x1000 + k))) &&
        (List.range 32).all (fun k => decide (target d (r.cqBase + 32 * r.cqTail + k) = .key (0x2000 + k))))).all id) = true := by decide +kernel

theorem witness_WindowWritesFrame :
    (let d := ready .run
     let u := setF Reg.trlStat 4 0 1 (ready .run)
     [keeps d, reachable d, winReaches d (winBase d + 0x3000) 4 true,
      (List.range 4).all (fun k => decide (target d (winBase d + 0x3000 + k) = .key (winBase d + 0x3000 + k))),
      keeps u, decide (ownAddr u ≠ 0 ∧ u.sys.mode ≠ .backup), !addrConflict u, mapped u (0x8000000000 + ownAddr u * 0x400000000 + 0x3000) 4,
      (List.range 4).all (fun k => decide (target u (0x8000000000 + ownAddr u * 0x400000000 + 0x3000 + k) = .key (0x3000 + k)))].all id) = true := by decide +kernel

theorem witness_ChapterFrames :
    keeps (ready .run) = true ∧ netOnly (.ethernetFrameDrop 0 true) = true ∧ clockOnly .oscStopDetect = true ∧
    (∃ t, exec (.ethernetFrameDrop 0 true) (st (ready .run)) = .next t) ∧ ∃ t, exec .oscStopDetect (st (ready .run)) = .next t :=
  ⟨by decide +kernel, rfl, rfl, ⟨_, rfl⟩, _, rfl⟩

/-- Outputs of every kind in every mode: the hypotheses on GPIO 3 and pulse output 7. -/
theorem witness_PinsByMode :
    ([(let d := reg (Reg.ioxGpioCfg 3) 0x40 (ready .run)
       decide (d.sys.mode = .run ∧ gpioOwner d 3 ≠ 0) && !bitAt (regA d (Reg.ioxGpioCfg 3)) 5),
      decide (gpioOwner (ready .run) 3 = 0),
      (let d := reg (Reg.ioxPoCfg 7) 0x80000000 (ready .config)
       poLaunch d 7 && !bitAt (regA d (Reg.ioxPoCfg 7)) 29 && decide (d.sys.mode = .config))].all id) = true := by decide +kernel

/-- One request of each fabric path of cluster `k`, class 3, and those of the worked example of spec/08_placement.md. -/
def example9 : List ArbReq :=
  (List.range 9).map (fun k => (⟨fabricPath k, 3⟩ : ArbReq)) ++ [(⟨fabricPath 18, 3⟩ : ArbReq)]

theorem witness_ArbitrationRound :
    ((let served := arbServed (fun _ => false) [3, 4, 5] example9
     [[3, 4, 5].all (fun c => [3, 4, 5].contains c), !served.isEmpty, served.all (fun x => decide (x.path.length ≤ 8) && x.path.all (fun c => decide (c < 64))),
      served.all (fun x => served.all (fun q => !x.path.isPrefixOf q.path || decide (x.path = q.path)))]).all id) = true := by decide +kernel

/-- Ten rounds of that example grant each of the ten clusters once (R211). -/
theorem test_arbitration :
    (List.range 9 ++ [18]).all (fun k =>
      (arbRounds (fun _ => false) [3, 4, 5] example9 10 []).countP (fun p => p = fabricPath k) = 1) = true := by decide +kernel

/-! ### Guard and pace -/

/-- What a pass of the guard leaves before it compares. -/
def passed (v : Nat) (d : Dev) : Dev :=
  { addF Reg.cfgPassCnt 31 0 1 (setP Reg.cfgCrcLive v d) with rg.passOld := [], rg.passRestart := true }

theorem passed_fld {v q hi lo : Nat} {d : Dev} (h : Sorted d) (h1 : q ≠ Reg.cfgPassCnt) (h2 : q ≠ Reg.cfgCrcLive) :
    fld (passed v d) q hi lo = fld d q hi lo := by
  have h3 : fld (passed v d) q hi lo = fld (addF Reg.cfgPassCnt 31 0 1 (setP Reg.cfgCrcLive v d)) q hi lo := rfl
  rw [h3, fld_addF_ne (setP_sorted h) h1, fld_setP_ne h h2]

theorem passed_regP {v q : Nat} {d : Dev} (h : Sorted d) (h1 : q ≠ Reg.cfgPassCnt) (h2 : q ≠ Reg.cfgCrcLive) :
    regP (passed v d) q = regP d q := by
  have h3 : regP (passed v d) q = regP (addF Reg.cfgPassCnt 31 0 1 (setP Reg.cfgCrcLive v d)) q := rfl
  rw [h3, regP_addF_ne (setP_sorted h) h1, regP_setP_ne h h2]

/-- A device whose guard is armed with reference `a`, or captures the next pass. -/
def guarded (a : Nat) : Dev := setP Reg.cfgCrcActive a (setF Reg.cfgStat 1 1 1 (setF Reg.cfgCtl 0 0 1 (ready .run)))
def capturing : Dev := { setF Reg.cfgStat 3 3 1 (ready .run) with rg.passRestart := true }

theorem guarded_pass (a : Nat) : passCrc [] (guarded a) = passCrc [] (guarded 0) := rfl

/-- GUARD_PASS meets each of its three cases: a capture, a mismatch of an armed guard, and neither. -/
theorem witness_GuardPass :
    (3 ≤ capturing.sys.mode.code ∧ fld (passed (passCrc [] capturing) capturing) Reg.cfgStat 3 3 = 1 ∧ capturing.rg.passRestart = true) ∧
    (∃ a, 3 ≤ (guarded a).sys.mode.code ∧ fld (passed (passCrc [] (guarded a)) (guarded a)) Reg.cfgStat 3 3 ≠ 1 ∧
      fld (passed (passCrc [] (guarded a)) (guarded a)) Reg.cfgCtl 0 0 = 1 ∧
      fld (passed (passCrc [] (guarded a)) (guarded a)) Reg.cfgStat 1 1 = 1 ∧
      regP (passed (passCrc [] (guarded a)) (guarded a)) Reg.cfgCrcActive ≠ passCrc [] (guarded a)) ∧
    (3 ≤ (ready .run).sys.mode.code ∧ fld (passed (passCrc [] (ready .run)) (ready .run)) Reg.cfgStat 3 3 ≠ 1 ∧
      fld (passed (passCrc [] (ready .run)) (ready .run)) Reg.cfgCtl 0 0 ≠ 1) := by
  have hc : Sorted capturing := by decide +kernel
  have hr : Sorted (ready .run) := by decide +kernel
  refine ⟨⟨by decide +kernel, ?_, rfl⟩, ?_, by decide +kernel, ?_, ?_⟩
  · rw [passed_fld hc (by decide) (by decide)]
    decide +kernel
  · have key : ∀ a, smAbove none (guarded a).rg.present = true ∧ fld (guarded a) Reg.cfgStat 3 3 = fld (guarded 0) Reg.cfgStat 3 3 ∧
        fld (guarded a) Reg.cfgCtl 0 0 = fld (guarded 0) Reg.cfgCtl 0 0 ∧
        fld (guarded a) Reg.cfgStat 1 1 = fld (guarded 0) Reg.cfgStat 1 1 ∧ regP (guarded a) Reg.cfgCrcActive = a % 2 ^ 32 := by
      intro a
      have hs : Sorted (setF Reg.cfgStat 1 1 1 (setF Reg.cfgCtl 0 0 1 (ready .run))) := by decide +kernel
      refine ⟨setP_sorted hs, ?_, ?_, ?_, regP_setP_same hs⟩
      · rw [guarded, fld_setP_ne hs (by decide), guarded, fld_setP_ne hs (by decide)]
      · rw [guarded, fld_setP_ne hs (by decide), guarded, fld_setP_ne hs (by decide)]
      · rw [guarded, fld_setP_ne hs (by decide), guarded, fld_setP_ne hs (by decide)]
    have make : ∀ a, a < 2 ^ 32 → a ≠ passCrc [] (guarded 0) → 3 ≤ (guarded a).sys.mode.code ∧
        fld (passed (passCrc [] (guarded a)) (guarded a)) Reg.cfgStat 3 3 ≠ 1 ∧
        fld (passed (passCrc [] (guarded a)) (guarded a)) Reg.cfgCtl 0 0 = 1 ∧
        fld (passed (passCrc [] (guarded a)) (guarded a)) Reg.cfgStat 1 1 = 1 ∧
        regP (passed (passCrc [] (guarded a)) (guarded a)) Reg.cfgCrcActive ≠ passCrc [] (guarded a) := by
      intro a ha hne
      obtain ⟨k0, k1, k2, k3, k4⟩ := key a
      have k0 : Sorted (guarded a) := k0
      rw [passed_fld k0 (by decide) (by decide), passed_fld k0 (by decide) (by decide), passed_fld k0 (by decide) (by decide),
        passed_regP k0 (by decide) (by decide), k1, k2, k3, k4, Nat.mod_eq_of_lt ha, guarded_pass]
      exact ⟨show 3 ≤ (ready .run).sys.mode.code by decide, by decide +kernel, by decide +kernel, by decide +kernel, hne⟩
    by_cases h0 : passCrc [] (guarded 0) = 0
    · exact ⟨1, make 1 (by decide) (by omega)⟩
    · exact ⟨0, make 0 (by decide) (fun h => h0 h.symm)⟩
  · rw [passed_fld hr (by decide) (by decide)]
    decide +kernel
  · rw [passed_fld hr (by decide) (by decide)]
    decide +kernel

theorem witness_GuardAndPaceRowsComplete :
    ([({ ready .run with thr.avs := some ⟨5, 1, true⟩ } : Dev).thr.avs.elim false (fun w => decide (w.tries < 2)),
      ({ ready .run with thr.avs := some ⟨5, 2, true⟩ } : Dev).thr.avs.elim false (fun w => decide (2 ≤ w.tries)),
      decide ((ready .run).thr.avs = none ∧ (ready .run).thr.readTries < 2),
      decide (({ ready .run with thr.readTries := 2 } : Dev).thr.avs = none ∧ 2 ≤ ({ ready .run with thr.readTries := 2 } : Dev).thr.readTries),
      ({ ready .run with thr.repeatAt := some 9 } : Dev).thr.repeatAt.isSome,
      (let d : Dev := { reg Reg.thrCtl 1 (ready .run) with thr.lowerSince := some 9 }
       decide (d.thr.lowerSince = some 9) && govOn d && decide (d.thr.avs = none ∧ d.thr.avsErr = false))].all id) = true := by decide +kernel


end Sys2Proof.Tests
end

namespace Sys2Proof.Machine

/-!
PROOFS about the command interface (spec/02_command_interface.md): the packet's bytes (R50), doorbells that are refused (R48), an
entry that FENCE holds back (R57), the completion entry (R63).
-/

/-! ### Bytes of a packet (R4, R50) -/

@[simp] theorem length_leBytes (n v : Nat) : (leBytes n v).length = n := by
  induction n generalizing v with
  | zero => rfl
  | succ n ih => rw [leBytes, List.length_cons, ih]

/-- A number in `n` little-endian bytes reads back as its low 8n bits. -/
theorem leNat_leBytes (n v : Nat) : leNat (leBytes n v) = v % 2 ^ (8 * n) := by
  induction n generalizing v with
  | zero => simp [leBytes, leNat, Nat.mod_one]
  | succ n ih =>
    have hpow : 2 ^ (8 * (n + 1)) = 2 ^ 8 * 2 ^ (8 * n) := by rw [← Nat.pow_add]; congr 1; omega
    rw [leBytes, leNat, ih, BitVec.toNat_ofNat, Nat.shiftLeft_eq, Nat.shiftRight_eq_div_pow, hpow, Nat.mod_mul,
      Nat.mul_comm (2 ^ 8)]

/-- A field behind a part of the record is read at its offset in the rest. -/
theorem fieldLE_append_right {xs : List Byte} {o : Nat} (h : xs.length ≤ o) (ys : List Byte) (n : Nat) :
    fieldLE (xs ++ ys) o n = fieldLE ys (o - xs.length) n := by
  rw [fieldLE, fieldLE, sliceB, sliceB, List.drop_append, List.drop_eq_nil_of_le h, List.nil_append]

/-- A word at the front of a record reads back as laid there. -/
theorem fieldLE_leBytes_append {w n : Nat} (hw : w = 8 * n) (x : BitVec w) (ys : List Byte) :
    fieldLE (leBytes n x.toNat ++ ys) 0 n = x.toNat := by
  rw [fieldLE, sliceB, List.drop_zero, List.take_left' (length_leBytes n _), length_leBytes, Nat.sub_self,
    List.replicate_zero, List.append_nil, leNat_leBytes, ← hw, BitVec.toNat_mod_cancel]

/-- A word that is the whole record. -/
theorem fieldLE_leBytes {w n : Nat} (hw : w = 8 * n) (x : BitVec w) : fieldLE (leBytes n x.toNat) 0 n = x.toNat := by
  simpa only [List.append_nil] using fieldLE_leBytes_append hw x []

theorem length_pktBytes (p : Pkt) : (pktBytes p).length = 64 := by
  simp only [pktBytes, List.length_append, length_leBytes]

/-- Every field of a packet stands little-endian at its offset of the table of R50. -/
theorem fieldLE_pktBytes (p : Pkt) :
    fieldLE (pktBytes p) 0x00 2 = p.opcode.toNat ∧ fieldLE (pktBytes p) 0x02 1 = p.flags.toNat ∧
    fieldLE (pktBytes p) 0x03 1 = p.classOvr.toNat ∧ fieldLE (pktBytes p) 0x04 4 = p.tag.toNat ∧
    fieldLE (pktBytes p) 0x08 8 = p.launchTime.toNat ∧ fieldLE (pktBytes p) 0x10 8 = p.bufAddr.toNat ∧
    fieldLE (pktBytes p) 0x18 4 = p.bufLen.toNat ∧ fieldLE (pktBytes p) 0x1C 4 = p.word1C.toNat ∧
    fieldLE (pktBytes p) 0x20 4 = p.p0.toNat ∧ fieldLE (pktBytes p) 0x24 4 = p.p1.toNat ∧
    fieldLE (pktBytes p) 0x28 4 = p.p2.toNat ∧ fieldLE (pktBytes p) 0x2C 4 = p.p3.toNat ∧
    fieldLE (pktBytes p) 0x30 4 = p.p4.toNat ∧ fieldLE (pktBytes p) 0x34 4 = p.p5.toNat ∧
    fieldLE (pktBytes p) 0x38 4 = p.p6.toNat ∧ fieldLE (pktBytes p) 0x3C 4 = p.p7.toNat := by
  refine ⟨?_, ?_, ?_, ?_, ?_, ?_, ?_, ?_, ?_, ?_, ?_, ?_, ?_, ?_, ?_, ?_⟩ <;>
    simp [pktBytes, fieldLE_append_right, fieldLE_leBytes_append, fieldLE_leBytes]

/-- The 64 bytes of a packet spell the packet. -/
theorem pktOfBytes_pktBytes (p : Pkt) : pktOfBytes p.ring (pktBytes p) = p := by
  obtain ⟨hop, hfl, hcl, htag, hlt, hba, hbl, h1c, h0, h1, h2, h3, h4, h5, h6, h7⟩ := fieldLE_pktBytes p
  simp only [pktOfBytes, hop, hfl, hcl, htag, hlt, hba, hbl, h1c, h0, h1, h2, h3, h4, h5, h6, h7, u8, u32, u64,
    BitVec.ofNat_toNat, BitVec.setWidth_eq]

/-- Settles O44: each field reads back at its offset (`fieldLE_pktBytes`), so the bytes spell the packet. -/
theorem packetLayout : Obligations.PacketLayout := by
  intro p
  exact ⟨length_pktBytes p, pktOfBytes_pktBytes p, fieldLE_pktBytes p⟩

/-! ### Doorbells (R48) -/

/-- The doorbell value is the low 12 bits of the word (R44). -/
theorem bits_doorbell (w : Nat) : bits w 11 0 = w % 4096 := rfl

/-- A doorbell write to a ring that is not ACTIVE is dropped, whichever pointer it means. -/
theorem doorbell_dropped {n : Nat} {d : Dev} (h : (ringOf d n).st ≠ .active) (w : Nat) :
    sqTailWrite n w d = refuseDoorbell n (fun r => { r with dbDropped := true }) (writeRk (Reg.ringSqTail n) w d) ∧
    cqHeadWrite n w d = refuseDoorbell n (fun r => { r with dbDropped := true }) (writeRk (Reg.ringCqHead n) w d) := by
  simp only [sqTailWrite, cqHeadWrite, if_pos h, and_self]

/-- A tail that is not below the depth, or that would pass SQ_HEAD, is refused. -/
theorem sqTailWrite_bad {n w : Nat} {d : Dev} (h : (ringOf d n).st = .active)
    (hb : (ringOf d n).depth ≤ w % 4096 ∨
      (ringOf d n).depth ≤ entriesReady (ringOf d n) + (w % 4096 + (ringOf d n).depth - (ringOf d n).sqTail) % (ringOf d n).depth) :
    sqTailWrite n w d = refuseDoorbell n (fun r => { r with badDb := true }) (writeRk (Reg.ringSqTail n) w d) := by
  rw [← bits_doorbell] at hb
  simp only [sqTailWrite]
  rw [if_neg (not_not.mpr h)]
  exact if_pos hb

/-- A head that is not below the depth, or that would pass CQ_TAIL, is refused. -/
theorem cqHeadWrite_bad {n w : Nat} {d : Dev} (h : (ringOf d n).st = .active)
    (hb : (ringOf d n).depth ≤ w % 4096 ∨
      ((ringOf d n).cqTail + (ringOf d n).depth - (ringOf d n).cqHead) % (ringOf d n).depth <
        (w % 4096 + (ringOf d n).depth - (ringOf d n).cqHead) % (ringOf d n).depth) :
    cqHeadWrite n w d = refuseDoorbell n (fun r => { r with badDb := true }) (writeRk (Reg.ringCqHead n) w d) := by
  rw [← bits_doorbell] at hb
  simp only [cqHeadWrite]
  rw [if_neg (not_not.mpr h), if_pos hb]

/-- A doorbell row on a device that can be reached writes its register. -/
theorem exec_doorbell {s : State} (h : reachable s.dev = true) (n : Fin 64) (w : Word) :
    exec (.sqTailDoorbell n w) s = .next (settle s (sqTailWrite n.val w.toNat s.dev)) ∧
    exec (.cqHeadWrite n w) s = .next (settle s (cqHeadWrite n.val w.toNat s.dev)) :=
  ⟨upRow_up h, upRow_up h⟩

/-- Settles O47: each doorbell row writes its register, and in each of the three cases that write is refused. -/
theorem doorbellDiscarded : Obligations.DoorbellDiscarded := by
  intro n w s hup r v d e counted
  obtain ⟨hsq, hcq⟩ := exec_doorbell hup n w
  refine ⟨fun hst => ?_, fun hst hbad => ?_, fun hst hbad => ?_⟩
  · obtain ⟨hs, hc⟩ := doorbell_dropped hst w.toNat
    exact ⟨hsq.trans (by rw [hs]; rfl), hcq.trans (by rw [hc]; rfl)⟩
  · rw [hsq, sqTailWrite_bad hst hbad]; rfl
  · rw [hcq, cqHeadWrite_bad hst hbad]; rfl

end Sys2Proof.Machine

namespace Sys2Proof.Machine

/-! ### A packet row whose entry may not start (R45, R57) -/

/-- A value other than the default reads back where it is stored, whatever the form of the table. -/
theorem smGet_smSet_listed {α : Type} [DecidableEq α] {d v : α} (hv : v ≠ d) (m : SMap α) (k : Nat) :
    smGet d (smSet d m k v) k = v := by
  induction m with
  | nil => simp [smSet, smGet, hv]
  | cons kv m ih =>
    rcases Nat.lt_trichotomy k kv.1 with h | h | h
    · simp [smSet, smGet, hv, h, Nat.ne_of_lt h]
    · simp [smSet, smGet, hv, h]
    · simp [smSet, smGet, Nat.ne_of_gt h, Nat.not_lt_of_gt h, ih]

@[simp] theorem stageMirror_cmd (sp : OpSpec) (p : Pkt) (d : Dev) : (stageMirror sp p d).cmd = d.cmd := by
  unfold stageMirror
  dsimp only
  split <;> rfl

/-- Reading the register mirror changes no ring. -/
@[simp] theorem ringOf_stageMirror (sp : OpSpec) (p : Pkt) (d : Dev) (n : Nat) :
    ringOf (stageMirror sp p d) n = ringOf d n := by
  rw [ringOf, ringOf, stageMirror_cmd]

@[simp] theorem placeEntry_cmds (p : Pkt) (d : Dev) : (placeEntry p d).cmd.cmds = d.cmd.cmds := by
  rw [placeEntry, wrBytes_cmd]
  rfl

/-- The entry of a packet row changes its ring in nothing but the count of entries placed. -/
theorem ringOf_placeEntry (p : Pkt) (d : Dev) :
    ringOf (placeEntry p d) (ringN p) = { ringOf d (ringN p) with filled := (ringOf d (ringN p)).filled + 1 } := by
  rw [ringOf, placeEntry, wrBytes_cmd]
  refine smGet_smSet_listed (fun h => ?_) d.cmd.rings (ringN p)
  exact Nat.succ_ne_zero _ (congrArg Ring.filled h)

/-- An entry that is not the next one, or that may not be fetched, stays in its ring. -/
theorem runPacket_holds {sp : OpSpec} {eff : Nat → Pkt → Dev → Dev} {p : Pkt} {d : Dev} (ht : takesEntry d (ringN p) = true)
    (hw : (ringOf d (ringN p)).filled ≠ 0 ∨ fetchable (placeEntry p d) p = false) :
    runPacket sp eff p d = placeEntry p d := by
  have hc : (ringOf d (ringN p)).filled ≠ 0 ∨ (!fetchable (placeEntry p d) p) = true := by simpa using hw
  simp only [runPacket, ht, Bool.not_true, Bool.false_eq_true, if_false]
  exact if_pos hc

/-- R57: a fenced packet is not fetched while a command of its ring is in flight, unless the command linked to it failed. -/
theorem fetchable_fenced {d : Dev} {p : Pkt} {e : Cmd} (he : e ∈ d.cmd.cmds) (hring : e.pkt.ring = p.ring)
    (hless : e.ringless = false) (hfence : bitAt p.flags.toNat 0 = true) (hlink : linkFailed (ringOf d (ringN p)) = false) :
    fetchable d p = false := by
  have hwait : mayStart d p = false := by
    rw [mayStart, Bool.and_eq_false_iff]
    right
    rw [List.all_eq_false]
    exact ⟨e, he, by simp [hring, hless, hfence]⟩
  rw [fetchable, hlink, hwait, Bool.or_false, Bool.and_false]

/-- Every command that is an entry of a ring runs as a packet row. -/
theorem exec_packetOf {i : Instr} {sp : OpSpec} {p : Pkt} (h : packetOf i = some (sp, p)) (s : State) :
    ∃ eff, exec i s = packetRow sp eff p s := by
  cases i <;> cases h <;> exact ⟨_, rfl⟩

/-- Settles O43: the row places its entry and goes no further, for a fence or because an entry stands before it. -/
theorem fenceHolds : Obligations.FenceHolds := by
  intro i sp p s hi d ht hheld
  obtain ⟨eff, hexec⟩ := exec_packetOf hi s
  have hring : ringOf (placed sp p s) (ringN p) = _ := ringOf_placeEntry p d
  have hwait : (ringOf d (ringN p)).filled ≠ 0 ∨ fetchable (placeEntry p d) p = false := by
    rcases hheld with ⟨⟨e, he, hr, hless, hfence⟩, hlink⟩ | hfilled
    · have hmem : e ∈ (placeEntry p d).cmd.cmds := by rwa [placeEntry_cmds, stageMirror_cmd]
      have hlink' : linkFailed (ringOf (placeEntry p d) (ringN p)) = false := by rwa [ringOf_placeEntry]
      exact .inr (fetchable_fenced hmem hr hless hfence hlink')
    · exact .inl hfilled
  refine ⟨?_, ?_, ?_, ?_⟩
  · rw [hexec, packetRow, runPacket_holds ht hwait, placed]
  · rw [hring, ringOf_stageMirror]
  · rw [placed, placeEntry_nextId, stageMirror_nextId]
  · rw [placed, placeEntry_cmds, stageMirror_cmd]

end Sys2Proof.Machine

namespace Sys2Proof.Machine

/-! ### Bytes stored by device address read back (R33) -/

/-- Two devices on which every device address leads to the same place: they agree in what the address map of R33–R36 reads. -/
structure SameMap (e d : Dev) : Prop where
  sys : e.sys = d.sys
  thr : e.thr = d.thr
  applied : e.rg.applied = d.rg.applied
  trlStat : regP e Reg.trlStat = regP d Reg.trlStat
  anchor : e.ra.anchor = d.ra.anchor
  plen : e.ra.plen = d.ra.plen
  periods : e.ra.periods = d.ra.periods
  resBuf : e.ra.resBuf = d.ra.resBuf

theorem SameMap.tentTarget_eq {e d : Dev} (h : SameMap e d) : tentTarget e = tentTarget d := by
  have hcur : curPeriod e = curPeriod d := by rw [curPeriod, curPeriod, h.sys, h.anchor, h.plen]
  have hwin : windowPeriod e = windowPeriod d := by
    funext k
    rw [windowPeriod, windowPeriod, h.periods, hcur]
  funext a
  rw [tentTarget, tentTarget, h.resBuf, hwin]

theorem SameMap.ownTarget_eq {e d : Dev} (h : SameMap e d) : ownTarget e = ownTarget d := by
  funext a
  rw [ownTarget, ownTarget, clusterOf, clusterOf, h.tentTarget_eq, h.thr]

/-- Such devices have one address map. -/
theorem SameMap.target_eq {e d : Dev} (h : SameMap e d) : target e = target d := by
  have hhost : hostBase e = hostBase d := by rw [hostBase, hostBase, regA, regA, regA, regA, h.applied]
  have htrl : fld e Reg.trlStat = fld d Reg.trlStat := by
    funext hi lo
    rw [fld, fld, h.trlStat]
  funext a
  rw [target, target, hhost, ownAddr, ownAddr, htrl, h.ownTarget_eq]

theorem target_wrBytes (a : Nat) (bs : List Byte) (d : Dev) : target (wrBytes a bs d) = target d :=
  SameMap.target_eq
    { sys := wrBytes_sys a bs d, thr := wrBytes_thr a bs d, applied := by rw [wrBytes_rg], trlStat := by rw [regP, wrBytes_rg, regP],
      anchor := by rw [wrBytes_ra], plen := by rw [wrBytes_ra], periods := by rw [wrBytes_ra], resBuf := by rw [wrBytes_ra] }

theorem target_wrB (d : Dev) (k : Nat) (b : Byte) : target (wrB d k b) = target d :=
  SameMap.target_eq ⟨rfl, rfl, rfl, rfl, rfl, rfl, rfl, rfl⟩

/-- What a device address reads depends on the address map, the write log and memory alone. -/
theorem rdBytes_congr {e d : Dev} (ht : target e = target d) (hw : e.wr = d.wr) (hm : e.mem = d.mem) (a n : Nat) :
    rdBytes e a n = rdBytes d a n := by
  induction n generalizing a with
  | zero => rfl
  | succ n ih => simp only [rdBytes, ih, ht, rdB, hw, hm]

/-- Bytes stored elsewhere leave a memory key as it was. -/
theorem rdB_wrBytes_of_ne {d : Dev} {a k : Nat} {bs : List Byte}
    (h : ∀ j, j < bs.length → ∃ key, target d (a + j) = .key key ∧ key ≠ k) : rdB (wrBytes a bs d) k = rdB d k := by
  induction bs generalizing a d with
  | nil => rfl
  | cons b bs ih =>
    obtain ⟨key, hkey, hne⟩ := h 0 (Nat.succ_pos _)
    rw [Nat.add_zero] at hkey
    rw [wrBytes, hkey, ih]
    · simp only [rdB, wrB, logFind, if_neg hne]
    · intro j hj
      rw [target_wrB, Nat.add_assoc, Nat.add_comm 1 j]
      exact h (j + 1) (Nat.succ_lt_succ hj)

/-- Bytes stored at device addresses that lead to as many memory keys read back as stored. -/
theorem rdBytes_wrBytes_same {d : Dev} {a : Nat} {bs : List Byte} (hkey : ∀ k, k < bs.length → ∃ key, target d (a + k) = .key key)
    (hne : ∀ j k, j < k → k < bs.length → target d (a + j) ≠ target d (a + k)) : rdBytes (wrBytes a bs d) a bs.length = bs := by
  induction bs generalizing a d with
  | nil => rfl
  | cons b bs ih =>
    have hnext : ∀ j, a + 1 + j = a + (j + 1) := by omega
    obtain ⟨k, hk⟩ := hkey 0 (Nat.succ_pos _)
    rw [Nat.add_zero] at hk
    have hfirst : rdB (wrBytes (a + 1) bs (wrB d k b)) k = b := by
      rw [rdB_wrBytes_of_ne]
      · simp only [rdB, wrB, logFind, if_true]
      · intro j hj
        obtain ⟨q, hq⟩ := hkey (j + 1) (Nat.succ_lt_succ hj)
        rw [target_wrB, hnext]
        refine ⟨q, hq, fun hqk => hne 0 (j + 1) (Nat.succ_pos j) (Nat.succ_lt_succ hj) ?_⟩
        rw [Nat.add_zero, hk, hq, hqk]
    have hrest : rdBytes (wrBytes (a + 1) bs (wrB d k b)) (a + 1) bs.length = bs := by
      apply ih
      · intro j hj
        rw [target_wrB, hnext]
        exact hkey (j + 1) (Nat.succ_lt_succ hj)
      · intro i j hij hj
        rw [target_wrB, hnext, hnext]
        exact hne (i + 1) (j + 1) (Nat.succ_lt_succ hij) (Nat.succ_lt_succ hj)
    simp only [wrBytes, hk, List.length_cons, rdBytes, target_wrBytes, target_wrB, hfirst, hrest]

/-! ### Tables under an image (R58) -/

/-- A key that a table does not list reads as the default. -/
theorem smGet_of_not_listed {α : Type} {d : α} {m : SMap α} {k : Nat} (h : k ∉ m.map Prod.fst) : smGet d m k = d := by
  induction m with
  | nil => rfl
  | cons kv m ih =>
    obtain ⟨hk, hm⟩ := not_or.mp (List.mem_cons.not.mp h)
    rw [smGet, if_neg hk, ih hm, ite_self]

theorem lt_of_smAbove {α : Type} {m : SMap α} {b k : Nat} (h : smAbove (some b) m = true) (hk : k ∈ m.map Prod.fst) : b < k := by
  induction m generalizing b with
  | nil => cases hk
  | cons kv m ih =>
    simp only [smAbove, Bool.and_eq_true, decide_eq_true_eq] at h
    rcases List.mem_cons.mp hk with rfl | hm
    · exact h.1
    · exact Nat.lt_trans h.1 (ih h.2 hm)

section Image
variable {α : Type} [DecidableEq α] {d : α} {f : Nat → α → α}

/-- The fold of `smMap`: listed keys take their image, the others stand. -/
theorem smGet_image_fold {m : SMap α} (acc : SMap α) (hm : smAbove none m = true) (hacc : smAbove none acc = true) (k : Nat) :
    smGet d (m.foldl (fun acc kv => smSet d acc kv.1 (f kv.1 kv.2)) acc) k =
      if k ∈ m.map Prod.fst then f k (smGet d m k) else smGet d acc k := by
  induction m generalizing acc with
  | nil => rfl
  | cons kv m ih =>
    rw [List.foldl_cons, ih _ (smAbove_none hm) (smSet_sorted hacc)]
    by_cases hk : k ∈ m.map Prod.fst
    · have hlt : kv.1 < k := lt_of_smAbove hm hk
      simp [hk, smGet, Nat.ne_of_gt hlt, Nat.not_lt_of_gt hlt]
    · by_cases hq : k = kv.1
      · subst hq
        simp [hk, smGet, smGet_smSet_same hacc]
      · simp [hk, hq, smGet_smSet_ne hacc hq]

/-- Where the image keeps the default, every key of `smMap` reads as the image of its value. -/
theorem smGet_smMap {m : SMap α} (hm : smAbove none m = true) (hd : ∀ k, f k d = d) (k : Nat) :
    smGet d (smMap d f m) k = f k (smGet d m k) := by
  rw [smMap, smGet_image_fold [] hm rfl]
  split
  next => rfl
  next hk => rw [smGet_of_not_listed hk, hd]; rfl

theorem smMap_sorted (m : SMap α) : smAbove none (smMap d f m) = true := by
  suffices h : ∀ acc : SMap α, smAbove none acc = true →
      smAbove none (m.foldl (fun acc kv => smSet d acc kv.1 (f kv.1 kv.2)) acc) = true from h [] rfl
  induction m with
  | nil => exact fun _ h => h
  | cons kv m ih => exact fun acc h => ih _ (smSet_sorted h)

end Image

/-! ### A command leaves the list of commands in flight (R58, R64) -/

/-- A ring learns the outcome of the command its last entry was linked to, if it is this one. -/
def toldOutcome (id : Nat) (failed : Bool) (r : Ring) : Ring :=
  match r.link with
  | some l => if l.id = id then { r with link := some { l with failed := some failed } } else r
  | none => r

theorem toldOutcome_frame (id : Nat) (failed : Bool) (r : Ring) : ∃ l, toldOutcome id failed r = { r with link := l } := by
  unfold toldOutcome
  repeat' split
  all_goals exact ⟨_, rfl⟩

/-- The table of rings that `retire` leaves. -/
theorem retire_rings (id : Nat) (failed : Bool) (d : Dev) :
    (retire id failed d).cmd.rings = smMap Ring.reset (fun _ => toldOutcome id failed) d.cmd.rings := rfl

/-- The device at which a command's last completion falls due: the command is no longer in flight and is counted. -/
def departed (c : Cmd) (x : Res) (d : Dev) : Dev :=
  countCancelled c.pkt x.status (retire c.id (decide (0x10 ≤ x.status)) d)

/-- The last completion of a command (R63, R64). -/
def lastCpl (c : Cmd) (x : Res) (d : Dev) : Cpl :=
  { tag := c.pkt.tag, status := x.status, detail := x.detail, more := false, doneTime := now d,
    r0 := x.r0, r1 := x.r1, r2 := x.r2, r3 := x.r3, notify := bitAt c.pkt.flags.toNat 3 }

theorem complete1_eq {c : Cmd} {x : Res} (hring : c.ringless = false) (hst : x.status ≠ stInternal) (d : Dev) :
    complete1 c x d = postCpl c.pkt.ring.val (lastCpl c x d) (departed c x d) := by
  simp only [complete1, hring, if_neg hst, Bool.false_eq_true, if_false]
  rfl

/-- Nothing but GET_COUNTERS values differs. -/
def Counted (e d : Dev) : Prop := ∃ ctrs, e = { d with cmd.counters := ctrs }

theorem Counted.refl (d : Dev) : Counted d d := ⟨_, rfl⟩

theorem Counted.bump {e d : Dev} (h : Counted e d) (g i n : Nat) : Counted (bump g i n e) d := by
  obtain ⟨ctrs, rfl⟩ := h
  exact ⟨_, rfl⟩

theorem countCancelled_counted (p : Pkt) (status : Nat) (d : Dev) : Counted (countCancelled p status d) d := by
  unfold countCancelled
  split
  · exact .refl d
  · split
    · exact (Counted.refl d).bump ..
    · split
      · exact (Counted.refl d).bump ..
      · exact .refl d

theorem departed_counted (c : Cmd) (x : Res) (d : Dev) :
    Counted (departed c x d) (retire c.id (decide (0x10 ≤ x.status)) d) :=
  countCancelled_counted _ _ _

theorem departed_sameMap (c : Cmd) (x : Res) (d : Dev) : SameMap (departed c x d) d := by
  obtain ⟨ctrs, h⟩ := departed_counted c x d
  rw [h]
  exact ⟨rfl, rfl, rfl, rfl, rfl, rfl, rfl, rfl⟩

theorem departed_sorted (c : Cmd) (x : Res) {d : Dev} (hp : Sorted d) : Sorted (departed c x d) := by
  obtain ⟨ctrs, h⟩ := departed_counted c x d
  rw [h]
  exact hp

theorem departed_cmds_subset (c : Cmd) (x : Res) (d : Dev) : (departed c x d).cmd.cmds ⊆ d.cmd.cmds := by
  obtain ⟨ctrs, h⟩ := departed_counted c x d
  rw [h]
  exact List.filter_subset_self _

theorem departed_rings (c : Cmd) (x : Res) (d : Dev) :
    (departed c x d).cmd.rings = smMap Ring.reset (fun _ => toldOutcome c.id (decide (0x10 ≤ x.status))) d.cmd.rings := by
  obtain ⟨ctrs, h⟩ := departed_counted c x d
  rw [h]
  exact retire_rings _ _ _

theorem departed_rings_sorted (c : Cmd) (x : Res) (d : Dev) : smAbove none (departed c x d).cmd.rings = true := by
  rw [departed_rings]
  exact smMap_sorted _

/-- A command that completes changes in a ring only what it left there by CHAIN (R58). -/
theorem ringOf_departed (c : Cmd) (x : Res) {d : Dev} (hs : smAbove none d.cmd.rings = true) (n : Nat) :
    ∃ l, ringOf (departed c x d) n = { ringOf d n with link := l } := by
  rw [ringOf, departed_rings, smGet_smMap hs (fun _ => rfl)]
  exact toldOutcome_frame _ _ _

/-- With no FENCE command in flight, none is released (R69). -/
theorem releaseFences_of_no_fence {d : Dev} (h : ∀ e ∈ d.cmd.cmds, e.pkt.opcode.toNat ≠ 0x0005) (k : Nat) :
    releaseFences k d = d := by
  cases k with
  | zero => rfl
  | succ k =>
    have hnone : d.cmd.cmds.find? (fun c => c.phase = .active && c.pkt.opcode.toNat = 0x0005 && fenceDone d c) = none :=
      List.find?_eq_none.mpr fun e he => by simp [h e he]
    rw [releaseFences, hnone]

/-! ### A completion is written (R46, R59, R63) -/

/-- A message changes nothing but the interrupts pending and sent, and counters. -/
theorem msixSend_frame (v : Nat) (d : Dev) :
    ∃ pba sent ctrs, msixSend v d = { d with cmd.pba := pba, cmd.sent := sent, cmd.counters := ctrs } := by
  unfold msixSend
  repeat' split
  all_goals exact ⟨_, _, _, rfl⟩

/-- The message of a ring leaves everything outside the command interface, the commands in flight, and CQ_TAIL. -/
theorem ringMessage_frame (n : Nat) (notify : Bool) (d : Dev) :
    ∃ c, ringMessage n notify d = { d with cmd := c } ∧ c.cmds = d.cmd.cmds ∧
      (smAbove none d.cmd.rings = true → (smGet Ring.reset c.rings n).cqTail = (ringOf d n).cqTail) := by
  have hset : ∀ r : Ring, r.cqTail = (ringOf d n).cqTail → smAbove none d.cmd.rings = true →
      (smGet Ring.reset (setRing n r d).cmd.rings n).cqTail = (ringOf d n).cqTail := by
    intro r hr hs
    rw [setRing, smGet_smSet_same hs, hr]
  have hsend : ∀ r : Ring, r.cqTail = (ringOf d n).cqTail → ∃ c, msixSend n (setRing n r d) = { d with cmd := c } ∧
      c.cmds = d.cmd.cmds ∧ (smAbove none d.cmd.rings = true → (smGet Ring.reset c.rings n).cqTail = (ringOf d n).cqTail) := by
    intro r hr
    obtain ⟨pba, sent, ctrs, h⟩ := msixSend_frame n (setRing n r d)
    exact ⟨_, h, rfl, hset r hr⟩
  unfold ringMessage
  dsimp only
  split
  · split
    · split
      · exact ⟨_, rfl, rfl, hset _ rfl⟩
      · exact hsend _ rfl
    · exact hsend _ rfl
  · exact ⟨_, rfl, rfl, fun _ => rfl⟩

theorem length_cplBytes (c : Cpl) (phase : Bool) : (cplBytes c phase).length = 32 := by
  simp only [cplBytes, List.length_append, length_leBytes]

/-- A completion that finds room, on a ring that is served and did not lose its host, is written. -/
theorem postCpl_writes {n : Nat} {d : Dev} (hlost : (ringOf d n).lost = false) (hst : (ringOf d n).st ≠ .disabled)
    (hfail : (ringOf d n).failing = false) (hkept : (ringOf d n).kept = []) (hroom : cqFullNow (ringOf d n) = false) (c : Cpl) :
    postCpl n c d = writeCpl n c d := by
  simp [postCpl, hlost, hst, hfail, hkept, hroom]

/-- What a completion counts: every one, those of a failure, and INTERNAL_ERROR. -/
def countCpl (n status : Nat) (d : Dev) : Dev :=
  let d1 := bump 1 (4 * n + 1) 1 (bump 0 1 1 d)
  let d2 := if 0x10 ≤ status then bump 1 (4 * n + 2) 1 (bump 0 2 1 d1) else d1
  if status = stInternal then bump 0 3 1 d2 else d2

/-- A completion of ring 0 sets its bit of SYS_EVENT (R74). -/
def cplEvent (n : Nat) (d : Dev) : Dev := if n = 0 then orP Reg.sysEvent 0x100 d else d

/-- A ring whose completion entry at CQ_TAIL has been written (R46). -/
def Ring.pushed (r : Ring) : Ring :=
  { r with cqTail := (r.cqTail + 1) % r.depth, phase := if (r.cqTail + 1) % r.depth = 0 then !r.phase else r.phase }

/-- The device address of the completion entry at CQ_TAIL (R42, R46). -/
def cplAddr (r : Ring) : Nat := r.cqBase + 32 * r.cqTail

theorem writeCpl_eq (n : Nat) (cpl : Cpl) (d : Dev) :
    writeCpl n cpl d = ringMessage n cpl.notify (cplEvent n (countCpl n cpl.status (setRing n (ringOf d n).pushed
      (wrBytes (cplAddr (ringOf d n)) (cplBytes cpl (ringOf d n).phase) d)))) := rfl

theorem countCpl_counted (n status : Nat) (d : Dev) : Counted (countCpl n status d) d := by
  have hall := ((Counted.refl d).bump 0 1 1).bump 1 (4 * n + 1) 1
  unfold countCpl
  dsimp only
  split
  · split
    · exact ((hall.bump ..).bump ..).bump ..
    · exact hall.bump ..
  · split
    · exact (hall.bump ..).bump ..
    · exact hall

theorem cplEvent_frame (n : Nat) {d : Dev} (hp : Sorted d) :
    ∃ p, cplEvent n d = { d with rg.present := p } ∧ regTab p Reg.trlStat = regTab d.rg.present Reg.trlStat := by
  unfold cplEvent
  split
  · exact ⟨_, rfl, regTab_set_ne hp (by decide)⟩
  · exact ⟨_, rfl, rfl⟩

/-- What follows the store of a completion: ring `n` becomes `r`; outside the command interface no more changes than SYS_EVENT, and
the commands in flight stand. -/
theorem ringMessage_cplEvent_frame (n status : Nat) (notify : Bool) (r : Ring) {d : Dev} (hs : smAbove none d.cmd.rings = true)
    (hp : Sorted d) :
    ∃ c p, ringMessage n notify (cplEvent n (countCpl n status (setRing n r d))) = { d with cmd := c, rg.present := p } ∧
      c.cmds = d.cmd.cmds ∧ (smGet Ring.reset c.rings n).cqTail = r.cqTail ∧
      regTab p Reg.trlStat = regTab d.rg.present Reg.trlStat := by
  obtain ⟨ctrs, hcount⟩ := countCpl_counted n status (setRing n r d)
  rw [hcount]
  obtain ⟨p, hevent, htrl⟩ := cplEvent_frame n (d := { setRing n r d with cmd.counters := ctrs }) hp
  rw [hevent]
  obtain ⟨c, hmsg, hcmds, htail⟩ :=
    ringMessage_frame n notify { setRing n r d with cmd.counters := ctrs, rg.present := p }
  refine ⟨c, p, hmsg, hcmds, ?_, htrl⟩
  rw [htail (smSet_sorted hs)]
  exact congrArg Ring.cqTail (smGet_smSet_same hs)

/-- Writing a completion: its bytes are stored at CQ_TAIL, which moves on; outside the command interface no more changes than
SYS_EVENT, and the commands in flight stand. -/
theorem writeCpl_frame (n : Nat) (cpl : Cpl) {d : Dev} (hs : smAbove none d.cmd.rings = true) (hp : Sorted d) :
    ∃ c p, writeCpl n cpl d =
        { wrBytes (cplAddr (ringOf d n)) (cplBytes cpl (ringOf d n).phase) d with
          cmd := c, rg.present := p } ∧
      c.cmds = d.cmd.cmds ∧
      (smGet Ring.reset c.rings n).cqTail = ((ringOf d n).cqTail + 1) % (ringOf d n).depth ∧
      regTab p Reg.trlStat = regTab d.rg.present Reg.trlStat := by
  obtain ⟨c, p, hafter, hcmds, htail, htrl⟩ := ringMessage_cplEvent_frame n cpl.status cpl.notify (ringOf d n).pushed
    (d := wrBytes (cplAddr (ringOf d n)) (cplBytes cpl (ringOf d n).phase) d)
    (by rwa [wrBytes_cmd]) (by rwa [Sorted, wrBytes_rg])
  rw [wrBytes_cmd] at hcmds
  rw [wrBytes_rg] at htrl
  exact ⟨c, p, hafter, hcmds, htail, htrl⟩

/-- A completion written at CQ_TAIL reads back there, where 32 bytes of memory stand. -/
theorem rdBytes_writeCpl {n : Nat} (cpl : Cpl) {d : Dev} (hs : smAbove none d.cmd.rings = true) (hp : Sorted d)
    (hkey : ∀ k, k < 32 → ∃ key, target d (cplAddr (ringOf d n) + k) = .key key)
    (hne : ∀ j k, j < k → k < 32 → target d (cplAddr (ringOf d n) + j) ≠
      target d (cplAddr (ringOf d n) + k)) :
    rdBytes (writeCpl n cpl d) (cplAddr (ringOf d n)) 32 = cplBytes cpl (ringOf d n).phase := by
  obtain ⟨c, p, hwrite, -, -, htrl⟩ := writeCpl_frame n cpl hs hp
  rw [← length_cplBytes cpl (ringOf d n).phase] at hkey hne ⊢
  have hsame : target (writeCpl n cpl d) = target (wrBytes (cplAddr (ringOf d n)) (cplBytes cpl (ringOf d n).phase) d) := by
    rw [hwrite]
    refine SameMap.target_eq ⟨rfl, rfl, rfl, ?_, rfl, rfl, rfl, rfl⟩
    rw [regP, regP, wrBytes_rg]
    exact congrArg BitVec.toNat htrl
  rw [rdBytes_congr hsame (by rw [hwrite]) (by rw [hwrite]), rdBytes_wrBytes_same hkey hne]

/-- With no FENCE command in flight, a command completes by writing one completion, where its ring takes one now. -/
theorem complete_writes {id : Nat} {x : Res} {c : Cmd} {d : Dev} (hp : Sorted d) (hs : smAbove none d.cmd.rings = true)
    (hfind : findCmd d id = some c) (hring : c.ringless = false) (hfence : ∀ e ∈ d.cmd.cmds, e.pkt.opcode.toNat ≠ 0x0005)
    (hst : x.status ≠ stInternal) (hlost : (ringOf d c.pkt.ring.val).lost = false)
    (hdis : (ringOf d c.pkt.ring.val).st ≠ .disabled) (hfail : (ringOf d c.pkt.ring.val).failing = false)
    (hkept : (ringOf d c.pkt.ring.val).kept = []) (hroom : cqFullNow (ringOf d c.pkt.ring.val) = false) :
    complete id x d = writeCpl c.pkt.ring.val (lastCpl c x d) (departed c x d) := by
  obtain ⟨l, hr⟩ := ringOf_departed c x hs c.pkt.ring.val
  have hpost : postCpl c.pkt.ring.val (lastCpl c x d) (departed c x d) = writeCpl c.pkt.ring.val (lastCpl c x d) (departed c x d) := by
    apply postCpl_writes <;> rwa [hr]
  obtain ⟨m, p, hwrite, hcmds, -, -⟩ :=
    writeCpl_frame c.pkt.ring.val (lastCpl c x d) (departed_rings_sorted c x d) (departed_sorted c x hp)
  have hnone : ∀ e ∈ (writeCpl c.pkt.ring.val (lastCpl c x d) (departed c x d)).cmd.cmds, e.pkt.opcode.toNat ≠ 0x0005 := by
    intro e he
    rw [hwrite, hcmds] at he
    exact hfence e (departed_cmds_subset c x d he)
  simp only [complete, hfind, complete1_eq hring hst, hpost, releaseFences_of_no_fence hnone]

/-- Settles O45: the command leaves the list of commands in flight, which moves no pointer of its ring, and its completion is
written at CQ_TAIL. -/
theorem completionEntry : Obligations.CompletionEntry := by
  intro id x c d hpresent _ hrings hfind hring hfence hst n r a hlost hdis hfail hkept hroom hkey hne
  have hp : Sorted d := sorted_of_wf hpresent
  have hs : smAbove none d.cmd.rings = true := (Bool.and_eq_true_iff.mp hrings).1
  obtain ⟨l, hr⟩ : ∃ l, ringOf (departed c x d) n = { r with link := l } := ringOf_departed c x hs n
  have hmap : target (departed c x d) = target d := (departed_sameMap c x d).target_eq
  have hs' := departed_rings_sorted c x d
  have hp' := departed_sorted c x hp
  rw [complete_writes hp hs hfind hring hfence hst hlost hdis hfail hkept hroom]
  constructor
  · have hread := rdBytes_writeCpl (n := n) (lastCpl c x d) hs' hp' (by rw [hr, hmap]; exact hkey) (by rw [hr, hmap]; exact hne)
    rw [hr] at hread
    exact hread
  · obtain ⟨m, p, hwrite, -, htail, -⟩ := writeCpl_frame n (lastCpl c x d) hs' hp'
    rw [hr] at htail
    rw [hwrite]
    exact htail

end Sys2Proof.Machine

namespace Sys2Proof.Machine

/-!
PROOFS about the cyclic logic (spec/13_cyclic_logic.md): what an instruction does to the control of a scan (R304), what LOGIC_LOAD's
check ensures (R316), and that every scan of a loaded program ends (R308).
-/

/-! ### The control of a scan: address, END and count (R304, R308) -/

@[simp] theorem popBit_addr (x : Exec) : (popBit x).2.addr = x.addr := by unfold popBit; split <;> rfl
@[simp] theorem popBit_ended (x : Exec) : (popBit x).2.ended = x.ended := by unfold popBit; split <;> rfl
@[simp] theorem popBit_count (x : Exec) : (popBit x).2.count = x.count := by unfold popBit; split <;> rfl

/-- JMP, and JMPC with ACC 1, continue at their target and every other instruction at the next address; END alone ends the scan;
each instruction is counted. -/
theorem logicInstr_control (dt w : Nat) (x : Exec) :
    (logicInstr dt w x).addr =
      (if bits w 31 26 = 0x20 ∨ bits w 31 26 = 0x21 ∧ x.acc = true then bits w 15 0 else x.addr + 1) ∧
    (logicInstr dt w x).ended = (x.ended || decide (bits w 31 26 = 0x3F)) ∧
    (logicInstr dt w x).count = x.count + 1 := by
  unfold logicInstr
  split <;> simp_all [apply_ite Exec.addr, apply_ite Exec.ended, apply_ite Exec.count]

/-! ### A program without a fault (R308, R316) -/

/-- A program passes LOGIC_LOAD's check when no instruction has a fault and the last one is END. -/
theorem progFault_eq_none_iff (prog : List Nat) :
    progFault prog = none ↔
      (∀ k, k < prog.length → instrFault prog.length k (prog.getD k 0) = none) ∧ bits (prog.getLastD 0) 31 26 = 0x3F := by
  have hscan : prog.zipIdx.findSome? (fun v => (instrFault prog.length v.2 v.1).map (fun f => (f, v.2))) = none ↔
      ∀ k, k < prog.length → instrFault prog.length k (prog.getD k 0) = none := by
    simp only [List.findSome?_eq_none_iff, Option.map_eq_none_iff]
    constructor
    · intro h k hk
      rw [List.getD_eq_getElem _ _ hk]
      exact h (prog[k], k) (List.mk_mem_zipIdx_iff_getElem?.mpr (List.getElem?_eq_getElem hk))
    · rintro h ⟨w, k⟩ hw
      obtain ⟨hk, hget⟩ := List.getElem?_eq_some_iff.mp (List.mk_mem_zipIdx_iff_getElem?.mp hw)
      simpa only [List.getD_eq_getElem _ _ hk, hget] using h k hk
  rw [← hscan]
  unfold progFault
  dsimp only
  generalize prog.zipIdx.findSome? _ = fault
  cases fault <;> simp

/-- A jump without a fault goes forward and stays inside the program. -/
theorem target_of_instrFault_eq_none {len k w : Nat} (h : instrFault len k w = none)
    (hop : bits w 31 26 = 0x20 ∨ bits w 31 26 = 0x21) : k < bits w 15 0 ∧ bits w 15 0 < len := by
  by_contra hbad
  have hout : bits w 15 0 ≤ k ∨ len ≤ bits w 15 0 := by omega
  rcases hop with hop | hop <;> simp [instrFault, namedBits, hop, hout, ite_eq_iff] at h

section Loaded
variable {prog : List Nat} (hprog : progFault prog = none)
include hprog

theorem jump_target_of_progFault_eq_none {k : Nat} (hk : k < prog.length)
    (hop : bits (prog.getD k 0) 31 26 = 0x20 ∨ bits (prog.getD k 0) 31 26 = 0x21) :
    k < bits (prog.getD k 0) 15 0 ∧ bits (prog.getD k 0) 15 0 < prog.length :=
  target_of_instrFault_eq_none (((progFault_eq_none_iff prog).mp hprog).1 k hk) hop

/-- The only way to the program's end is through the END at its last address. -/
theorem succ_lt_length_of_not_end {k : Nat} (hk : k < prog.length) (hop : bits (prog.getD k 0) 31 26 ≠ 0x3F) :
    k + 1 < prog.length := by
  by_contra hlast
  have hk' : k = prog.length - 1 := by omega
  have hend := ((progFault_eq_none_iff prog).mp hprog).2
  rw [List.getLastD_eq_getLast?, List.getLast?_eq_getElem?, ← hk', ← List.getD_eq_getElem?_getD] at hend
  exact hop hend

/-- Each instruction of the program continues at a higher address. -/
theorem addr_lt_logicInstr_addr (dt : Nat) {x : Exec} (hx : x.addr < prog.length) :
    x.addr < (logicInstr dt (prog.getD x.addr 0) x).addr := by
  rw [(logicInstr_control dt _ x).1]
  split
  case isTrue hjump => exact (jump_target_of_progFault_eq_none hprog hx (hjump.imp_right And.left)).1
  case isFalse => exact Nat.lt_succ_self _

/-- After an instruction other than END the address is still inside the program. -/
theorem logicInstr_addr_lt_length (dt : Nat) {x : Exec} (hx : x.addr < prog.length)
    (hop : bits (prog.getD x.addr 0) 31 26 ≠ 0x3F) :
    (logicInstr dt (prog.getD x.addr 0) x).addr < prog.length := by
  rw [(logicInstr_control dt _ x).1]
  split
  case isTrue hjump => exact (jump_target_of_progFault_eq_none hprog hx (hjump.imp_right And.left)).2
  case isFalse => exact succ_lt_length_of_not_end hprog hx hop

end Loaded

/-! ### The run of a scan (R308) -/

/-- A scan's progress: as many instructions executed as addresses passed, at most; never past the program's end; and before the
end until an END has been executed. -/
structure InProgram (prog : List Nat) (x : Exec) : Prop where
  count_le : x.count ≤ x.addr
  addr_le : x.addr ≤ prog.length
  addr_lt : x.ended = false → x.addr < prog.length

section Run
variable {prog : List Nat} (hprog : progFault prog = none) (dt : Nat)
include hprog

/-- Every instruction of a scan keeps its progress. -/
theorem inProgram_logicInstr {x : Exec} (h : InProgram prog x) (hgo : x.ended = false) :
    InProgram prog (logicInstr dt (prog.getD x.addr 0) x) := by
  have hx := h.addr_lt hgo
  have hforward := addr_lt_logicInstr_addr hprog dt hx
  have hcount := h.count_le
  obtain ⟨haddr, hended, hcounted⟩ := logicInstr_control dt (prog.getD x.addr 0) x
  by_cases hop : bits (prog.getD x.addr 0) 31 26 = 0x3F
  · have hnext : (logicInstr dt (prog.getD x.addr 0) x).addr = x.addr + 1 := by rw [haddr, if_neg (by omega)]
    have hover : (logicInstr dt (prog.getD x.addr 0) x).ended = true := by
      simpa only [hop, decide_true, Bool.or_true] using hended
    exact ⟨by omega, by omega, fun hrun => nomatch hover.symm.trans hrun⟩
  · have hinside := logicInstr_addr_lt_length hprog dt hx hop
    exact ⟨by omega, hinside.le, fun _ => hinside⟩

/-- With one step of fuel for each address ahead, the scan ends at an END, and no address was executed twice. -/
theorem logicRun_ends (n : Nat) {x : Exec} (h : InProgram prog x) (hfuel : prog.length ≤ x.addr + n) :
    (logicRun prog.toArray dt n x).ended = true ∧ (logicRun prog.toArray dt n x).count ≤ prog.length := by
  induction n generalizing x with
  | zero =>
    have hended : x.ended = true := by
      by_contra hgo
      have := h.addr_lt (Bool.eq_false_of_not_eq_true hgo)
      omega
    exact ⟨hended, h.count_le.trans h.addr_le⟩
  | succ n ih =>
    rw [logicRun]
    split
    case isTrue hended => exact ⟨hended, h.count_le.trans h.addr_le⟩
    case isFalse hgo =>
      have hgo := Bool.eq_false_of_not_eq_true hgo
      have hx := h.addr_lt hgo
      have hfetch : prog.toArray.getD x.addr 0xFC000000 = prog.getD x.addr 0 := by
        rw [List.getD_eq_getElem _ _ hx]
        simp [hx]
      have hforward := addr_lt_logicInstr_addr hprog dt hx
      rw [hfetch]
      exact ih (inProgram_logicInstr hprog dt h hgo) (by omega)

end Run

/-- Settles O51, by induction on the addresses still ahead of the scan. -/
theorem everyScanEnds : Obligations.EveryScanEnds := by
  constructor
  · intro prog hprog _
    exact ⟨((progFault_eq_none_iff prog).mp hprog).2, fun k hk hop => jump_target_of_progFault_eq_none hprog hk hop,
      fun dt x hx => addr_lt_logicInstr_addr hprog dt hx⟩
  · intro dt e hprog hne
    exact logicRun_ends hprog dt e.prog.length ⟨Nat.zero_le _, Nat.zero_le _, fun _ => List.length_pos_of_ne_nil hne⟩
      (Nat.le_add_left _ _)

end Sys2Proof.Machine

namespace Sys2Proof.Machine

/-!
PROOFS about the panel driver (spec/21_pavilion_display.md): the code driven for a stored value (R470), the line that drives it (R468),
and the aging coefficients, which only the start of a panel frame takes up (R470).
-/

/-! ### What the end of a command leaves of a device -/

/-- The canonical form of a table reads as the table. -/
theorem smGet_smNorm {α : Type} [DecidableEq α] {d : α} {m : SMap α} (h : smAbove none m = true) (k : Nat) :
    smGet d (smNorm d m) k = smGet d m k :=
  smGet_smMap h (fun _ => rfl) k

section Settle
variable {d : Dev} (hr : d.cmd.resetting = []) (hw : d.wr = [])
include hr hw

/-- The end of a command that stored nothing leaves the panel driver. -/
theorem settle_pav (s : State) : (settle s d).dev.pav = d.pav := by
  rw [settle_plain s d hr (by simp [hw])]

/-- The end of a command that stored nothing leaves what registers read. -/
theorem regP_settle (hs : Sorted d) (s : State) (o : Nat) : regP (settle s d).dev o = regP d o := by
  rw [settle_plain s d hr (by simp [hw])]
  simp only [regP, regTab, smGet_smNorm hs]

end Settle

/-! ### Registers that work of a class leaves (R32, R157) -/

@[simp] theorem regP_bump (g i n q : Nat) (d : Dev) : regP (bump g i n d) q = regP d q := rfl
@[simp] theorem bump_resetting (g i n : Nat) (d : Dev) : (bump g i n d).cmd.resetting = d.cmd.resetting := rfl

@[simp] theorem meetCeil_resetting (c : Nat) (d : Dev) : (meetCeil c d).cmd.resetting = d.cmd.resetting := by
  unfold meetCeil
  split
  · rfl
  · split <;> rfl

@[simp] theorem charge_resetting (c : Nat) (x : Currency) (n : Nat) (d : Dev) :
    (charge c x n d).cmd.resetting = d.cmd.resetting := by
  unfold charge
  split
  · rw [meetCeil_resetting, addF_cmd]
  · rfl

theorem meetCeil_sorted {d : Dev} (hs : Sorted d) (c : Nat) : Sorted (meetCeil c d) := by
  unfold meetCeil
  split
  · exact hs
  · split
    · exact hs
    · exact addF_sorted (setF_sorted (setF_sorted hs))

theorem charge_sorted {d : Dev} (hs : Sorted d) (c : Nat) (x : Currency) (n : Nat) : Sorted (charge c x n d) := by
  unfold charge
  split
  · exact meetCeil_sorted (addF_sorted hs) c
  · exact hs

/-- A class that meets a ceiling writes its pauses and its state, and no other register. -/
theorem regP_meetCeil_ne {c q : Nat} {d : Dev} (hs : Sorted d) (hpauses : q ≠ Reg.budPauses c) (hstat : q ≠ Reg.budClsStat c) :
    regP (meetCeil c d) q = regP d q := by
  unfold meetCeil
  split
  · rfl
  · split
    · rfl
    · rw [regP_bump, regP_addF_ne ?_ hpauses, regP_setF_ne ?_ hstat, regP_setF_ne ?_ hstat]
      · rfl
      · exact hs
      · exact setF_sorted hs
      · exact setF_sorted (setF_sorted hs)

/-- A charge writes the count of what the class used besides. -/
theorem regP_charge_ne {c q : Nat} {x : Currency} {d : Dev} (hs : Sorted d) (n : Nat) (hused : q ≠ usedReg c x)
    (hpauses : q ≠ Reg.budPauses c) (hstat : q ≠ Reg.budClsStat c) : regP (charge c x n d) q = regP d q := by
  unfold charge
  split
  · rw [regP_meetCeil_ne (addF_sorted hs) hpauses hstat, regP_addF_ne hs hused]
  · rfl

/-! ### The code driven for a stored value (R470) -/

/-- The code is ⌊v × (2³² + AGE × S) / 2³² + ½⌋, clipped: the floor as bounds, free of fractions. -/
theorem driveCode_rounds (age stress v : Nat) : ∃ x : Nat,
    2 ^ 33 * x ≤ 2 * (v * (2 ^ 32 + age * stress)) + 2 ^ 32 ∧
    2 * (v * (2 ^ 32 + age * stress)) + 2 ^ 32 < 2 ^ 33 * (x + 1) ∧
    driveCode age stress v = (min 1023 x, decide (1023 < x)) := by
  refine ⟨(2 * (v * (2 ^ 32 + age * stress)) + 2 ^ 32) / 2 ^ 33, Nat.mul_div_le _ _, Nat.lt_mul_div_succ _ (by decide), ?_⟩
  rw [← Nat.mul_assoc]
  rfl

/-! ### Stress of the subpixels of a line (R469) -/

/-- What accumulating stress leaves: everything but the stress counters, their residues and PAV_STAT, of which these are the parts
that the end of the line's command reads. -/
structure StressKept (e d : Dev) : Prop where
  cmd : e.cmd = d.cmd
  wr : e.wr = d.wr
  ages : e.pav.ages = d.pav.ages
  driven : e.pav.driven = d.pav.driven
  sorted : Sorted d → Sorted e
  regs : Sorted d → ∀ q, q ≠ Reg.pavStat → regP e q = regP d q

theorem StressKept.refl (d : Dev) : StressKept d d := ⟨rfl, rfl, rfl, rfl, id, fun _ _ _ => rfl⟩

theorem StressKept.trans {e f d : Dev} (h : StressKept f e) (g : StressKept e d) : StressKept f d where
  cmd := h.cmd.trans g.cmd
  wr := h.wr.trans g.wr
  ages := h.ages.trans g.ages
  driven := h.driven.trans g.driven
  sorted hs := h.sorted (g.sorted hs)
  regs hs q hq := (h.regs (g.sorted hs) q hq).trans (g.regs hs q hq)

theorem addStress_kept (i c code : Nat) (d : Dev) : StressKept (addStress i c code d) d := by
  unfold addStress
  dsimp only
  split
  · exact ⟨rfl, rfl, rfl, rfl, fun hs => orP_sorted hs, fun hs _ hq => regP_orP_ne hs hq⟩
  · exact ⟨rfl, rfl, rfl, rfl, id, fun _ _ _ => rfl⟩

/-- The line whose codes were driven adds stress to its subpixels, on every STRESS_DIV-th panel frame. -/
def addLineStress (r : Nat) (codes : List (Nat × Bool)) (d : Dev) : Dev :=
  if d.pav.frames % stressDiv d ≠ 0 then d
  else (List.range 960).foldl (fun d k => addStress (960 * r + k) (k % 3) ((codes.getD k (0, false)).1) d) d

theorem addLineStress_kept (r : Nat) (codes : List (Nat × Bool)) (d : Dev) : StressKept (addLineStress r codes d) d := by
  unfold addLineStress
  split
  · exact .refl d
  · exact List.foldlRecOn (motive := fun e => StressKept e d) _ _ (.refl d) fun e h k _ => (addStress_kept _ _ _ e).trans h

/-! ### The line that is driven (R463, R468, R470) -/

/-- The device at the first phase of the panel's next line. -/
def atLine (d : Dev) : Dev :=
  advanceTicks (d.pav.start + d.pav.line * d.pav.timing.hTotal + d.pav.timing.phStart) { d with pav.line := d.pav.line + 1 }

@[simp] theorem atLine_ages (d : Dev) : (atLine d).pav.ages = d.pav.ages := rfl
@[simp] theorem atLine_cmd (d : Dev) : (atLine d).cmd = d.cmd := rfl
@[simp] theorem atLine_wr (d : Dev) : (atLine d).wr = d.wr := rfl
@[simp] theorem regP_atLine (d : Dev) (q : Nat) : regP (atLine d) q = regP d q := rfl
theorem atLine_sorted {d : Dev} (hs : Sorted d) : Sorted (atLine d) := hs

/-- The panel's subpixels are driven at these codes. -/
def driveAt (codes : List Nat) (d : Dev) : Dev := { d with pav.driven := codes }

@[simp] theorem driveAt_ages (codes : List Nat) (d : Dev) : (driveAt codes d).pav.ages = d.pav.ages := rfl
@[simp] theorem driveAt_cmd (codes : List Nat) (d : Dev) : (driveAt codes d).cmd = d.cmd := rfl
@[simp] theorem driveAt_wr (codes : List Nat) (d : Dev) : (driveAt codes d).wr = d.wr := rfl
@[simp] theorem regP_driveAt (codes : List Nat) (d : Dev) (q : Nat) : regP (driveAt codes d) q = regP d q := rfl
theorem driveAt_sorted {d : Dev} (hs : Sorted d) (codes : List Nat) : Sorted (driveAt codes d) := hs

/-- The codes of line `r`'s subpixels, each with whether it was clipped. -/
def lineCodes (r : Nat) (d : Dev) : List (Nat × Bool) :=
  (List.range 960).map (fun k =>
    driveCode (d.pav.ages.getD (k % 3) 0) (smGet 0 d.pav.stress (960 * r + k))
      (bits (smGet 0 (frontBuf d) (320 * r + k / 3)) (29 - 10 * (k % 3)) (20 - 10 * (k % 3))))

/-- A charge leaves the panel driver, of whose state the codes are a function. -/
@[simp] theorem lineCodes_charge (r c : Nat) (x : Currency) (n : Nat) (d : Dev) :
    lineCodes r (charge c x n d) = lineCodes r d := by
  simp only [lineCodes, frontBuf, charge_pav]

@[simp] theorem lineCodes_atLine (r : Nat) (d : Dev) : lineCodes r (atLine d) = lineCodes r d := rfl

/-- A line's codes are driven, and those clipped are counted. -/
def driveLine (codes : List (Nat × Bool)) (d : Dev) : Dev :=
  let n := (codes.filter (·.2)).length
  bump 0x11 3 n (addF Reg.pavClipCnt 31 0 n (driveAt (codes.map (·.1)) d))

section
variable (codes : List (Nat × Bool)) (d : Dev)

@[simp] theorem driveLine_driven : (driveLine codes d).pav.driven = codes.map (·.1) := rfl
@[simp] theorem driveLine_ages : (driveLine codes d).pav.ages = d.pav.ages := rfl
@[simp] theorem driveLine_resetting : (driveLine codes d).cmd.resetting = d.cmd.resetting := rfl
@[simp] theorem driveLine_wr : (driveLine codes d).wr = d.wr := rfl

theorem driveLine_sorted (hs : Sorted d) : Sorted (driveLine codes d) := addF_sorted (driveAt_sorted hs _)

theorem regP_driveLine_clipCnt (hs : Sorted d) :
    regP (driveLine codes d) Reg.pavClipCnt = (regP d Reg.pavClipCnt + (codes.filter (·.2)).length) % 2 ^ 32 := by
  simp only [driveLine, regP_bump, regP_addF_whole (driveAt_sorted hs _), regP_driveAt]

end

/-- The codes of a line that is dark. -/
def darkCodes : List Nat := List.replicate 960 0

/-- PANEL_LINE by cases: no line to drive, a blanked panel, a fetch that met the ceiling of class 9, and a line that is driven
from a charged fetch. -/
theorem panelLine_eq (d : Dev) :
    panelLine d =
      if d.sys.mode = .backup ∨ 240 ≤ d.pav.line then d
      else if blanked (atLine d) then driveAt darkCodes (atLine d)
      else if classStops (atLine d) 9 then
        bump 0x11 2 1 (addF Reg.pavUnderrunCnt 31 0 1 (driveAt darkCodes (meetCeil 9 (atLine d))))
      else
        let e := charge 9 .beats lineBeats (atLine d)
        addLineStress d.pav.line (lineCodes d.pav.line e) (driveLine (lineCodes d.pav.line e) e) := rfl

/-- A line keeps the aging coefficients (R470); it stores nothing and leaves the rings under reset. -/
theorem panelLine_keeps (d : Dev) :
    (panelLine d).pav.ages = d.pav.ages ∧ (panelLine d).cmd.resetting = d.cmd.resetting ∧ (panelLine d).wr = d.wr := by
  rw [panelLine_eq]
  split
  case isTrue => exact ⟨rfl, rfl, rfl⟩
  split
  case isTrue => simp
  split
  case isTrue => simp
  case isFalse =>
    obtain ⟨hcmd, hwr, hages, -, -, -⟩ := addLineStress_kept d.pav.line (lineCodes d.pav.line d)
      (driveLine (lineCodes d.pav.line d) (charge 9 .beats lineBeats (atLine d)))
    simp [hcmd, hwr, hages]

/-- A line of a lit panel whose class may work drives the codes of its stored values and counts those clipped (R470). -/
theorem panelLine_drives {d : Dev} (hs : Sorted d) (hup : ¬(d.sys.mode = .backup ∨ 240 ≤ d.pav.line))
    (hlit : blanked (atLine d) = false) (hopen : classStops (atLine d) 9 = false) :
    Sorted (panelLine d) ∧ (panelLine d).pav.driven = (lineCodes d.pav.line d).map (·.1) ∧
      regP (panelLine d) Reg.pavClipCnt =
        (regP d Reg.pavClipCnt + ((lineCodes d.pav.line d).filter (·.2)).length) % 2 ^ 32 := by
  have hcharged : Sorted (charge 9 .beats lineBeats (atLine d)) := charge_sorted (atLine_sorted hs) 9 .beats lineBeats
  have hclip : regP (charge 9 .beats lineBeats (atLine d)) Reg.pavClipCnt = regP d Reg.pavClipCnt :=
    (regP_charge_ne (atLine_sorted hs) lineBeats (by decide) (by decide) (by decide)).trans (regP_atLine d _)
  have hdriven := driveLine_sorted (lineCodes d.pav.line d) _ hcharged
  have hstress := addLineStress_kept d.pav.line (lineCodes d.pav.line d)
    (driveLine (lineCodes d.pav.line d) (charge 9 .beats lineBeats (atLine d)))
  simp only [panelLine_eq, if_neg hup, hlit, hopen, Bool.false_eq_true, if_false, lineCodes_charge, lineCodes_atLine]
  refine ⟨hstress.sorted hdriven, hstress.driven.trans (driveLine_driven _ _), ?_⟩
  rw [hstress.regs hdriven Reg.pavClipCnt (by decide), regP_driveLine_clipCnt _ _ hcharged, hclip]

/-! ### The start of a panel frame (R467, R470) -/

/-- With no flip pending there is nothing to exchange. -/
theorem exchange_of_no_flip {d : Dev} (hflip : d.pav.flip = none) : exchange d = d := by
  rw [exchange, hflip]

/-- With no flip pending, a panel frame takes up AGE as applied; it stores nothing and leaves the rings under reset. -/
theorem panelFrameStart_takes_ages {d : Dev} (hup : d.sys.mode ≠ .backup) (hflip : d.pav.flip = none) :
    (panelFrameStart d).pav.ages = (List.range 3).map (fun c => fldA d (Reg.pavAge c) 15 0) ∧
      (panelFrameStart d).cmd.resetting = d.cmd.resetting ∧ (panelFrameStart d).wr = d.wr := by
  simp only [panelFrameStart, if_neg hup]
  rw [exchange_of_no_flip]
  · exact ⟨rfl, rfl, rfl⟩
  · exact hflip

/-- Settles O52: `driveCode` rounds and clips; a panel frame's start takes up the aging coefficients, a line keeps them, drives its
codes and counts those clipped. What `settle` leaves of these is what the step gave. -/
theorem panelDriveCode : Obligations.PanelDriveCode := by
  refine ⟨driveCode_rounds, ?_, ?_, ?_⟩
  · rintro s t ⟨-, hwr, -, -, -⟩ hreset hup hflip ⟨⟩
    obtain ⟨hages, hr, hw⟩ := panelFrameStart_takes_ages hup hflip
    rw [settle_pav (hr.trans hreset) (hw.trans hwr), hages]
  · rintro s t ⟨-, hwr, -, -, -⟩ hreset ⟨⟩
    obtain ⟨hages, hr, hw⟩ := panelLine_keeps s.dev
    rw [settle_pav (hr.trans hreset) (hw.trans hwr), hages]
  · rintro s t ⟨-, hwr, hwf, -, -⟩ hreset hup hline r d codes hlit hopen ⟨⟩
    obtain ⟨-, hr, hw⟩ := panelLine_keeps s.dev
    obtain ⟨hs, hdriven, hclip⟩ := panelLine_drives (sorted_of_wf hwf) (by simp [hup, hline]) hlit hopen
    rw [settle_pav (hr.trans hreset) (hw.trans hwr), regP_settle (hr.trans hreset) (hw.trans hwr) hs]
    exact ⟨hdriven, hclip⟩

end Sys2Proof.Machine


namespace Sys2Proof.Machine

/-!
PROOFS about the block as a whole (spec/01_architecture.md): every command ends in `settle`, so every step keeps the invariant; what a
step takes, and what reset leaves.
-/

/-- Every row of the command table ends in `settle`, whatever it does to the device. -/
theorem exec_settles (i : Instr) (s : State) : ∃ d, exec i s = .next (settle s d) := by
  cases i <;> exact ⟨_, rfl⟩

/-- A command that answers `t` answers what `settle` leaves. -/
theorem eq_settle_of_exec {i : Instr} {s t : State} (h : exec i s = .next t) : ∃ d, t = settle s d := by
  obtain ⟨d, hd⟩ := exec_settles i s
  exact ⟨d, Host.Outcome.next.inj (h.symm.trans hd)⟩

/-- A step settles the device of a state whose queue alone may be shorter. -/
theorem step_settles (s : State) : ∃ cs d, step s = .next (settle { s with pending := cs } d) := by
  obtain ⟨dev, pending⟩ := s
  cases pending with
  | nil => exact ⟨[], _, rfl⟩
  | cons c cs =>
    obtain ⟨d, hd⟩ := exec_settles c ⟨dev, cs⟩
    exact ⟨cs, d, hd⟩

/-- Settles O40: whatever a step does to the device, `settle` brings memory and the tables into canonical form and empties the log. -/
theorem invariantKept : Obligations.InvariantKept := by
  intro s t hinv hstep
  obtain ⟨cs, d, hd⟩ := step_settles s
  obtain rfl : t = _ := Host.Outcome.next.inj (hstep.symm.trans hd)
  exact settle_inv { s with pending := cs } d hinv

/-- Settles O37: `step` is a match on the queue. -/
theorem stepTakesFrontCommand : Obligations.StepTakesFrontCommand := by
  refine ⟨fun c cs s => rfl, fun s hempty => ?_⟩
  simp only [step, hempty]

/-- Settles O38: every row ends in `settle`, which leaves the queue and empties the log. -/
theorem everyCommandAnswers : Obligations.EveryCommandAnswers := by
  refine ⟨exec_settles, fun i s t h => ?_⟩
  obtain ⟨d, rfl⟩ := eq_settle_of_exec h
  exact ⟨settle_pending s d, settle_wr s d⟩

/-- No ring of the device after reset is ACTIVE, so none is served. -/
theorem canFetch_reset (n : Nat) : canFetch State.reset.dev n = false := by
  have hmode : State.reset.dev.sys.mode = .boot := rfl
  simp [canFetch, hmode, Mode.code]

/-- Settles O39. -/
theorem resetState : Obligations.ResetState := by
  refine ⟨⟨?_, ?_, ?_, ?_, ?_⟩, rfl, rfl, rfl, rfl, ?_, ?_, rfl, canFetch_reset⟩ <;> decide +kernel

end Sys2Proof.Machine


namespace Sys2Proof.Machine

/-!
PROOFS about the system, ring and class commands (spec/02_command_interface.md, 04_modes_boot_recovery.md,
06_plans_static_schedule.md). A packet that starts runs its row's own effect (`packetRow_starts`); a clause of a row's completion is
then the case of that effect which the clause's hypotheses select.
-/

/-- A packet row whose packet starts settles what its own effect makes of the device. -/
theorem packetRow_eff {sp : OpSpec} {eff : Nat → Pkt → Dev → Dev} {p : Pkt} {s : State} {d : Dev} (h : starts sp p s = true)
    (he : eff s.dev.cmd.nextId p (begun sp p s) = d) : packetRow sp eff p s = .next (settle s d) :=
  he ▸ packetRow_starts sp eff p s h

theorem now_lt (d : Dev) : now d < 2 ^ 64 := Nat.mod_lt _ (by decide)

/-- The high half of a 64-bit number. -/
theorem hi32_eq_div {v : Nat} (h : v < 2 ^ 64) : hi32 v = v / 2 ^ 32 := by
  rw [hi32, Nat.shiftRight_eq_div_pow]
  exact Nat.mod_eq_of_lt (by omega)

/-- Bit 0 of a number is its parity. -/
theorem bitAt_zero (v : Nat) : bitAt v 0 = decide (v % 2 = 1) := by
  simp only [bitAt, Nat.shiftRight_zero, beq_eq_decide]

/-- GET_MODE gives DEGRADED in bit 3 and the time in two halves (R68). -/
theorem effGetMode_eq (id : Nat) (p : Pkt) (d : Dev) : effGetMode id p d =
    complete id (ok ((if d.sys.degraded then 8 else 0) + d.sys.mode.code) d.thr.band (now d % 2 ^ 32) (now d / 2 ^ 32)) d := by
  have hdeg : b2n d.sys.degraded <<< 3 = if d.sys.degraded then 8 else 0 := by cases d.sys.degraded <;> rfl
  simp only [effGetMode, immediate, hdeg, lo32, hi32_eq_div (now_lt d)]

theorem identityAndCounterRowsComplete : Rows.IdentityAndCounterRowsComplete := by
  intro p s
  refine ⟨packetRow_starts _ _ p s, fun h => packetRow_eff h (effGetMode_eq _ p _), packetRow_starts _ _ p s,
    fun h => packetRow_eff h ?_, packetRow_starts _ _ p s⟩
  simp only [effGetCounters, immediate, bitAt_zero, decide_eq_true_eq]
  rfl

theorem setModeCompletes : Rows.SetModeCompletes := by
  intro p s h
  refine ⟨fun hpresent => packetRow_eff h ?_, fun h6 hne => packetRow_eff h ?_, fun hne h6 hreq => packetRow_eff h ?_⟩
  · simp only [effSetMode, if_pos hpresent]
  · simp only [effSetMode, h6, if_neg hne.symm, if_true]
  · simp only [effSetMode, if_neg hne, if_neg h6, hreq, Option.isSome_none, Bool.false_eq_true, if_false]

theorem readStateAndFenceComplete : Rows.ReadStateAndFenceComplete := by
  intro p s
  refine ⟨fun h => ⟨fun hn => packetRow_eff h (if_pos hn), fun hn => packetRow_eff h (if_neg (Nat.not_lt.mpr hn))⟩,
    fun h c hc => ⟨fun hdone => packetRow_eff h ?_, fun hdone => packetRow_eff h ?_⟩⟩
  · simp only [effFence, hc, hdone, if_true]
  · simp only [effFence, hc, hdone, Bool.false_eq_true, if_false]

/-- Settles O1. -/
theorem systemRowsComplete : Obligations.SystemRowsComplete :=
  ⟨identityAndCounterRowsComplete, setModeCompletes, readStateAndFenceComplete⟩

theorem ringRowsComplete : Rows.RingRowsComplete := by
  intro p s
  refine ⟨fun h => ⟨fun hen => packetRow_eff h ?_, fun hen => packetRow_eff h ?_⟩,
    fun h => ⟨fun hst => packetRow_eff h ?_, fun hst => packetRow_eff h ?_⟩⟩
  · simp only [effRingConfig, immediate, hen, if_true]
  · simp only [effRingConfig, immediate, hen, Bool.false_eq_true, if_false]
  · simp only [effRingReset, if_pos hst]
  · simp only [effRingReset, if_neg hst]

theorem classRowsComplete : Rows.ClassRowsComplete := by
  intro p s
  refine ⟨fun h fp u hfp hrow hadm => packetRow_eff h ?_, packetRow_starts _ _ p s⟩
  simp only [effClassBudget, hfp, hrow, hadm, Bool.not_true, Bool.false_eq_true, if_false]

/-- Settles O2. -/
theorem ringAndClassRowsComplete : Obligations.RingAndClassRowsComplete := ⟨ringRowsComplete, classRowsComplete⟩

end Sys2Proof.Machine


namespace Sys2Proof.Machine

/-!
PROOFS about the model, plan and placement commands (spec/05_network_model.md, 06_plans_static_schedule.md, 08_placement.md).
-/

/-! ### The staged model (R121–R124, R130–R135) -/

/-- The list and the copy that MODEL_READ reads, by its LIST word (R133). -/
theorem effModelRead_eq {p : Pkt} (hlist : param p 0 ≤ 3) (id : Nat) (d : Dev) :
    let entry (i : Nat) : List Byte :=
      match param p 0 with
      | 0 => objBytes (objAt d.mdl.com.objs i)
      | 1 => measBytes (measAt d.mdl.com.meas i) ++ valBytes (valAt d d.mdl.newest i)
      | 2 => objBytes (objAt d.mdl.stagedObjs i)
      | _ => measBytes (measAt d.mdl.stagedMeas i) ++ List.replicate 32 (0 : Byte)
    let bs := (List.range (param p 2)).flatMap (fun i => entry (param p 1 + i))
    effModelRead id p d = complete id (ok bs.length 0 0 0) (wrBytes (bufA p) bs d) := by
  have hcases : param p 0 = 0 ∨ param p 0 = 1 ∨ param p 0 = 2 ∨ param p 0 = 3 := by omega
  rcases hcases with h | h | h | h <;> simp only [effModelRead, immediate, h] <;> rfl

/-- MEAS_WRITE_VALUES counts the records it refuses (R134). -/
theorem effMeasWriteValues_eq (id : Nat) (p : Pkt) (d : Dev) :
    let recs := (List.range (param p 0)).map (fun i =>
      let b := rdBytes d (bufA p + 24 * i) 24
      (⟨fieldLE b 0 4, fieldLE b 8 8, fieldLE b 16 8⟩ : HostVal))
    let good := recs.filter (fun h => decide (h.index < 65536 ∧ (measAt d.mdl.com.meas h.index).quantity ≠ 0 ∧
      (measAt d.mdl.com.meas h.index).source = 0))
    let bad := param p 0 - good.length
    effMeasWriteValues id p d = complete id (ok bad 0 0 0)
      (bump 2 6 bad { d with mdl.hostVals := d.mdl.hostVals ++ good }) := by
  simp only [effMeasWriteValues, immediate, List.length_map, List.length_range, Bool.decide_and, Bool.and_assoc]

theorem modelRowsComplete : Rows.ModelRowsComplete := by
  intro p s
  exact ⟨packetRow_starts _ _ p s, packetRow_starts _ _ p s, fun h hlist => packetRow_eff h (effModelRead_eq hlist _ _),
    packetRow_starts _ _ p s, fun h => packetRow_eff h (effMeasWriteValues_eq _ p _), packetRow_starts _ _ p s⟩

theorem modelCommitCompletes : Rows.ModelCommitCompletes := by
  refine fun p s h hfault => packetRow_eff h ?_
  simp only [effModelCommit, hfault]

/-- Settles O3. -/
theorem modelRowsAllComplete : Obligations.ModelRowsAllComplete := ⟨modelRowsComplete, modelCommitCompletes⟩

/-! ### Plans and frame plans (R150–R154, R159–R167) -/

theorem planLoadCompletes : Rows.PlanLoadCompletes := by
  refine fun p s h => ⟨fun d2 hkind hfault hplace => packetRow_eff h ?_, fun u hkind hfault hadm => packetRow_eff h ?_⟩
  · simp only [effPlanLoad, if_pos hkind, loadImage, hfault, hplace]
  · simp only [effPlanLoad, hkind, Nat.one_ne_zero, if_false, loadFramePlan, hfault, hadm]

/-- The journal takes a record that fits beside the reserve (R431). -/
theorem journal_takes {type len : Nat} {d : Dev} (h : journalTakes d type len) (key : Nat) (data : List Nat) (done : Option JDone) :
    journal type key data len done false d =
      { d with grn.queue := d.grn.queue ++ [⟨type, key, data, len, done, false, none⟩] } := by
  obtain ⟨hrefuse, hroom⟩ := h
  have hfull : decide (jRing - jReserve < retainedBytes d.grn + queuedBytes d.grn + jBytes type len) = false :=
    decide_eq_false (Nat.not_lt.mpr hroom)
  simp only [journal, hrefuse, hfull, Bool.not_false, Bool.and_false, Bool.or_false, Bool.false_eq_true, if_false]

/-- Bit 0 of a number as a number. -/
theorem b2n_bitAt_zero (v : Nat) : b2n (bitAt v 0) = v % 2 := by
  rw [bitAt_zero, b2n]
  rcases Nat.mod_two_eq_zero_or_one v with h | h <;> simp [h]

theorem planRowsComplete : Rows.PlanRowsComplete := by
  refine fun p s => ⟨packetRow_starts _ _ p s, fun h => ⟨fun pl hpl => packetRow_eff h ?_, fun hnone => packetRow_eff h ?_⟩,
    fun h pl hpl hentry => packetRow_eff h ?_, fun h hroom => packetRow_eff h ?_⟩
  · simp only [effPlanQuery, immediate, hpl, Option.getD_some, Nat.shiftLeft_eq, Nat.mul_comm]
  · simp only [effPlanQuery, immediate, hnone, Option.getD_none, slotState]
    rfl
  · simp only [effPlanBound, immediate, hpl, if_neg (Nat.not_le.mpr hentry)]
  · rw [effPlanPolicy, journal_takes hroom, b2n_bitAt_zero]
    rfl

theorem placeRowsComplete : Rows.PlaceRowsComplete := by
  refine fun p s => ⟨packetRow_starts _ _ p s, packetRow_starts _ _ p s, fun h hfault => ⟨fun x hplace => packetRow_eff h ?_,
    fun hs c w hplace => packetRow_eff h ?_⟩⟩
  · simp only [effPlacePredict, immediate, hfault, hplace]
  · simp only [effPlacePredict, immediate, hfault, hplace]

/-- Settles O4. -/
theorem planRowsAllComplete : Obligations.PlanRowsAllComplete := ⟨planLoadCompletes, planRowsComplete, placeRowsComplete⟩

end Sys2Proof.Machine


namespace Sys2Proof.Machine

/-!
PROOFS about the commands that submit, cancel and query runs, and about run-ahead (spec/09_sheaf_solvers.md, 10_least_squares.md,
11_run_ahead.md).
-/

/-! ### Runs named by TAG and ring (R232, R254) -/

section Named
variable {opcode mask id : Nat} {p : Pkt} {d : Dev} {c : Cmd} (hc : outstanding d opcode (param p 0) (param p 1) = some c)
include hc

theorem cancelRun_of_run {r : Run} (hr : runOfCmd d c.id = some r) : cancelRun opcode mask id p d =
    complete id (ok (if r.phase = .queued then 0 else 1) 0 0 0) (endRun r (refuse stCancelled 0) d) := by
  simp only [cancelRun, immediate, hc, hr, b2n, decide_eq_true_eq, ite_not]

theorem cancelRun_of_waiting (hr : runOfCmd d c.id = none) : cancelRun opcode mask id p d =
    complete id (ok 0 0 0 0) (commitReady (complete c.id (refuse stCancelled 0) d)) := by
  simp only [cancelRun, immediate, hc, hr]

theorem queryRun_of_run {r : Run} (hr : runOfCmd d c.id = some r) : queryRun opcode mask id p d =
    complete id (ok r.idx (65536 * (r.passes % 65536) + runPhase d r) (lo32 r.path) (hi32 r.path)) d := by
  simp only [queryRun, immediate, hc, hr, Nat.shiftLeft_eq, Nat.mul_comm]

theorem queryRun_of_waiting (hr : runOfCmd d c.id = none) :
    queryRun opcode mask id p d = complete id (ok 0 (b2n (decide (c.phase ≠ .waiting))) 0 0) d := by
  simp only [queryRun, immediate, hc, hr]

end Named

theorem submitRowsComplete : Rows.SubmitRowsComplete :=
  fun p s => ⟨packetRow_starts _ _ p s, packetRow_starts _ _ p s, packetRow_starts _ _ p s⟩

theorem runCancelAndQueryComplete : Rows.RunCancelAndQueryComplete := by
  refine fun p s => ⟨fun h c hc => ⟨?_, ?_⟩, fun h c hc => ⟨?_, ?_⟩, fun h c hc => ⟨?_, ?_⟩, fun h c hc => ⟨?_, ?_⟩⟩
  · exact fun r hr => packetRow_eff h (cancelRun_of_run hc hr)
  · exact fun hr => packetRow_eff h (cancelRun_of_waiting hc hr)
  · exact fun r hr => packetRow_eff h (cancelRun_of_run hc hr)
  · exact fun hr => packetRow_eff h (cancelRun_of_waiting hc hr)
  · exact fun r hr => packetRow_eff h (queryRun_of_run hc hr)
  · exact fun hr => packetRow_eff h (queryRun_of_waiting hc hr)
  · exact fun r hr => packetRow_eff h (queryRun_of_run hc hr)
  · exact fun hr => packetRow_eff h (queryRun_of_waiting hc hr)

/-! ### Run-ahead (R259–R277) -/

/-- RA_QUERY packs the period's state, flags and runs into one word (R276). -/
theorem effRaQuery_eq (id : Nat) (p : Pkt) (d : Dev) :
    let n := param64 p 0
    let fl := (periodOf d n).elim 0 pflags
    effRaQuery id p d = complete id (ok (b2n (periodOpen d n) + 256 * fl + 65536 * (periodRuns d n % 65536)) (periodLaunches d n)
      (lo32 (periodStart d n)) (hi32 (periodStart d n))) d := by
  cases hq : periodOf d (param64 p 0) <;> simp [effRaQuery, immediate, hq, Nat.shiftLeft_eq, Nat.mul_comm]

theorem runAheadRowsComplete : Rows.RunAheadRowsComplete := by
  refine fun p s => ⟨packetRow_starts _ _ p s, packetRow_starts _ _ p s, fun h q hq => packetRow_eff h ?_,
    fun h => packetRow_eff h ?_, fun h => packetRow_eff h (effRaQuery_eq _ p _)⟩
  · simp only [effRaForecast, immediate, hq]
  · simp only [effRaSquash, immediate]

/-- Settles O5. -/
theorem runRowsAllComplete : Obligations.RunRowsAllComplete :=
  ⟨submitRowsComplete, runCancelAndQueryComplete, runAheadRowsComplete⟩

end Sys2Proof.Machine


namespace Sys2Proof.Machine

/-!
PROOFS about the commands on control loops, cyclic logic and converters (spec/12_control_loops.md, 13_cyclic_logic.md,
15_measurement_io.md).
-/

/-! ### Loops and traces (R283–R299) -/

theorem loopRowsComplete : Rows.LoopRowsComplete :=
  fun p s => ⟨packetRow_starts _ _ p s, packetRow_starts _ _ p s, packetRow_starts _ _ p s, packetRow_starts _ _ p s,
    packetRow_starts _ _ p s⟩

theorem loopRetuneCompletes : Rows.LoopRetuneCompletes := by
  refine fun p s h hfree => ⟨fun hon hmode => packetRow_eff h ?_, fun hoff => packetRow_eff h ?_⟩
  · simp only [effLoopRetune, hfree, Option.isSome_none, Bool.false_eq_true, if_false]
    rw [if_pos ⟨hon, hmode⟩]
  · have hnot : ¬(loopOn (begun specLoopRetune p s) (param p 0) = true ∧ (begun specLoopRetune p s).sys.mode ≠ .config) := by
      rcases hoff with hoff | hconfig
      · simp [hoff]
      · simp [hconfig]
    simp only [effLoopRetune, hfree, Option.isSome_none, Bool.false_eq_true, if_false]
    rw [if_neg hnot]

theorem traceRowsComplete : Rows.TraceRowsComplete :=
  fun p s => ⟨packetRow_starts _ _ p s, packetRow_starts _ _ p s⟩

/-- Settles O6. -/
theorem loopRowsAllComplete : Obligations.LoopRowsAllComplete := ⟨loopRowsComplete, loopRetuneCompletes, traceRowsComplete⟩

/-! ### Cyclic logic (R312–R318) -/

theorem logicRowsComplete : Rows.LogicRowsComplete := by
  refine fun p s => ⟨packetRow_starts _ _ p s, fun h => ⟨fun hbits => packetRow_eff h ?_, fun hwords => packetRow_eff h ?_⟩,
    packetRow_starts _ _ p s, packetRow_starts _ _ p s, packetRow_starts _ _ p s⟩
  · simp only [effLogicVarsWrite, immediate, if_pos hbits]
  · simp only [effLogicVarsWrite, immediate, if_neg hwords]

/-- A change waits for the start of a scan while scans run and the queue of changes has room. -/
theorem logicChange_waits {d : Dev} (hrun : scansRun d = true) (hroom : d.cle.queue.length < 64) (id : Nat) (c : LogicChange) :
    logicChange id c d = { d with cle.queue := d.cle.queue ++ [c] } := by
  simp only [logicChange, hrun, if_true, if_neg (Nat.not_le.mpr hroom)]

/-- A change is made at once while no scan runs. -/
theorem logicChange_now {d : Dev} (hrun : scansRun d = false) (id : Nat) (c : LogicChange) :
    logicChange id c d = applyChange d c := by
  simp only [logicChange, hrun, Bool.false_eq_true, if_false]

theorem logicChangesComplete : Rows.LogicChangesComplete := by
  refine fun p s => ⟨fun h => ⟨?_, ?_⟩, fun h => ⟨?_, ?_⟩⟩
  · exact fun hrun hroom => packetRow_eff h (logicChange_waits hrun hroom _ _)
  · exact fun hrun => packetRow_eff h (logicChange_now hrun _ _)
  · exact fun hrun hroom => packetRow_eff h (logicChange_waits hrun hroom _ _)
  · exact fun hrun => packetRow_eff h (logicChange_now hrun _ _)

/-- Settles O7. -/
theorem logicRowsAllComplete : Obligations.LogicRowsAllComplete := ⟨logicRowsComplete, logicChangesComplete⟩

/-! ### Converters and windows (R346, R347, R357–R359) -/

theorem converterRowsComplete : Rows.ConverterRowsComplete := by
  refine fun p s => ⟨fun h => ⟨fun hnone => packetRow_eff h ?_, fun hsome => packetRow_eff h ?_⟩,
    fun h => ⟨fun hnow hout => packetRow_eff h ?_, fun hwait => packetRow_eff h ?_⟩, fun h a ha => packetRow_eff h ?_⟩
  · simp only [effAdcStart, hnone, List.isEmpty_nil, if_true]
  · simp only [effAdcStart, List.isEmpty_iff, if_neg hsome]
  · simp only [effWindowArm, bitAt_zero, hnow, hout, ne_eq, not_false_eq_true, decide_true, Bool.and_self, if_true]
  · rcases hwait with hwait | hin
    · simp only [effWindowArm, bitAt_zero, hwait, Nat.zero_mod, zero_ne_one, decide_false, Bool.false_and, Bool.false_eq_true, if_false]
    · simp only [effWindowArm, hin, ne_eq, not_true_eq_false, decide_false, Bool.and_false, Bool.false_eq_true, if_false]
  · simp only [effWindowDisarm, immediate, ha]
    rfl

/-- Settles O8. -/
theorem converterRowsAllComplete : Obligations.ConverterRowsAllComplete := converterRowsComplete

end Sys2Proof.Machine


namespace Sys2Proof.Machine

/-!
PROOFS about the metering and CAN commands (spec/16_metering.md, 17_can.md).
-/

theorem meterRowsComplete : Rows.MeterRowsComplete := by
  refine fun p s => ⟨packetRow_starts _ _ p s, packetRow_starts _ _ p s, fun h => packetRow_eff h ?_, packetRow_starts _ _ p s,
    fun h => ⟨fun r l hfifo => packetRow_eff h ?_, fun hempty => ⟨(Config.openResult 1).toNat, packetRow_eff h ?_⟩⟩,
    fun h a ha => packetRow_eff h ?_⟩
  · simp only [effMtrSave, bitAt_zero, decide_eq_true_eq]
  · simp only [effMtrEventRead, immediate, hfifo, List.head?_cons]
    rfl
  · simp only [effMtrEventRead, immediate, hempty, List.filter_nil, List.take_nil, List.flatMap_nil, List.length_nil, List.head?_nil,
      Nat.lt_irrefl, if_false, wrBytes]
    rfl
  · simp only [effMtrEventDisarm, immediate, ha]
    rfl

theorem canRowsComplete : Rows.CanRowsComplete := by
  refine fun p s => ⟨packetRow_starts _ _ p s, fun h => ⟨fun n e hholds => packetRow_eff h ?_, fun hnone => packetRow_eff h ?_⟩,
    fun h a ha => packetRow_eff h ?_, packetRow_starts _ _ p s⟩
  · simp only [effCanWait, hholds, Nat.shiftLeft_eq, Nat.mul_comm]
  · simp only [effCanWait, hnone]
  · simp only [effCanDisarm, immediate, ha]
    rfl

/-- Settles O9. -/
theorem meterAndCanRowsComplete : Obligations.MeterAndCanRowsComplete := ⟨meterRowsComplete, canRowsComplete⟩

end Sys2Proof.Machine


namespace Sys2Proof.Machine

/-!
PROOFS about the time, launch, Trellis and redundancy commands (spec/14_time_ethernet_launch.md, 18_trellis_redundancy.md).
-/

theorem timeRowsComplete : Rows.TimeRowsComplete := by
  refine fun p s => ⟨packetRow_starts _ _ p s, fun h => packetRow_eff h ?_, packetRow_starts _ _ p s, packetRow_starts _ _ p s,
    packetRow_starts _ _ p s⟩
  simp only [effTimeSet, immediate, bitAt_zero, decide_eq_true_eq]

/-- Settles O10. -/
theorem timeRowsAllComplete : Obligations.TimeRowsAllComplete := timeRowsComplete

/-- LAUNCH_QUEUE by whether it is speculative (R263) and whether it stays on this unit (R341). -/
theorem launchRowsComplete : Rows.LaunchRowsComplete := by
  refine fun p s => ⟨fun h => packetRow_eff h ?_, fun h c hc => packetRow_eff h ?_⟩
  · cases hspec : isSpec p <;> by_cases hhere : lTarget p (begun specLaunchQueue p s) = 0 <;>
      simp only [effLaunchQueue, hspec, hhere, decide_true, decide_false, if_true, if_false, Bool.false_eq_true,
        Option.isSome_none, Option.isSome_some]
  · simp only [effLaunchCancel, hc]

/-- Settles O11. -/
theorem launchRowsAllComplete : Obligations.LaunchRowsAllComplete := launchRowsComplete

theorem trellisRowsComplete : Rows.TrellisRowsComplete := by
  refine fun p s => ⟨fun h => packetRow_eff h ?_, packetRow_starts _ _ p s, packetRow_starts _ _ p s, packetRow_starts _ _ p s⟩
  simp only [effTrlQuery, immediate]

/-- Settles O12. -/
theorem trellisRowsAllComplete : Obligations.TrellisRowsAllComplete := trellisRowsComplete

end Sys2Proof.Machine


namespace Sys2Proof.Machine

/-!
PROOFS about what becomes of a packet in its submission ring (spec/02_command_interface.md R45, R53–R65): one lemma per outcome of a
packet row, whatever the row's own effect.
-/

section Outcomes
variable {sp : OpSpec} (eff : Nat → Pkt → Dev → Dev) {p : Pkt} {s : State}

theorem packetRow_eq (sp : OpSpec) (eff : Nat → Pkt → Dev → Dev) (p : Pkt) (s : State) :
    packetRow sp eff p s = .next (settle s (runPacket sp (mirrored sp eff) p (stageMirror sp p s.dev))) := rfl

/-- With no room for the entry nothing happens. -/
theorem packetRow_no_room (h : takesEntry (stageMirror sp p s.dev) (ringN p) = false) :
    packetRow sp eff p s = .next (settle s (stageMirror sp p s.dev)) := by
  rw [packetRow_eq, runPacket]
  simp only [h, Bool.not_false, if_true]

/-- An entry that may not be fetched stays in its ring. -/
theorem packetRow_held (ht : takesEntry (stageMirror sp p s.dev) (ringN p) = true)
    (hw : (ringOf (stageMirror sp p s.dev) (ringN p)).filled ≠ 0 ∨ fetchable (placed sp p s) p = false) :
    packetRow sp eff p s = .next (settle s (placed sp p s)) := by
  rw [packetRow_eq, runPacket_holds ht hw, placed]

theorem placed_nextId : (placed sp p s).cmd.nextId = s.dev.cmd.nextId := by
  rw [placed, placeEntry_nextId, stageMirror_nextId]

/-- The next entry of its ring is fetched; checks on its link and its opcode come before its start. -/
theorem packetRow_fetched (ht : takesEntry (stageMirror sp p s.dev) (ringN p) = true)
    (h0 : (ringOf (stageMirror sp p s.dev) (ringN p)).filled = 0) (hf : fetchable (placed sp p s) p = true) :
    packetRow sp eff p s = .next (settle s
      (if linkFailed (ringOf (placed sp p s) (ringN p)) then complete s.dev.cmd.nextId (refuse stCancelled 0) (fetched sp p s)
       else if p.opcode.toNat ≠ sp.opcode then complete s.dev.cmd.nextId (refuse stBadOpcode 0) (fetched sp p s)
       else startCmd sp (mirrored sp eff) s.dev.cmd.nextId p (fetched sp p s))) := by
  rw [packetRow_eq, runPacket, ← placed]
  simp only [ht, h0, hf, placed_nextId, Bool.not_true, Bool.false_eq_true, if_false, ne_eq, not_true_eq_false, or_self]
  rfl

/-- A packet that reaches its start is started. -/
theorem packetRow_reaches (h : reaches sp p s = true) : packetRow sp eff p s =
    .next (settle s (startCmd sp (mirrored sp eff) s.dev.cmd.nextId p (fetched sp p s))) := by
  simp only [reaches, Bool.and_eq_true, decide_eq_true_eq, Bool.not_eq_true'] at h
  obtain ⟨⟨⟨⟨ht, h0⟩, hf⟩, hlink⟩, hop⟩ := h
  rw [packetRow_fetched eff ht h0 hf, hlink, if_neg Bool.false_ne_true, if_neg (not_not.mpr hop)]

/-- The acceptance check that fails first decides the completion. -/
theorem packetRow_refused (h : reaches sp p s = true) {x : Res} (hx : accept sp p (fetched sp p s) = some x) :
    packetRow sp eff p s = .next (settle s (refuseStart sp.opcode s.dev.cmd.nextId x (fetched sp p s))) := by
  rw [packetRow_reaches eff h]
  simp only [startCmd, hx]

/-- An accepted packet with a launch time waits for it, where fewer than 1,024 wait. -/
theorem packetRow_waits (h : reaches sp p s = true) (hacc : accept sp p (fetched sp p s) = none)
    (hwait : waitsLaunch sp p = true) (hroom : waitingCount (fetched sp p s) < 1024) (hearly : sp.early = false) :
    packetRow sp eff p s =
      .next (settle s (setPhase s.dev.cmd.nextId .waiting (noteAccepted sp p (fetched sp p s)))) := by
  rw [packetRow_reaches eff h]
  simp only [startCmd, hacc, if_pos (of_decide_eq_true hwait), if_neg (Nat.not_le.mpr hroom), hearly, Bool.false_eq_true, if_false]

/-- The 1,025th to wait is refused. -/
theorem packetRow_no_wait (h : reaches sp p s = true) (hacc : accept sp p (fetched sp p s) = none)
    (hwait : waitsLaunch sp p = true) (hfull : 1024 ≤ waitingCount (fetched sp p s)) :
    packetRow sp eff p s =
      .next (settle s (refuseStart sp.opcode s.dev.cmd.nextId (refuse stBusy 0x03) (fetched sp p s))) := by
  rw [packetRow_reaches eff h]
  simp only [startCmd, hacc, if_pos (of_decide_eq_true hwait), if_pos hfull]

end Outcomes

/-- Settles O42: every command of a ring runs as a packet row, and each clause is one of its outcomes. -/
theorem packetOutcomes : Obligations.PacketOutcomes := by
  intro i sp p s hi
  obtain ⟨eff, hexec⟩ := exec_packetOf hi s
  rw [hexec]
  refine ⟨packetRow_no_room eff, fun ht => ⟨packetRow_held eff ht, fun h0 hf => ⟨fun hlink => ?_, fun hlink hop => ?_⟩⟩,
    fun x h hx => packetRow_refused eff h hx,
    fun h hacc hwait => ⟨fun hroom hearly => packetRow_waits eff h hacc hwait hroom hearly, fun hfull hop => ?_⟩⟩
  · rw [packetRow_fetched eff ht h0 hf, if_pos hlink]
    rfl
  · rw [packetRow_fetched eff ht h0 hf, hlink, if_neg Bool.false_ne_true, if_pos hop]
    rfl
  · rw [packetRow_no_wait eff h hacc hwait hfull, refuseStart, if_neg hop]
    rfl

end Sys2Proof.Machine


namespace Sys2Proof.Machine

/-!
PROOFS about the Granary and recorder commands (spec/19_granary_recorder.md).
-/

/-! ### GRN_FW_WRITE: acceptance reads the image, which stands outside the register mirror (R443) -/

theorem mirrorWords_outside {a n : Nat} (h : a + n ≤ 0x2000000000 ∨ 0x2002000000 ≤ a) : mirrorWords a n = [] := by
  have hout : n = 0 ∨ a + n ≤ 0x2000000000 ∨ 0x2002000000 ≤ a := .inr h
  simp only [mirrorWords, if_pos hout]

/-- A packet whose buffer lies outside the register mirror reads none of it when its effect begins. -/
theorem begun_outside {sp : OpSpec} {p : Pkt} (h : bufA p + bufL p ≤ 0x2000000000 ∨ 0x2002000000 ≤ bufA p) (s : State) :
    begun sp p s = noteAccepted sp p (fetched sp p s) := by
  unfold begun mirrored mirrorRead
  rw [mirrorWords_outside h]
  exact ite_self _

theorem rdBytes_noteAccepted (sp : OpSpec) (p : Pkt) (d : Dev) (a n : Nat) :
    rdBytes (noteAccepted sp p d) a n = rdBytes d a n :=
  rdBytes_congr (e := noteAccepted sp p d) (d := d) (SameMap.target_eq ⟨rfl, rfl, rfl, rfl, rfl, rfl, rfl, rfl⟩) rfl rfl a n

@[simp] theorem stageMirror_grn (sp : OpSpec) (p : Pkt) (d : Dev) : (stageMirror sp p d).grn = d.grn := by
  unfold stageMirror
  dsimp only
  split <;> rfl

@[simp] theorem fetch_grn (p : Pkt) (d : Dev) : (fetch p d).grn = d.grn := rfl

/-- Placing and fetching an entry leaves the Granary. -/
@[simp] theorem fetched_grn (sp : OpSpec) (p : Pkt) (s : State) : (fetched sp p s).grn = s.dev.grn := by
  rw [fetched, fetch_grn, placed, placeEntry, wrBytes_grn, modRing_grn, stageMirror_grn]

/-- The checks of GRN_FW_WRITE but those on its image and on a write in progress. -/
def fwChecks : OpSpec := { specGrnFwWrite with resources := fun _ _ => none }

theorem accept_fwWrite {p : Pkt} {d : Dev} (h : accept fwChecks p d = none) :
    accept specGrnFwWrite p d = specGrnFwWrite.resources p d := by
  unfold accept at h ⊢
  have hcheck : check3 specGrnFwWrite p d = check3 fwChecks p d := rfl
  have hmodes : modesOf specGrnFwWrite p = modesOf fwChecks p := rfl
  have hspec : specGrnFwWrite.opcode = fwChecks.opcode ∧ specGrnFwWrite.bufUse = fwChecks.bufUse ∧
      specGrnFwWrite.addrs = fwChecks.addrs ∧ specGrnFwWrite.object = fwChecks.object := ⟨rfl, rfl, rfl, rfl⟩
  obtain ⟨hop, hbuf, haddrs, hobj⟩ := hspec
  rw [hcheck, hmodes, hop, hbuf, haddrs, hobj]
  revert h
  repeat' split
  all_goals simp


/-- What comes before the resource checks does not read them. -/
theorem reaches_fwChecks (p : Pkt) (s : State) : reaches fwChecks p s = reaches specGrnFwWrite p s := rfl
theorem fetched_fwChecks (p : Pkt) (s : State) : fetched fwChecks p s = fetched specGrnFwWrite p s := rfl
theorem noteAccepted_fwChecks : noteAccepted fwChecks = noteAccepted specGrnFwWrite := rfl
theorem mirrored_fwChecks : mirrored fwChecks = mirrored specGrnFwWrite := rfl
theorem begun_fwChecks (p : Pkt) (s : State) : begun fwChecks p s = begun specGrnFwWrite p s := by
  rw [begun, begun, mirrored_fwChecks, noteAccepted_fwChecks, fetched_fwChecks]
theorem waitsLaunch_fwChecks (p : Pkt) : waitsLaunch fwChecks p = waitsLaunch specGrnFwWrite p := rfl

/-- The resource check of GRN_FW_WRITE with no write in progress is that of the image (R109). -/
theorem resources_fwWrite {p : Pkt} {d : Dev} (hbusy : d.grn.fwBusy = none) : specGrnFwWrite.resources p d =
    (fwFault d.sys.rollback (rdBytes d (bufA p) (bufL p))).map (refuse stSignature) := by
  simp only [specGrnFwWrite, hbusy, Option.isSome_none, resIf, Bool.false_eq_true, if_false]
  split <;> simp [*]

/-- GRN_FW_WRITE with no write in progress begins when the image passes the checks of R109, else it is refused. -/
theorem fwWrite_completes {p : Pkt} {s : State} (h : starts fwChecks p s = true) (hbusy : s.dev.grn.fwBusy = none)
    (hout : bufA p + bufL p ≤ 0x2000000000 ∨ 0x2002000000 ≤ bufA p) :
    let d := begun fwChecks p s
    let b := rdBytes d (bufA p) (bufL p)
    packetRow specGrnFwWrite effGrnFwWrite p s = .next (settle s
      (match fwFault d.sys.rollback b with
       | some n => complete s.dev.cmd.nextId (refuse stSignature n) (fetched fwChecks p s)
       | none => { d with grn.fwBusy := some (s.dev.cmd.nextId, param p 0, b) })) := by
  rw [begun_fwChecks, fetched_fwChecks]
  intro d b
  have hbegun : d = noteAccepted specGrnFwWrite p (fetched specGrnFwWrite p s) := begun_outside hout s
  have hb : b = rdBytes (fetched specGrnFwWrite p s) (bufA p) (bufL p) := by
    rw [← rdBytes_noteAccepted specGrnFwWrite p, ← hbegun]
  have hroll : d.sys.rollback = (fetched specGrnFwWrite p s).sys.rollback := by rw [hbegun, noteAccepted_sys]
  simp only [starts, Bool.and_eq_true, Option.isNone_iff_eq_none, reaches_fwChecks, fetched_fwChecks, waitsLaunch_fwChecks] at h
  obtain ⟨⟨hreach, hacc⟩, hlaunch⟩ := h
  have haccept : accept specGrnFwWrite p (fetched specGrnFwWrite p s) =
      (fwFault d.sys.rollback b).map (refuse stSignature) := by
    rw [hb, hroll, accept_fwWrite hacc]
    exact resources_fwWrite (by rw [fetched_grn]; exact hbusy)
  cases hf : fwFault d.sys.rollback b with
  | some n =>
    rw [hf, Option.map_some] at haccept
    rw [packetRow_refused effGrnFwWrite hreach haccept]
    rfl
  | none =>
    rw [hf, Option.map_none] at haccept
    have hstart : starts specGrnFwWrite p s = true := by
      simp only [starts, Bool.and_eq_true, Option.isNone_iff_eq_none]
      exact ⟨⟨hreach, haccept⟩, hlaunch⟩
    exact packetRow_starts specGrnFwWrite effGrnFwWrite p s hstart

theorem granaryRowsComplete : Rows.GranaryRowsComplete := by
  refine fun p s => ⟨packetRow_starts _ _ p s, packetRow_starts _ _ p s, fun h => ⟨fun hlo hhi => packetRow_eff h ?_,
    fun hlt hroom => packetRow_eff h ?_⟩, packetRow_starts _ _ p s, fun h hbusy hout => fwWrite_completes h hbusy hout⟩
  · have hread : bitAt (param p 0) 1 = true := by
      have hcases : param p 0 = 2 ∨ param p 0 = 3 := by omega
      rcases hcases with h | h <;> rw [h] <;> rfl
    simp only [effGrnSnapshot, hread, if_true]
    rfl
  · have hwrite : bitAt (param p 0) 1 = false := by
      have hcases : param p 0 = 0 ∨ param p 0 = 1 := by omega
      rcases hcases with h | h <;> rw [h] <;> rfl
    simp only [effGrnSnapshot, hwrite, Bool.false_eq_true, if_false, journal_takes hroom]
    rfl

/-! ### The recorder (R437–R441) -/

theorem evLose_grn (d : Dev) : (evLose d).grn = { d.grn with recDirty := true } := rfl

/-- Writing an event leaves the events that wait. -/
theorem evWrite_evq (e : EvReq) (d : Dev) : (evWrite e d).grn.evq = d.grn.evq := by
  unfold evWrite
  split
  · rfl
  · simp only [bump_grn, charge_grn]

/-- The event of a host's EVR_LOG. -/
def logEvent (id : Nat) (p : Pkt) (d : Dev) : EvReq :=
  ⟨0x0F, param p 0, if timeValid d then now d else 0,
    (List.range 7).flatMap (fun k => leBytes 4 (param p (k + 1))) ++ List.replicate 4 (0 : Byte), some id⟩

/-- The device at an event: class 11 notes the ceiling that pauses the recorder. -/
def atRecorder (d : Dev) : Dev := if recorderPaused d = true then meetCeil 11 d else d

theorem atRecorder_grn (d : Dev) : (atRecorder d).grn = d.grn := by
  unfold atRecorder
  split
  · exact meetCeil_grn 11 d
  · rfl

section EvrLog
variable {id : Nat} {p : Pkt} {d : Dev}

theorem effEvrLog_queued (hw : (recorderPaused d || clearing d || !d.grn.evq.isEmpty) = true) (hroom : d.grn.evq.length < 64) :
    effEvrLog id p d = { atRecorder d with grn.evq := (atRecorder d).grn.evq ++ [logEvent id p d] } := by
  have hrec : recordEvent 0x0F (param p 0)
      ((List.range 7).flatMap (fun k => leBytes 4 (param p (k + 1))) ++ List.replicate 4 (0 : Byte)) (some id) d =
      { atRecorder d with grn.evq := (atRecorder d).grn.evq ++ [logEvent id p d] } := by
    have hroom' : (atRecorder d).grn.evq.length < 64 := by rwa [atRecorder_grn]
    simp only [recordEvent, hw, if_true]
    exact if_pos hroom'
  simp only [effEvrLog, hrec, atRecorder_grn, List.length_append, List.length_singleton, Nat.lt_succ_self, if_true]

theorem effEvrLog_lost (hw : (recorderPaused d || clearing d || !d.grn.evq.isEmpty) = true) (hfull : 64 ≤ d.grn.evq.length) :
    effEvrLog id p d = complete id (ok 0xFFFFFFFF 0 0 0) (evLose (atRecorder d)) := by
  have hrec : recordEvent 0x0F (param p 0)
      ((List.range 7).flatMap (fun k => leBytes 4 (param p (k + 1))) ++ List.replicate 4 (0 : Byte)) (some id) d =
      evLose (atRecorder d) := by
    have hfull' : ¬(atRecorder d).grn.evq.length < 64 := by rw [atRecorder_grn]; omega
    simp only [recordEvent, hw, if_true]
    exact if_neg hfull'
  simp only [effEvrLog, hrec, evNumber, evLose_grn, atRecorder_grn, Nat.lt_irrefl, if_false]

theorem effEvrLog_written (hw : (recorderPaused d || clearing d || !d.grn.evq.isEmpty) = false) :
    effEvrLog id p d =
      complete id (ok (evNumber d (evWrite (logEvent id p d) d)) 0 0 0) (evWrite (logEvent id p d) d) := by
  have hrec : recordEvent 0x0F (param p 0)
      ((List.range 7).flatMap (fun k => leBytes 4 (param p (k + 1))) ++ List.replicate 4 (0 : Byte)) (some id) d =
      evWrite (logEvent id p d) d := by
    simp only [recordEvent, hw, Bool.false_eq_true, if_false, logEvent]
  simp only [effEvrLog, hrec, evWrite_evq, Nat.lt_irrefl, if_false]

end EvrLog

theorem recorderRowsComplete : Rows.RecorderRowsComplete :=
  fun p s => ⟨packetRow_starts _ _ p s, fun h => ⟨fun hw hroom => packetRow_eff h (effEvrLog_queued hw hroom),
    fun hw hfull => packetRow_eff h (effEvrLog_lost hw hfull), fun hw => packetRow_eff h (effEvrLog_written hw)⟩⟩

/-- A test that passes leaves the decision to those behind it. -/
theorem firstRes_none (l : List (Option Res)) : firstRes (none :: l) = firstRes l := rfl

/-- EVR_CLEAR past the checks of the order's form and of its key: the signature and the counts decide (R440). -/
theorem recorderClearCompletes : Rows.RecorderClearCompletes := by
  refine fun p s h hlen hmagic hver hzero hslot hroom => packetRow_eff h ?_
  have hlong : ¬bufL p < 0x44 := by omega
  simp only [effEvrClear, hmagic, hver, hzero, hslot, hlong, Nat.not_lt.mpr hlen, ne_eq, not_true_eq_false, decide_false,
    Bool.not_true, Bool.or_self, journal_takes hroom, resIf, Bool.false_eq_true, if_false, firstRes_none, Bool.not_eq_true',
    Bool.or_eq_true, decide_eq_true_eq, or_assoc]
  split_ifs <;> rfl

/-- Settles O13. -/
theorem storeRowsAllComplete : Obligations.StoreRowsAllComplete :=
  ⟨granaryRowsComplete, recorderRowsComplete, recorderClearCompletes⟩

end Sys2Proof.Machine


namespace Sys2Proof.Machine

/-!
PROOFS about the Silo's commands (spec/20_silo_security.md).
-/

/-- A Silo operation that its own tests let through: its work is charged. -/
theorem siloEff_done {slots : Pkt → List Nat} {f : Nat → Pkt → Dev → Res ⊕ Dev} {id : Nat} {p : Pkt} {d e : Dev}
    (h : f id p d = .inr e) : siloEff slots f id p d = siloCharge p e := by
  simp only [siloEff, h]

/-- A Silo operation that a test of its own refuses, for a reason other than a slot whose check fails. -/
theorem siloEff_refused {slots : Pkt → List Nat} {f : Nat → Pkt → Dev → Res ⊕ Dev} {id : Nat} {p : Pkt} {d : Dev} {x : Res}
    (h : f id p d = .inl x) (hx : ¬(x.status = stIntegrity ∧ x.detail = 1)) : siloEff slots f id p d = complete id x d := by
  simp only [siloEff, h, if_neg hx]

/-- A test that does not refuse. -/
theorem resIf_false (x : Res) : resIf false x = none := rfl

theorem firstRes_nil : firstRes [] = none := rfl

theorem resIf_not (b : Bool) (x : Res) : resIf (!b) x = if b then none else some x := by cases b <;> rfl

theorem keyRowsComplete : Rows.KeyRowsComplete := by
  refine fun p s => ⟨fun h hfree hok ht => packetRow_eff h (siloEff_done ?_),
    fun h hfree => ⟨fun hc hok ht hl => packetRow_eff h (siloEff_done ?_), fun hc hok h3 h4 hl hslot => packetRow_eff h ?_,
      fun hc hl hslot => packetRow_eff h ?_⟩,
    fun h hn hx hw => packetRow_eff h (siloEff_done ?_),
    fun h hk hst => ⟨fun hb => packetRow_eff h (siloEff_done ?_), fun hb => packetRow_eff h (siloEff_done ?_)⟩,
    fun h hfree hok ht hslot => packetRow_eff h (siloEff_done ?_)⟩
  · simp only [hfree, hok, ht, Bool.not_true, decide_false, Bool.or_self, Bool.false_eq_true, if_false]
  · simp [hfree, hok, ht, hc, hl, firstRes, resIf]
  · cases hun : kwUnwrap (keyBytes (slotOf (begun specSecImport p s) (bits (param p 0) 15 8)))
        (rdBytes (begun specSecImport p s) (bufA p) (bufL p)) with
    | none =>
      rw [hl] at hun
      refine siloEff_refused ?_ (x := refuse stSignature 0x11) (by decide)
      simp [hfree, hok, h3, h4, hc, hl, hslot, hun, firstRes, resIf]
    | some k =>
      rw [hl] at hun
      refine siloEff_done ?_
      simp [hfree, hok, h3, h4, hc, hl, hslot, hun, firstRes, resIf]
  · cases hun : kwUnwrap (keyBytes (slotOf (begun specSecImport p s) (bits (param p 0) 15 8)))
        (rdBytes (begun specSecImport p s) (bufA p) (bufL p)) with
    | none =>
      rw [hl] at hun
      refine siloEff_refused ?_ (x := refuse stSignature 0x11) (by decide)
      simp [hfree, hc, hl, hslot, hun, firstRes, resIf]
    | some k =>
      rw [hl] at hun
      dsimp only
      split
      next hok =>
        refine siloEff_done ?_
        simp [hfree, hc, hl, hslot, hun, firstRes, resIf, hok]
      next hok =>
        refine siloEff_refused ?_ (x := refuse stIntegrity 0x02) (by decide)
        simp [hfree, hc, hl, hslot, hun, firstRes, resIf, hok]
  · simp only [resIf_not, stNotPermitted, hx, hw, firstRes_none, firstRes_nil, resIf_false, decide_eq_false (Nat.not_lt.mpr hn)]
  · simp [Nat.not_lt.mpr hk, hst, hb]
  · simp [Nat.not_lt.mpr hk, hst, hb, deleteSlot]
  · simp [hfree, hok, Nat.not_lt.mpr ht, hslot, firstRes, resIf]

/-- Settles O14. -/
theorem keyRowsAllComplete : Obligations.KeyRowsAllComplete := keyRowsComplete

/-- A cipher operation past its checks runs. -/
theorem effSecCipher_run {id : Nat} {p : Pkt} {d : Dev} (h : cipherRefusal p d = none) :
    effSecCipher id p d = siloCharge p (cipherRun id p d) :=
  siloEff_done (by rw [h])

theorem cipherCompletes : Rows.CipherCompletes := by
  refine fun p s h hok => ?_
  have hrun {e : Dev} (he : cipherRun s.dev.cmd.nextId p (begun specSecCipher p s) = e) :
      exec (.secCipher p) s = .next (settle s (siloCharge p e)) :=
    packetRow_eff h ((effSecCipher_run hok).trans (congrArg (siloCharge p) he))
  refine ⟨fun hop hiv => hrun ?_, fun hop hiv => hrun ?_, fun hop => hrun ?_, fun hop => hrun ?_, fun hop => hrun ?_,
    fun hop => hrun ?_, fun hop => hrun ?_, fun hop => hrun ?_⟩
  · simp only [cipherRun, hop, hiv, cipherSeal, Bool.false_eq_true, if_false, OfNat.zero_ne_ofNat]
  · simp only [cipherRun, hop, hiv, cipherSeal, if_true, OfNat.zero_ne_ofNat, if_false]
  · simp only [cipherRun, hop, cipherOpen, OfNat.one_ne_ofNat, if_false]
    rfl
  · simp only [cipherRun, hop, cipherTag, Nat.reduceEqDiff, if_false]
  · simp only [cipherRun, hop, cipherVerdict, Nat.reduceEqDiff, if_false, beq_iff_eq]
    rfl
  · simp only [cipherRun, hop, cipherTag, Nat.reduceEqDiff, if_false]
  · simp only [cipherRun, hop, cipherVerdict, Nat.reduceEqDiff, if_false, beq_iff_eq]
    rfl
  · simp only [cipherRun, hop, cipherTag, if_true]

theorem signatureRowsComplete : Rows.SignatureRowsComplete := by
  refine fun p s => ⟨fun h h32 hlen hslot hroom => packetRow_eff h (siloEff_done ?_), fun h hlen hslot => packetRow_eff h (siloEff_done ?_),
    fun h hslot hroom => packetRow_eff h (siloEff_done ?_), fun h hslot => packetRow_eff h (siloEff_done ?_),
    fun h => packetRow_eff h rfl⟩
  · simp [firstRes, resIf, hslot, signFull, Nat.not_lt.mpr h32, Nat.not_lt.mpr hlen, Nat.not_le.mpr hroom]
  · have h36 : 36 ≤ bufL p := by omega
    simp [firstRes, resIf, hslot, Nat.not_lt.mpr h36, Nat.not_lt.mpr hlen]
    rfl
  · simp [firstRes, resIf, hslot, signFull, Nat.not_le.mpr hroom]
  · simp only [hslot]

/-- Settles O15. -/
theorem cryptographyRowsAllComplete : Obligations.CryptographyRowsAllComplete := ⟨cipherCompletes, signatureRowsComplete⟩

end Sys2Proof.Machine


namespace Sys2Proof.Machine

/-!
PROOFS about the panel, clock and health commands (spec/21_pavilion_display.md, 22_rtc_health.md).
-/

/-- PAV_STRESS_PRESET whose record the journal takes waits for its commit (R474). -/
theorem effPavStressPreset_takes {id : Nat} {p : Pkt} {d : Dev} (h : journalTakes d 11 stressLen) :
    effPavStressPreset id p d =
      { d with
        pav.presets := d.pav.presets ++ [(id, param p 0, presetVals p d)]
        grn.queue := d.grn.queue ++
          [⟨11, 0, stressItem ((List.range (presetVals p d).length).foldl
              (fun m i => smSet 0 m (param p 0 + i) ((presetVals p d).getD i 0)) d.pav.stress),
            stressLen, some ⟨id, stOk, 0, 0, 0, 0⟩, false, none⟩] } :=
  journal_takes (d := { d with pav.presets := d.pav.presets ++ [(id, param p 0, presetVals p d)] }) h ..

theorem panelRowsComplete : Rows.PanelRowsComplete := by
  refine fun p s => ⟨fun h => ⟨fun hflip => packetRow_eff h ?_, fun hflip => packetRow_eff h ?_⟩, packetRow_starts _ _ p s,
    packetRow_starts _ _ p s, fun h hroom => packetRow_eff h ?_⟩
  · simp only [effPavDraw, hflip, if_true]
  · simp only [effPavDraw, hflip, Option.isSome_none, Bool.false_eq_true, if_false, drawNow]
  · exact effPavStressPreset_takes hroom

theorem clockRowsComplete : Rows.ClockRowsComplete := by
  refine fun p s => ⟨fun h => ⟨fun hbit => packetRow_eff h ?_, fun hbit => packetRow_eff h ?_⟩, fun h => packetRow_eff h ?_,
    fun h => packetRow_eff h ?_, fun h => packetRow_eff h ?_⟩
  · simp only [effRtcSet, bitAt_zero, hbit, decide_true, if_true]
  · simp only [effRtcSet, bitAt_zero, hbit, zero_ne_one, decide_false, Bool.false_eq_true, if_false, rtcApply]
  · simp only [effRtcAlarm, immediate]
  · simp only [effRtcUnlock, immediate]
  · simp only [effRtcTrim, immediate]

theorem healthRowsComplete : Rows.HealthRowsComplete := by
  refine fun p s => ⟨packetRow_starts _ _ p s, fun h => ⟨fun hvbat => packetRow_eff h ?_, fun hvbat hidle => packetRow_eff h ?_⟩⟩
  · simp only [effHltBatTest, hvbat, if_true]
  · simp only [effHltBatTest, hvbat, hidle, startTest, Option.isSome_none, Bool.false_eq_true, or_self, if_false]

/-- Settles O16. -/
theorem panelClockHealthRowsComplete : Obligations.PanelClockHealthRowsComplete :=
  ⟨panelRowsComplete, clockRowsComplete, healthRowsComplete⟩

end Sys2Proof.Machine


namespace Sys2Proof.Machine

/-!
PROOFS about the host's accesses: doorbells, registers, the window and the SPI port (spec/02_command_interface.md,
03_registers.md). A row of the main domain runs one function of the device; each case of that function is a lemma here.
-/

/-- A row of the main domain settles what its function makes of a device that can be reached. -/
theorem upRow_eq {f : Dev → Dev} {s : State} {d : Dev} (h : reachable s.dev = true) (he : f s.dev = d) :
    upRow f s = .next (settle s d) :=
  he ▸ upRow_up h

/-- A row of the device settles what its function makes of it. -/
theorem devRow_eq {f : Dev → Dev} {s : State} {d : Dev} (he : f s.dev = d) : devRow f s = .next (settle s d) :=
  he ▸ rfl

/-! ### Doorbells (R45, R46) -/

theorem sqTailWrite_taken {n w : Nat} {d : Dev} (h : (ringOf d n).st = .active) (hv : w % 4096 < (ringOf d n).depth)
    (hroom : ((ringOf d n).sqTail + (ringOf d n).depth - (ringOf d n).sqHead) % (ringOf d n).depth +
      (w % 4096 + (ringOf d n).depth - (ringOf d n).sqTail) % (ringOf d n).depth < (ringOf d n).depth) :
    sqTailWrite n w d = modRing n (fun r => { r with sqTail := w % 4096 }) (writeRk (Reg.ringSqTail n) w d) := by
  simp only [sqTailWrite, bits_doorbell, h, ne_eq, not_true_eq_false, if_false, Nat.not_le.mpr hv, Nat.not_le.mpr hroom, or_self]

theorem cqHeadWrite_taken {n w : Nat} {d : Dev} (h : (ringOf d n).st = .active) (hv : w % 4096 < (ringOf d n).depth)
    (hheld : (w % 4096 + (ringOf d n).depth - (ringOf d n).cqHead) % (ringOf d n).depth ≤
      ((ringOf d n).cqTail + (ringOf d n).depth - (ringOf d n).cqHead) % (ringOf d n).depth) :
    cqHeadWrite n w d = flushKept n (ringOf d n).kept.length
      (modRing n (fun r => { r with cqHead := w % 4096 }) (writeRk (Reg.ringCqHead n) w d)) := by
  simp only [cqHeadWrite, bits_doorbell, h, ne_eq, not_true_eq_false, if_false, Nat.not_le.mpr hv, Nat.not_lt.mpr hheld, or_self]

/-- Settles O17. -/
theorem doorbellRowsAllComplete : Obligations.DoorbellRowsAllComplete :=
  fun _ _ _ hup hst hv =>
    ⟨fun hroom => upRow_eq hup (sqTailWrite_taken hst hv hroom), fun hheld => upRow_eq hup (cqHeadWrite_taken hst hv hheld)⟩

/-! ### Registers (R81–R83, R86, R90, R92) -/

theorem strobeRowsComplete : Rows.StrobeRowsComplete :=
  fun _ hup => ⟨upRow_up hup, upRow_up hup, upRow_up hup, upRow_up hup, upRow_up hup⟩

theorem baseAddressRowsComplete : Rows.BaseAddressRowsComplete :=
  fun w s hup => ⟨upRow_up hup,
    fun hfree => upRow_eq hup (by simp only [hostBaseWrite, hfree, Bool.false_eq_true, if_false]),
    fun hbusy => upRow_eq hup (by simp only [hostBaseWrite, hbusy, if_true])⟩

section RegularAccess
variable {o : Nat} {d : Dev} (h4 : o % 4 = 0) (htable : isMsixTable o = false) (hpba : isMsixPba o = false)
  (hlow : o % 0x10000 < 0x8000) (himpl : offsetImplemented o = true)
include h4 htable hpba hlow himpl

theorem regRead_regular : regRead o d = (regWord d o, latchRead o (clearRead o d)) := by
  simp only [regRead, h4, htable, hpba, himpl, Nat.not_le.mpr hlow, ne_eq, not_true_eq_false, if_false, Bool.or_self,
    Bool.false_eq_true, Bool.not_true]

theorem hostRead_regular : hostRead o d =
    { latchRead o (clearRead o d) with cmd.lastRead := leBytes 4 (regWord d o) } := by
  simp only [hostRead, regRead_regular h4 htable hpba hlow himpl]

theorem regWrite_regular (w : Word) : regWrite o w.toNat d = regStore o w.toNat d := by
  simp only [regWrite, h4, htable, hpba, himpl, Nat.not_le.mpr hlow, ne_eq, not_true_eq_false, if_false, Bool.false_eq_true,
    Bool.not_true, or_self, Nat.mod_eq_of_lt w.isLt]

end RegularAccess

theorem registerAccessRowsComplete : Rows.RegisterAccessRowsComplete :=
  fun _ w _ hup h4 htable hpba hlow himpl =>
    ⟨upRow_eq hup (hostRead_regular h4 htable hpba hlow himpl), upRow_eq hup (hostRead_regular h4 htable hpba hlow himpl),
      upRow_eq hup (regWrite_regular h4 htable hpba hlow himpl w),
      fun hpost => upRow_eq hup ((if_neg hpost).trans (regWrite_regular h4 htable hpba hlow himpl w))⟩

/-- An access of the wrong width or alignment. -/
theorem irregular_shape {o : Nat} {narrow write : Bool} {d : Dev} (h : narrow = true ∨ o % 4 ≠ 0) :
    irregular o narrow write d =
      { badAccess d with cmd.lastRead := if write then d.cmd.lastRead else [0xFF, 0xFF, 0xFF, 0xFF] } := by
  have hshape : (narrow || decide (o % 4 ≠ 0)) = true := by simpa using h
  simp only [irregular, hshape, if_true]
  rfl

/-- An access to an offset that is no register. -/
theorem irregular_unimplemented {o : Nat} {write : Bool} {d : Dev} (h4 : o % 4 = 0) (htable : isMsixTable o = false)
    (hpba : isMsixPba o = false) (hlow : o % 0x10000 < 0x8000) (himpl : offsetImplemented o = false) :
    irregular o false write d = { badAccess d with cmd.lastRead := if write then d.cmd.lastRead else [0, 0, 0, 0] } := by
  simp only [irregular, h4, htable, hpba, himpl, Nat.not_le.mpr hlow, ne_eq, not_true_eq_false, decide_false, Bool.or_self,
    Bool.false_eq_true, if_false, Bool.not_false, Bool.and_self, Bool.true_or, if_true]
  rfl

/-- A write to the peeked copy of a register. -/
theorem irregular_alias {o : Nat} {d : Dev} (h4 : o % 4 = 0) (htable : isMsixTable o = false) (hpba : isMsixPba o = false)
    (hhigh : 0x8000 ≤ o % 0x10000) : irregular o false true d = badAccess d := by
  simp only [irregular, h4, htable, hpba, hhigh, ne_eq, not_true_eq_false, decide_false, Bool.or_self,
    Bool.false_eq_true, if_false, Bool.not_false, Bool.and_self, decide_true, Bool.or_true, if_true]
  rfl

theorem irregularAccessCompletes : Rows.IrregularAccessCompletes := by
  refine fun o narrow write s hup => ⟨fun hshape => upRow_eq hup (irregular_shape hshape), ?_, ?_⟩
  · rintro rfl h4 htable hpba hlow himpl
    exact upRow_eq hup (irregular_unimplemented h4 htable hpba hlow himpl)
  · rintro rfl rfl h4 htable hpba hhigh
    exact upRow_eq hup (irregular_alias h4 htable hpba hhigh)

/-- Settles O18. -/
theorem accessRowsAllComplete : Obligations.AccessRowsAllComplete :=
  ⟨strobeRowsComplete, baseAddressRowsComplete, registerAccessRowsComplete, irregularAccessCompletes⟩

/-! ### Posted writes and the clock's commits (R88, R477–R483) -/

theorem postLands_of_posted {b o : Nat} {w : Word} {d : Dev} (h : posted d b = some (o, w)) :
    postLands b d =
      (let e := setL o (mergeBits (regL d o) w.toNat (postMask o)) (unpost b d)
       if o = Reg.rtcCommit then rtcCommit w.toNat e else if o = Reg.rtcUnlock then unlockKey w.toNat e else e) := by
  simp only [postLands, landWrite, h]

theorem rtcLands_of_posted {mask : Nat} {w : Word} {d : Dev} (h : posted d 0 = some (Reg.rtcCommit, w)) (hm : w.toNat &&& mask ≠ 0) :
    rtcLands Reg.rtcCommit mask d =
      rtcCommit w.toNat (setL Reg.rtcCommit (mergeBits (regL d Reg.rtcCommit) w.toNat (postMask Reg.rtcCommit)) (unpost 0 d)) := by
  simp only [rtcLands, h, hm, ne_eq, not_false_eq_true, and_self, if_true, postLands_of_posted h]

theorem keyLands_of_posted {w : Word} {d : Dev} (h : posted d 0 = some (Reg.rtcUnlock, w)) :
    keyLands d =
      unlockKey w.toNat (setL Reg.rtcUnlock (mergeBits (regL d Reg.rtcUnlock) w.toNat (postMask Reg.rtcUnlock)) (unpost 0 d)) := by
  simp only [keyLands, h, if_true, postLands_of_posted h]
  exact if_neg (by decide)

theorem postedRowsComplete : Rows.PostedRowsComplete :=
  fun _ _ _ _ => ⟨fun h => devRow_eq (postLands_of_posted h),
    fun h => ⟨fun hm => devRow_eq (rtcLands_of_posted h hm), fun hm => devRow_eq (rtcLands_of_posted h hm),
      fun hm => devRow_eq (rtcLands_of_posted h hm)⟩,
    fun h => devRow_eq (keyLands_of_posted h)⟩

/-! ### CAN registers (R392–R394, R398) -/

theorem canRegisterRowsComplete : Rows.CanRegisterRowsComplete := by
  refine fun n m k mask w s hup => ⟨upRow_up hup, fun hlock => upRow_eq hup ?_, fun hlock hsh => upRow_eq hup ?_,
    fun f hlock hsh => upRow_eq hup ?_, fun f l hfifo => upRow_eq hup ?_, fun hmask hmode hst => upRow_eq hup ?_,
    upRow_up hup, fun hstat => upRow_eq hup ?_⟩
  · simp only [canRelease, hlock, Bool.not_false, if_true]
  · simp only [canRelease, hlock, hsh, Bool.not_true, Bool.false_eq_true, if_false]
  · simp only [canRelease, hlock, hsh, Bool.not_true, Bool.false_eq_true, if_false]
  · simp only [canPop, hfifo, List.isEmpty_cons, Bool.false_eq_true, if_false, List.drop_one, List.tail_cons]
  · simp only [canTxreq, hmask, hst, Nat.not_lt.mpr hmode, or_self, if_false]
  · simp only [canBoffWrite, canRecover, hstat, if_true]

/-- Settles O19. -/
theorem postedAndCanRegisterRowsComplete : Obligations.PostedAndCanRegisterRowsComplete :=
  ⟨postedRowsComplete, canRegisterRowsComplete⟩

/-! ### Pins, the window, the SPI port, ring events (R30, R40, R41, R49, R59–R61, R76–R79, R329, R347, R352) -/

theorem bar2Take_free {q : Bar2Req} {d : Dev} (h : classStops d 15 = false ∧ d.cmd.bar2 = []) : bar2Take q d = bar2Do q d := by
  obtain ⟨hclass, hnone⟩ := h
  simp only [bar2Take, hclass, hnone, List.isEmpty_nil, Bool.not_true, Bool.or_self, Bool.false_eq_true, if_false]

theorem bar2Take_held {q : Bar2Req} {d : Dev} (h : ¬(classStops d 15 = false ∧ d.cmd.bar2 = [])) :
    bar2Take q d = meetCeil 15 { d with cmd.bar2 := d.cmd.bar2 ++ [q] } := by
  refine if_pos ?_
  by_contra hno
  exact h (by simpa using hno)

theorem pinAndWindowRowsComplete : Rows.PinAndWindowRowsComplete := by
  refine fun s hup => ⟨fun mask => upRow_up hup, fun n w => upRow_eq hup ?_,
    fun k w => ⟨fun hrun => upRow_eq hup (if_pos hrun), fun hrun => upRow_eq hup (if_neg hrun)⟩,
    fun x len data => ⟨fun hreach => ⟨fun hfree => upRow_eq hup ?_, fun hheld => upRow_eq hup ?_⟩,
      fun hreach => ⟨fun hfree => upRow_eq hup ?_, fun hheld => upRow_eq hup ?_⟩⟩⟩
  · simp only [armAlarm, Nat.shiftLeft_eq, Nat.mul_comm]
  · simp only [bar2Access, Bool.false_eq_true, if_false, bar2Read, hreach, if_true, bar2Take_free hfree, bar2Do]
  · simp only [bar2Access, Bool.false_eq_true, if_false, bar2Read, hreach, if_true, bar2Take_held hheld]
  · simp only [bar2Access, if_true, bar2Write, hreach, bar2Take_free hfree, bar2Do]
  · simp only [bar2Access, if_true, bar2Write, hreach, bar2Take_held hheld]

theorem mul_b2n (k : Nat) (b : Bool) : k * b2n b = if b then k else 0 := by cases b <;> simp [b2n]

theorem spiStatus_counted (d : Dev) : spiStatus d = bump 0 6 1
    { d with cmd.lastRead := [u8 ((if d.cmd.spiBusy then 1 else 0) + (if d.cmd.spiErr then 2 else 0) + (if irq d then 4 else 0))],
             cmd.spiErr := false } := by
  simp only [spiStatus, spiCount, mul_b2n, Bool.false_eq_true, if_false]
  rfl

theorem spiRowsComplete : Rows.SpiRowsComplete := by
  refine fun s hup => ⟨fun a data hidle hmin hmax h4 hreach => upRow_eq hup ?_, fun a n hreach => upRow_eq hup ?_,
    upRow_eq hup ?_, upRow_up hup, fun a data _ => upRow_up hup⟩
  · simp only [spiWrite, hidle, Nat.not_lt.mpr hmin, Nat.not_lt.mpr hmax, h4, hreach, Bool.false_eq_true, ne_eq,
      not_true_eq_false, or_self, if_false, spiCount]
  · simp only [spiRead, hreach, spiCount, Bool.false_eq_true, if_false]
  · exact spiStatus_counted s.dev

theorem interfaceEventRowsComplete : Rows.InterfaceEventRowsComplete := by
  refine fun s => ⟨fun hup => ⟨upRow_eq hup ?_, fun n hst => ⟨upRow_eq hup ?_, fun hfetch => upRow_eq hup ?_⟩,
    fun n t hdue hlast => upRow_eq hup ?_⟩, fun c hc => devRow_eq ?_⟩
  · simp only [functionReset, Bool.not_eq_true']
  · simp only [transferFailure, hst, if_false, if_true, modRing]
  · simp only [transferFailure, hst, hfetch, if_false, if_true, Bool.false_eq_true, ringFails]
  · simp only [moderationExpiry, hdue, hlast, Bool.not_true, Bool.false_eq_true, if_false, Option.getD_some, modRing]
  · simp only [timedStart, hc]

/-- Settles O20. -/
theorem interfaceRowsAllComplete : Obligations.InterfaceRowsAllComplete :=
  ⟨pinAndWindowRowsComplete, spiRowsComplete, interfaceEventRowsComplete⟩

end Sys2Proof.Machine


namespace Sys2Proof.Machine

/-!
PROOFS about supply, reset, the frame boundary, the guard, the pace rows and the phases of a run (spec/03_registers.md,
04_modes_boot_recovery.md, 07_thresher_fabric.md, 08_placement.md, 11_run_ahead.md).
-/

/-! ### Supply and reset (R17, R98–R108, R433) -/

theorem internalReset_up {d : Dev} (hmode : d.sys.mode ≠ .backup) (hlow : d.sys.resetLow = false) (cause : Nat) (e : BootEnv) :
    internalReset cause e d = boot e (resetDev cause false d) := by
  simp only [internalReset, hmode, hlow, Bool.false_eq_true, or_self, if_false]

theorem powerRowsAct : Rows.PowerRowsComplete := by
  refine fun e s => ⟨fun hmode => devRow_eq ?_, fun hmode => devRow_eq ?_, fun hlow hmode => devRow_eq ?_,
    fun hlow hmode => devRow_eq ?_,
    fun hmode hlow => ⟨devRow_eq (internalReset_up hmode hlow ..), devRow_eq (internalReset_up hmode hlow ..)⟩⟩
  · simp only [powerOn, hmode, ne_eq, not_true_eq_false, if_false]
  · simp only [supplyLoss, hmode, if_false]
  · simp only [resetAssert, hlow, hmode, Bool.false_eq_true, if_false]
  · simp only [resetRelease, hlow, hmode, Bool.not_true, Bool.false_eq_true, if_false]

theorem supplyEventRowsComplete : Rows.SupplyEventRowsComplete := by
  refine fun e s hmode hlow => ⟨fun hpf => devRow_eq ?_, fun hpf => devRow_eq ?_, fun href => devRow_eq ?_, fun href => devRow_eq ?_⟩
  · simp only [pfailLatch, hmode, hlow, hpf, Bool.false_eq_true, or_self, if_false]
  · simp only [pfailRelease, hmode, hlow, hpf, Bool.not_true, Bool.false_eq_true, or_self, if_false]
  · simp only [referenceLoss, hmode, hlow, href, Bool.not_true, Bool.false_eq_true, or_self, if_false]
  · simp only [referenceRelock, hmode, hlow, href, Bool.false_eq_true, or_self, if_false]

/-- Settles O21. -/
theorem powerRowsAllComplete : Obligations.PowerRowsAllComplete := ⟨powerRowsAct, supplyEventRowsComplete⟩

/-! ### The frame boundary (R22, R95, R96, R158) -/

/-- Settles O22: a unit that holds its lease does the boundary's work, one that does not resets (R414). -/
theorem frameBoundaryRowCompletes : Obligations.FrameBoundaryRowCompletes := by
  refine fun levels peer e s hseq => ⟨fun hlease => devRow_eq ?_, fun hlease => devRow_eq ?_⟩
  · simp only [frameBoundary, hseq, hlease, Bool.not_true, Bool.false_eq_true, if_false, boundaryWork]
  · simp only [frameBoundary, hseq, hlease, Bool.not_true, Bool.not_false, Bool.false_eq_true, if_false, if_true]

/-! ### The guard and the pace rows (R89, R91, R174–R181) -/

theorem guardPassCompletes : Rows.GuardPassCompletes := by
  refine fun olds s hmode => ⟨fun hcap => devRow_eq ?_, fun hcap harm href hdiff => devRow_eq ?_, fun hcap hmatch => devRow_eq ?_⟩
  · simp only [guardPass, Nat.not_lt.mpr hmode, if_false]
    exact if_pos hcap
  · simp only [guardPass, Nat.not_lt.mpr hmode, if_false]
    exact (if_neg hcap).trans (if_pos ⟨harm, href, hdiff⟩)
  · simp only [guardPass, Nat.not_lt.mpr hmode, if_false]
    exact (if_neg hcap).trans (if_neg hmatch)

theorem ite_or_not {α : Type} (a b : Bool) (x y : α) : (if a || !b then x else y) = if a = false ∧ b = true then y else x := by
  cases a <;> cases b <;> rfl

theorem paceRowsComplete : Rows.PaceRowsComplete := by
  refine fun raw s => ⟨devRow_eq ?_, fun w hw => ⟨devRow_eq ?_, fun htries => devRow_eq ?_, fun htries => devRow_eq ?_⟩,
    fun hidle => ⟨devRow_eq ?_, fun htries => devRow_eq ?_, fun htries => devRow_eq ?_⟩, fun t ht => devRow_eq ?_,
    fun t ht hgov havs herr => devRow_eq ?_⟩
  · simp only [paceEnd, Bool.not_eq_true']
  · simp only [avsResponse, hw, if_true]
    exact ite_or_not ..
  · have h3 : w.tries + 1 < 3 := by omega
    simp only [avsResponse, hw, h3, if_true, Bool.false_eq_true, if_false]
  · have h3 : ¬w.tries + 1 < 3 := by omega
    simp only [avsResponse, hw, h3, Bool.false_eq_true, if_false]
  · simp only [avsResponse, hidle, if_true]
  · have h3 : s.dev.thr.readTries + 1 < 3 := by omega
    simp only [avsResponse, hidle, h3, if_true, Bool.false_eq_true, if_false]
  · have h3 : ¬s.dev.thr.readTries + 1 < 3 := by omega
    simp only [avsResponse, hidle, h3, Bool.false_eq_true, if_false]
  · simp only [governorRepeat, ht]
  · simp only [governorLower, ht, hgov, havs, herr, Bool.not_true, Option.isSome_none, Bool.false_eq_true, Bool.or_self, if_false]

/-- Settles O24. -/
theorem guardAndPaceRowsComplete : Obligations.GuardAndPaceRowsComplete := ⟨guardPassCompletes, paceRowsComplete⟩

/-! ### Placement events and the phases of a run (R183, R203–R208, R226–R228, R245, R252–R254, R271) -/

theorem placementEventRowsComplete : Rows.PlacementEventRowsComplete := by
  refine fun s => ⟨fun hpend hidle hat_ => ⟨fun id hid => devRow_eq ?_, fun hnone => devRow_eq ?_⟩,
    fun id unit r q sh hr hq hsh => devRow_eq ?_, fun cmd x c pl hx hc hfirst hslice hpl hentry => devRow_eq ?_⟩
  · simp only [rePlacement, hpend, hidle, hat_, hid, Bool.not_true, Bool.false_eq_true, ne_eq, not_true_eq_false, or_self, if_false]
  · simp only [rePlacement, hpend, hidle, hat_, hnone, Bool.not_true, Bool.false_eq_true, ne_eq, not_true_eq_false, or_self, if_false]
  · simp only [shareRerun, hr, hq, hsh]
  · have hgo : (!x.firm && earlierResolve s.dev x || !slicesRun s.dev 5) = false := by
      rcases hfirst with h | h <;> simp [h, hslice]
    simp only [reSolveStart, hx, hc, hgo, hpl, Nat.not_le.mpr hentry, Bool.false_eq_true, if_false]

/-- The device on which a run that would start finds its estimate: a warm start has read it through the register mirror (R245). -/
def warmed (id : Nat) (r : Run) (d : Dev) : Dev :=
  match lsqOf d id with
  | some q => if canStart d r && bitAt q.lflags 0 then
      engineReads (mirrorWords (q.buf + q.warmOfs) (64 + 8 * (varList (modelOf d r.gen).objs).length)) d
    else d
  | none => d

theorem runStart_of_run {id : Nat} {r : Run} {d : Dev} (h : findRun d id = some r) :
    runStart id d = fabricRunStart id (warmed id r d) := by
  simp only [runStart, warmed, h]
  cases lsqOf d id <;> rfl

theorem fabricRunStart_unplaced {id : Nat} {r : Run} {d : Dev} (h : findRun d id = some r) (hcan : canStart d r = true)
    (hun : unplacedSlot d r.slot = true) : fabricRunStart id d = unplacedRun r d := by
  simp only [fabricRunStart, h, hcan, hun, Bool.not_true, Bool.false_eq_true, if_false, if_true]

theorem fabricRunStart_placed {id : Nat} {r r1 : Run} {d : Dev} (h : findRun d id = some r) (hcan : canStart d r = true)
    (hun : unplacedSlot d r.slot = false) (h1 : findRun (startRun r d) id = some r1) :
    fabricRunStart id d = if r1.kind = .lsq then lsqStart r1 (startRun r d) else startRun r d := by
  simp only [fabricRunStart, h, hcan, hun, h1, Bool.not_true, Bool.false_eq_true, if_false]

theorem runEventRowsComplete : Rows.RunEventRowsComplete := by
  refine fun id r s hr => ⟨fun r0 hr0 hcan => ⟨fun hun => devRow_eq ?_, fun hun r1 hr1 => devRow_eq ?_⟩, fun q hdl hq => devRow_eq ?_⟩
  · exact (runStart_of_run hr).trans (fabricRunStart_unplaced hr0 hcan hun)
  · exact (runStart_of_run hr).trans (fabricRunStart_placed hr0 hcan hun hr1)
  · simp only [deadlineReached, hr, hdl, if_false, hq]

theorem statusPhaseRowsComplete : Rows.StatusPhaseRowsComplete := by
  refine fun id r s hr hphase hclass => ⟨fun q hq hkind hshares => devRow_eq ?_, fun q hq hkind => devRow_eq ?_⟩
  · simp only [sheafStatusPhase, hr, hq, hkind, hphase, hshares, hclass, List.isEmpty_nil, Bool.not_true, Bool.false_eq_true, ne_eq,
      not_true_eq_false, or_self, if_false]
  · simp only [lsqStatusPhase, hr, hq, hkind, hphase, ne_eq, not_true_eq_false, or_self, if_false]
    exact if_neg (ne_true_of_eq_false hclass)

/-- Settles O23. -/
theorem runEventRowsAllComplete : Obligations.RunEventRowsAllComplete :=
  ⟨placementEventRowsComplete, runEventRowsComplete, statusPhaseRowsComplete⟩

end Sys2Proof.Machine


namespace Sys2Proof.Machine

/-!
PROOFS about the records of a plan (spec/06_plans_static_schedule.md, 07_thresher_fabric.md, 09_sheaf_solvers.md,
10_least_squares.md, 11_run_ahead.md). A record that is ready runs its kernel's body on the device that has paid for it, and control
moves on (`runRecord_ready`); every kernel row is that with its own body.
-/

/-- A run that is replaced is found as replaced. -/
theorem findRun_setRun {d : Dev} {id : Nat} {r q : Run} (h : findRun d id = some r) (hq : q.id = r.id) :
    findRun (setRun q d) id = some q := by
  have hid : r.id = id := by simpa using List.find?_some h
  have hsame : ((fun x : Run => decide (x.id = id)) ∘ fun x => if x.id = q.id then q else x) = fun x => decide (x.id = id) := by
    funext x
    by_cases hx : x.id = q.id <;> simp [hx]
  simp only [findRun, setRun, List.find?_map, hsame]
  rw [show d.pln.runs.find? (fun x => decide (x.id = id)) = some r from h]
  simp [hq]

theorem findRun_charge (c : Nat) (x : Currency) (n : Nat) (d : Dev) (id : Nat) : findRun (charge c x n d) id = findRun d id := by
  simp only [findRun, charge_pln_runs]

/-- The run that paid for its record is the one found after it. -/
theorem findRun_paidDev {d : Dev} {id : Nat} {r : Run} (h : findRun d id = some r) : findRun (paidDev d r) id = some (paidRun d r) := by
  rw [paidDev, findRun_charge, findRun_charge]
  exact findRun_setRun h rfl

/-- A record that is ready runs its kernel's body, and control moves on. -/
theorem runRecord_ready {d : Dev} {code id : Nat} {cond : KRec → Bool} {r : Run} (h : recordReady d code id cond r)
    (body : Run → KRec → Dev → Dev × Bool) :
    runRecord code cond body id d =
      moveOn code id r (body (paidRun d r) (curRec r) (paidDev d r)).2 (body (paidRun d r) (curRec r) (paidDev d r)).1 := by
  obtain ⟨hrun, hends⟩ := h
  simp only [recordEnds, Bool.and_eq_true, Bool.not_eq_true', Option.isNone_iff_eq_none] at hends
  obtain ⟨⟨⟨⟨⟨hdue, hclass⟩, hbarred⟩, hfabric⟩, hfault⟩, hpaid⟩ := hends
  simp only [runRecord, hrun, hdue, hclass, hbarred, hfabric, hfault, hpaid, Bool.not_true, Bool.false_eq_true, or_self, if_false]

/-- A kernel's row, once its record is ready: what control makes of the body's outcome. -/
theorem kernelRow_moves {s : State} {code id : Nat} {cond : KRec → Bool} {r : Run} {d e : Dev}
    {body : Run → KRec → Dev → Dev × Bool} (hd : stageRecord code cond id s.dev = d) (h : recordReady d code id cond r)
    (he : moveOn code id r (body (paidRun d r) (curRec r) (paidDev d r)).2 (body (paidRun d r) (curRec r) (paidDev d r)).1 = e) :
    devRow (kernelRow code cond body id) s = .next (settle s e) :=
  devRow_eq ((congrArg (runRecord code cond body id) hd).trans ((runRecord_ready h body).trans he))

/-- A kernel that is no LOOP_TEST: its body, then the next record. -/
theorem kernelRow_plain {s : State} {code id : Nat} {cond : KRec → Bool} {r : Run} {d : Dev} {f : Run → KRec → Dev → Dev}
    (hd : stageRecord code cond id s.dev = d) (h : recordReady d code id cond r) :
    devRow (kernelRow code cond (plain f) id) s =
      .next (settle s (moveOn code id r false (f (paidRun d r) (curRec r) (paidDev d r)))) :=
  kernelRow_moves hd h rfl

/-- A kernel of an estimate acts in a run of that kind. -/
theorem lsqOnly_lsq {f : Run → KRec → Dev → Dev} {r : Run} (hr : r.kind = .lsq) (x : KRec) (d : Dev) : lsqOnly f r x d = f r x d :=
  if_pos hr

section Turns
variable {code id : Nat} {r q : Run} {pass : Bool} {d : Dev} (h : findRun d id = some q)
include h

theorem moveOn_next : moveOn 0x00 id r pass d = markEnd r (setRun { q with idx := q.idx + 1 } d) := by
  simp only [moveOn, h, nextRec]

theorem moveOn_opens :
    moveOn 0x01 id r pass d = markEnd r (setRun { q with loops := q.loops ++ [(q.idx, 0)], idx := q.idx + 1 } d) := by
  simp only [moveOn, h, loopOpens]

theorem moveOn_turns : moveOn 0x03 id r pass d = markEnd r (loopTurns q d) := by
  simp only [moveOn, h]

end Turns

/-- The loop that a LOOP_END closes is the run's outermost one when no other is open. -/
theorem length_append_singleton_eq_one {α : Type} (l : List α) (x : α) : (l ++ [x]).length = 1 ↔ l = [] := by
  simp

/-- LOOP_END below the cap goes back into its loop (R148). -/
theorem loopTurns_back {q : Run} {b k : Nat} {l : List (Nat × Nat)} (hl : q.loops = l ++ [(b, k)]) (hk : k + 1 < (recAt q.plan b).arg)
    (d : Dev) :
    loopTurns q d =
      iterBoundary { q with loops := l ++ [(b, k + 1)], idx := b + 1, passes := if l = [] then q.passes + 1 else q.passes }
        (decide (l = [])) d := by
  simp only [loopTurns, hl, List.getLast?_concat, List.dropLast_concat, hk, if_true, length_append_singleton_eq_one,
    decide_eq_true_eq]

/-- LOOP_END at the cap leaves its loop (R148). -/
theorem loopTurns_on {q : Run} {b k : Nat} {l : List (Nat × Nat)} (hl : q.loops = l ++ [(b, k)]) (hk : (recAt q.plan b).arg ≤ k + 1)
    (d : Dev) :
    loopTurns q d =
      iterBoundary { q with loops := l, idx := q.idx + 1, passes := if l = [] then q.passes + 1 else q.passes,
                            capped := q.capped || decide (l = []) || memberwiseIn q.plan b q.idx } (decide (l = [])) d := by
  simp only [loopTurns, hl, List.getLast?_concat, List.dropLast_concat, Nat.not_lt.mpr hk, if_false, length_append_singleton_eq_one,
    decide_eq_true_eq]

theorem controlRecordRowsComplete : Rows.ControlRecordRowsComplete :=
  fun id r s => ⟨fun h => kernelRow_moves rfl h (moveOn_next (findRun_paidDev h.1)),
    fun h => kernelRow_moves rfl h (moveOn_opens (findRun_paidDev h.1)),
    fun h => kernelRow_moves rfl h rfl,
    fun _ _ _ hl h =>
      ⟨fun hk => kernelRow_moves rfl h ((moveOn_turns (findRun_paidDev h.1)).trans
        (congrArg (markEnd r) (loopTurns_back (q := paidRun (stageRecord 0x03 anyRec id s.dev) r) hl hk _))),
        fun hk => kernelRow_moves rfl h ((moveOn_turns (findRun_paidDev h.1)).trans
        (congrArg (markEnd r) (loopTurns_on (q := paidRun (stageRecord 0x03 anyRec id s.dev) r) hl hk _)))⟩⟩

theorem elementKernelRowsComplete : Rows.ElementKernelRowsComplete :=
  fun _ _ _ => ⟨kernelRow_plain rfl, kernelRow_plain rfl, kernelRow_plain rfl,
    kernelRow_plain rfl⟩

/-- Settles O25. -/
theorem recordKernelRowsComplete : Obligations.RecordKernelRowsComplete := ⟨controlRecordRowsComplete, elementKernelRowsComplete⟩

theorem denseKernelRowsComplete : Rows.DenseKernelRowsComplete :=
  fun _ _ _ => ⟨kernelRow_plain rfl, kernelRow_plain rfl, kernelRow_plain rfl,
    kernelRow_plain rfl⟩

theorem batchedKernelRowsComplete : Rows.BatchedKernelRowsComplete :=
  fun _ _ _ => ⟨kernelRow_plain rfl, kernelRow_plain rfl, kernelRow_plain rfl,
    kernelRow_plain rfl, kernelRow_plain rfl, kernelRow_plain rfl,
    kernelRow_plain rfl, kernelRow_plain rfl⟩

/-- Settles O26. -/
theorem matrixKernelRowsComplete : Obligations.MatrixKernelRowsComplete := ⟨denseKernelRowsComplete, batchedKernelRowsComplete⟩

/-- A kernel of an estimate, in a run of that kind. -/
theorem estimateRow_moves {s : State} {code id : Nat} {cond : KRec → Bool} {r : Run} {d : Dev} {f : Run → KRec → Dev → Dev}
    (hr : r.kind = .lsq) (hd : stageRecord code cond id s.dev = d) (h : recordReady d code id cond r) :
    devRow (kernelRow code cond (plain (lsqOnly f)) id) s =
      .next (settle s (moveOn code id r false (f (paidRun d r) (curRec r) (paidDev d r)))) :=
  (kernelRow_plain hd h).trans (by rw [lsqOnly_lsq (r := paidRun d r) hr])

theorem estimateKernelRowsComplete : Rows.EstimateKernelRowsComplete :=
  fun _ _ _ hr => ⟨estimateRow_moves hr rfl, estimateRow_moves hr rfl, estimateRow_moves hr rfl, estimateRow_moves hr rfl, estimateRow_moves hr rfl,
    estimateRow_moves hr rfl, estimateRow_moves hr rfl, estimateRow_moves hr rfl, estimateRow_moves hr rfl, estimateRow_moves hr rfl⟩

theorem knownAnswer_ready {slot entry : Nat} {res : List (Bool × Nat)} {r : Run} {d : Dev}
    (hrun : testRun (startSelfTest slot entry d) slot entry = some r) (hpf : (startSelfTest slot entry d).sys.pfail = false)
    (hidle : idleFor (startSelfTest slot entry d) r = true)
    (h : recordReady (startSelfTest slot entry d) 0x22 r.id anyRec r) :
    knownAnswer slot entry res d = moveOn 0x22 r.id r false
      (testBodyOf res (paidRun (startSelfTest slot entry d) r) (curRec r) (paidDev (startSelfTest slot entry d) r)) := by
  simp only [knownAnswer, hrun, hpf, hidle, Bool.not_true, Bool.or_self, Bool.false_eq_true, if_false, runRecord_ready h, plain]

theorem runAheadKernelRowsComplete : Rows.RunAheadKernelRowsComplete := by
  refine fun id r s => ⟨kernelRow_plain rfl, kernelRow_plain rfl,
    fun slot entry margins pass hrun hpf hidle h => ?_⟩
  have hknown := knownAnswer_ready (res := pass.zip margins) hrun hpf hidle h
  refine devRow_eq (f := selfTest slot entry (pass.zip margins)) ?_
  simp only [selfTest, hknown]

/-- Settles O27. -/
theorem engineKernelRowsComplete : Obligations.EngineKernelRowsComplete := ⟨estimateKernelRowsComplete, runAheadKernelRowsComplete⟩

end Sys2Proof.Machine


namespace Sys2Proof.Machine

/-!
PROOFS about scans, loops, launches, pins and converters (spec/12_control_loops.md, 13_cyclic_logic.md, 14_time_ethernet_launch.md,
15_measurement_io.md).
-/

theorem scanRowsComplete : Rows.ScanRowsComplete := by
  refine fun dur c l s hscan => ⟨fun hdue hjobs hruns => ⟨fun hpaused => devRow_eq ?_, fun hpaused => devRow_eq ?_⟩,
    fun hstage hpaused => devRow_eq ?_, fun hstage hpaused => devRow_eq ?_, fun hover => devRow_eq ?_⟩
  · have hscan' : (endJobs s.dev).cle.scans = c :: l := hscan
    simp only [scanStart, hscan', hdue, hjobs, hruns, hpaused, atStart, ne_eq, not_true_eq_false, Bool.false_eq_true, or_self,
      Bool.not_true, if_false]
  · have hscan' : (endJobs s.dev).cle.scans = c :: l := hscan
    simp only [scanStart, hscan', hdue, hjobs, hruns, hpaused, atStart, ne_eq, not_true_eq_false, Bool.false_eq_true, or_self,
      Bool.not_true, if_false, if_true]
  · simp only [scanResume, hscan, hpaused, hstage, Bool.false_eq_true, if_false]
  · simp only [scanResume, hscan, hpaused, hstage, Bool.false_eq_true, if_false]
  · simp only [scanOverrun, hscan, List.find?_cons, hover, Bool.not_false]

theorem launchEventRowsComplete : Rows.LaunchEventRowsComplete := by
  refine fun s => ⟨fun j rest k hjobs hwait hnext hclass => ⟨fun hret => devRow_eq ?_, fun q hret => devRow_eq ?_⟩,
    fun t ht hmode hseq hawait => devRow_eq ?_,
    fun r rs hrep => ⟨fun hmode => devRow_eq ?_, fun hmode hleft => devRow_eq ?_, fun hmode hleft => devRow_eq ?_⟩⟩
  · simp only [loopSample, sampleNext, hjobs, hwait, hnext, hclass, hret, Bool.false_eq_true, if_false, Bool.or_eq_true, or_assoc]
  · simp only [loopSample, sampleNext, hjobs, hwait, hnext, hclass, hret, Bool.false_eq_true, if_false, Bool.or_eq_true, or_assoc]
  · simp only [launchFire, ht, Nat.not_lt.mpr hmode, hseq, hawait, Bool.not_true, Bool.false_eq_true, or_self, if_false]
  all_goals simp only [hrep] at hmode
  · simp only [setpointRepeat, hrep, hmode, ne_eq, not_false_eq_true, if_true]
  · simp only [setpointRepeat, hrep, hmode, hleft, ne_eq, not_true_eq_false, if_false, if_true]
  · simp only [setpointRepeat, hrep, hmode, hleft, ne_eq, not_true_eq_false, if_false]

/-- Settles O28. -/
theorem scanAndLaunchRowsComplete : Obligations.ScanAndLaunchRowsComplete := ⟨scanRowsComplete, launchEventRowsComplete⟩

/-- A pulse input that selects edges by a code counts this one: rising, falling, or both (R356). -/
def Counts (sel : Nat) (rising : Bool) : Prop := (sel = 0 ∧ rising = true) ∨ (sel = 1 ∧ rising = false) ∨ 2 ≤ sel

/-- What PULSE_INPUT_EDGE makes of the choice is `Counts`. -/
theorem edge_selected (sel : Nat) (rising : Bool) :
    (match sel with
      | 0 => rising
      | 1 => !rising
      | _ => true) = true ↔ Counts sel rising := by
  match sel with
  | 0 => simp [Counts]
  | 1 => simp [Counts]
  | n + 2 => simp [Counts]

section PulseEdge
variable {n : Nat} {rising : Bool} {d : Dev}

theorem pulseEdge_counts (hon : bitAt (regA d (Reg.ioxPiCfg n)) 31 = true) (hmode : 3 ≤ d.sys.mode.code)
    (hsel : Counts (bits (regA d (Reg.ioxPiCfg n)) 9 8) rising) :
    pulseEdge n rising d =
      (let d1 := { d with iox.piLevel := putBits d.iox.piLevel n n (b2n rising) }
       { d1 with
         iox.pi := smSet PulseIn.reset d1.iox.pi n { piOf d1 n with count := ((piOf d1 n).count + 1) % 2 ^ 32, at_ := d.tim.ticks } }) := by
  have hedge := (edge_selected _ _).mpr hsel
  refine if_pos ?_
  simp only [hon, hmode, decide_true, Bool.and_true, Bool.true_and]
  exact hedge

theorem pulseEdge_ignored (h : bitAt (regA d (Reg.ioxPiCfg n)) 31 = false ∨ d.sys.mode.code < 3 ∨
      ¬Counts (bits (regA d (Reg.ioxPiCfg n)) 9 8) rising) :
    pulseEdge n rising d = { d with iox.piLevel := putBits d.iox.piLevel n n (b2n rising) } := by
  refine if_neg fun hboth => ?_
  simp only [Bool.and_eq_true, decide_eq_true_eq] at hboth
  obtain ⟨⟨hon, hedge⟩, hmode⟩ := hboth
  rcases h with hoff | hlow | hno
  · exact absurd hon (by simp [hoff])
  · omega
  · exact hno ((edge_selected _ _).mp hedge)

end PulseEdge

theorem pinEventRowsComplete : Rows.PinEventRowsComplete := by
  refine fun s => ⟨fun n hon => devRow_eq ?_, fun n hact => devRow_eq ?_, fun n hact hlaunch hrem => devRow_eq ?_,
    fun n rising => ⟨fun hon hmode hsel => devRow_eq (pulseEdge_counts hon hmode hsel), fun h => devRow_eq (pulseEdge_ignored h)⟩,
    fun ext sense => devRow_eq rfl⟩
  · simp only [pwmPeriodStart, hon, if_true]
  · simp only [pulseOutput, hact, if_true]
  · simp only [pulseOutput, hact, hlaunch, hrem, Bool.false_eq_true, ne_eq, not_false_eq_true, and_self, if_false, if_true]

theorem converterEventRowsComplete : Rows.ConverterEventRowsComplete := by
  refine fun s => ⟨fun n hfirst hon hlen => devRow_eq ?_, fun q l hreqs => devRow_eq ?_,
    fun c vin vref refOk q e tick time hrun => ⟨fun hlast => devRow_eq ?_, fun hlast he => devRow_eq ?_, fun hlast he => devRow_eq ?_⟩⟩
  · simp only [adcTimer, hfirst, hon, Nat.not_le.mpr hlen, Option.isSome_none, Bool.not_true, Bool.false_eq_true, false_and, or_self,
      if_false]
  · simp only [adcRequests, hreqs, List.map_cons]
  · simp only [adcComplete, hrun, hlast, if_true]
  · simp only [adcComplete, hrun, hlast, he, if_true, Bool.false_eq_true, if_false]
  · simp only [adcComplete, hrun, hlast, Nat.not_lt.mpr he, Bool.false_eq_true, if_false]

/-- Settles O29. -/
theorem pinEventRowsAllComplete : Obligations.PinEventRowsAllComplete := ⟨pinEventRowsComplete, converterEventRowsComplete⟩

end Sys2Proof.Machine


namespace Sys2Proof.Machine

/-!
PROOFS about metering, CAN and network events (spec/14_time_ethernet_launch.md, 16_metering.md, 17_can.md).
-/

/-! ### Metering (R361–R379) -/

/-- MTR_SAMPLE: the crossings found, phase by phase, are a list beside the device (R363). -/
theorem meterSampleCompletes : Rows.MeterSampleCompletes := by
  refine fun codes s hon => ⟨fun hnone => devRow_eq ?_, fun c hc => devRow_eq ?_⟩
  all_goals simp only [meterSample, hon, Bool.not_true, Bool.false_eq_true, if_false]
  · generalize hstated : List.foldl (α := List (Nat × Nat) × Dev) (β := Nat) _ _ _ = found at hnone ⊢
    generalize hmade : List.foldl (α := List (Nat × Nat) × Dev) (β := Nat) _ _ _ = made
    obtain rfl : made = found := by
      rw [← hmade, ← hstated]
      refine congrFun (congrFun (congrArg List.foldl (funext fun r => funext fun p => ?_)) _) _
      cases (lookCross p r.2).1 <;> rfl
    simp only [hnone]
  · generalize hstated : List.foldl (α := List (Nat × Nat) × Dev) (β := Nat) _ _ _ = found at hc ⊢
    generalize hmade : List.foldl (α := List (Nat × Nat) × Dev) (β := Nat) _ _ _ = made
    obtain rfl : made = found := by
      rw [← hmade, ← hstated]
      refine congrFun (congrFun (congrArg List.foldl (funext fun r => funext fun p => ?_)) _) _
      cases (lookCross p r.2).1 <;> rfl
    simp only [hc]

theorem meterEventRowsComplete : Rows.MeterEventRowsComplete := by
  refine fun s => ⟨fun p hon hstart => devRow_eq ?_, fun p hon hstart hmode hzx => devRow_eq ?_, fun temp hon => devRow_eq ?_,
    fun c j hj hclass => devRow_eq ?_, fun hmode hpf => devRow_eq ?_,
    fun n hlaunch hdriven => ⟨fun hrest => devRow_eq ?_, fun due rest hrest hqueue => devRow_eq ?_⟩⟩
  · simp only [pseudoCycle, hon, hstart, Bool.not_true, Bool.false_eq_true, or_self, if_false]
  · simp only [zxLoss, hon, hstart, hmode, hzx, Bool.not_true, Bool.false_eq_true, ne_eq, not_true_eq_false, Option.isSome_none,
      or_self, if_false]
  · simp only [meterTemp, hon, Bool.not_true, Bool.false_eq_true, if_false]
  · simp only [heatCompute, hj, hclass, Bool.false_eq_true, if_false]
  · simp only [periodicSave, Nat.not_lt.mpr hmode, hpf, Bool.false_eq_true, or_self, if_false]
  · simp only [pulseDue, hlaunch, hdriven, hrest, Bool.not_true, Bool.false_eq_true, or_self, if_false, ne_eq, not_false_eq_true,
      if_true]
  · simp only [pulseDue, hlaunch, hdriven, hrest, hqueue, Bool.not_true, Bool.false_eq_true, or_self, if_false, ne_eq,
      not_true_eq_false, decide_eq_true_eq]

/-- Settles O30. -/
theorem meterEventRowsAllComplete : Obligations.MeterEventRowsAllComplete := ⟨meterSampleCompletes, meterEventRowsComplete⟩

/-! ### The CAN bus (R388–R398) -/

/-- The frame that a controller takes in, stamped with the time of its start. -/
def frameReceived (id format : Nat) (data : List Byte) (dur : Nat) (d : Dev) : CanFrame :=
  ⟨id % 2 ^ 32, format &&& 0xE000000F, (canTsc d + 2 ^ 32 - dur % 2 ^ 32) % 2 ^ 32, sliceB (data.take (dlcBytes format id)) 0 64, 0⟩

/-- REC after a good frame: one less, or a free value from 119 to 127 where it stood above (R396). -/
def recAfter (n rec_ : Nat) (d : Dev) : Nat :=
  if rec_ = 0 then 0 else if rec_ ≤ 127 then rec_ - 1 else 119 + min 8 (Config.canRec n (ctr d 0xC (9 * n)).toNat).toNat

theorem recAfter_low {rec_ : Nat} (h : rec_ ≤ 127) (n : Nat) (d : Dev) : recAfter n rec_ d = rec_ - 1 := by
  rw [recAfter, if_pos h]
  split <;> omega

theorem recAfter_high {rec_ : Nat} (h : 127 < rec_) (n : Nat) (d : Dev) : 119 ≤ recAfter n rec_ d ∧ recAfter n rec_ d ≤ 127 := by
  rw [recAfter, if_neg (by omega), if_neg (by omega)]
  omega

section Received
variable {n id format dur lec eights : Nat} {data : List Byte} {d : Dev}
  (hacts : canActs d n = 1 ∨ canActs d n = 2) (hint : canStatBit d n 26 = true) (hoff : canStatBit d n 31 = false)
include hacts hint hoff

/-- A controller on the bus takes part in what is received. -/
theorem canReceived_takesPart : ¬((canActs d n ≠ 1 ∧ canActs d n ≠ 2) ∨ !canStatBit d n 26 ∨ canStatBit d n 31) := by
  rcases hacts with h | h <;> simp [h, hint, hoff]

theorem canReceived_bad (hlec : lec ≠ 0) : canReceived n id format data dur lec eights d = canRxError n lec eights d := by
  simp only [canReceived, if_neg (canReceived_takesPart hacts hint hoff), hlec, ne_eq, not_false_eq_true, if_false, if_true]
  cases (canOf d n).run <;> rfl

theorem canReceived_good (hrun : (canOf d n).run = none) (hfd : bitAt format 31 = false ∨ canFd d n = true) :
    canReceived n id format data dur 0 eights d =
      if canActs d n = 2 then canDeliver n (frameReceived id format data dur d) d
      else canErrors n (canOf d n).tec (recAfter n (canOf d n).rec_ (canDeliver n (frameReceived id format data dur d) d))
        (canDeliver n (frameReceived id format data dur d) d) := by
  have hclassic : (bitAt format 31 && !canFd d n) = false := by
    rcases hfd with h | h <;> simp [h]
  simp only [canReceived, if_neg (canReceived_takesPart hacts hint hoff), hrun, hclassic, ne_eq, not_true_eq_false, if_false,
    Bool.false_eq_true]
  rfl

end Received

theorem canEventRowsComplete : Rows.CanEventRowsComplete := by
  refine fun n s => ⟨fun id format data dur eights hacts hint hoff =>
      ⟨fun lec hlec => devRow_eq (canReceived_bad hacts hint hoff hlec), fun hrun hfd => ?_⟩,
    fun m dur eights tdcv exempt hrun hmay => ?_, fun hrec => devRow_eq ?_, fun htake hrun => devRow_eq ?_,
    fun htake hacts => devRow_eq ?_⟩
  · have hgood := canReceived_good (dur := dur) (data := data) (id := id) (eights := eights) hacts hint hoff hrun hfd
    have hpassive (hact : canActs s.dev n.val = 1) := hgood.trans (if_neg (by rw [hact]; decide))
    refine ⟨fun hact => devRow_eq (hgood.trans (if_pos hact)), fun hact hrec => devRow_eq ((hpassive hact).trans ?_),
      fun hact hrec => ⟨_, (recAfter_high hrec _ _).1, (recAfter_high hrec _ _).2, devRow_eq (hpassive hact)⟩⟩
    rw [recAfter_low hrec]
    rfl
  · have hgo : ¬(!canMayTx s.dev n.val ∧ !(canOf s.dev n.val).take) := by
      rcases hmay with h | h <;> simp [h]
    refine ⟨devRow_eq ?_, fun lec hlec h7 => devRow_eq ?_, devRow_eq ?_⟩
    · simp only [canTransmitted, hrun, hgo, ne_eq, not_true_eq_false, false_and, if_false, if_true]
    · simp only [canTransmitted, hrun, hgo, hlec, h7, ne_eq, not_false_eq_true, true_and, if_false, if_true]
    · simp only [canTransmitted, hrun, hgo, ne_eq, not_true_eq_false, not_false_eq_true, true_and, if_false, OfNat.zero_ne_ofNat]
  · simp only [canRecovered, hrec, Bool.not_true, Bool.false_eq_true, if_false]
  · simp only [canTakeup, htake, hrun, Bool.not_true, Bool.false_eq_true, Option.isSome_none, or_self, if_false]
  · simp only [canIntegrated, htake, hacts, Bool.false_eq_true, or_self, if_false]

/-- Settles O31. -/
theorem canEventRowsAllComplete : Obligations.CanEventRowsAllComplete := canEventRowsComplete

/-! ### PTP and Ethernet (R322–R337) -/

theorem ptpReceiptRowsComplete : Rows.PtpReceiptRowsComplete := by
  refine fun h x s hdom => ⟨fun secs ns hint hpar => ⟨devRow_eq ?_, devRow_eq ?_⟩, fun secs ns w hw hsrc hport hseq => devRow_eq ?_,
    fun prio1 cls accuracy variance prio2 gm steps hint => devRow_eq ?_,
    fun secs ns seq t3 t hreq hslave hint hp2p hseq hpar => devRow_eq ?_, fun seq t1 hreq hon hp2p hseq hint => devRow_eq ?_,
    fun y hsrc hact hhold hvalid => devRow_eq ?_⟩
  · simp only [ptpSync, hdom, hint, hpar, Bool.not_true, Bool.false_eq_true, if_false, if_true]
  · simp only [ptpSync, hdom, hint, hpar, Bool.not_true, Bool.false_eq_true, if_false]
  · simp only [ptpFollowUp, hdom, hw, hsrc, hport, hseq, and_self, if_true]
  · simp only [ptpAnnounce, hdom, hint, Bool.not_true, Bool.false_eq_true, if_false]
  · simp only [ptpDelayResp, hdom, hreq, hslave, hint, hp2p, hseq, hpar, Bool.not_true, Bool.false_eq_true, ne_eq, not_true_eq_false,
      or_self, if_false]
  · simp only [ptpPdelayResp, hreq, hon, hp2p, hseq, hint, Bool.not_true, Bool.false_eq_true, ne_eq, not_true_eq_false, or_self,
      if_false]
  · simp only [receiptTimeout, hsrc, hact, hhold, hvalid, Bool.not_false, and_self, if_true]

theorem ptpTransmitRowsComplete : Rows.PtpTransmitRowsComplete := by
  refine fun s => ⟨fun h hon hrole hp2p hdom => devRow_eq ?_, fun h turn hon hp2p => devRow_eq ?_,
    fun p hon => ⟨fun hrole => ⟨devRow_eq ?_, devRow_eq ?_⟩, fun hrole hp2p => devRow_eq ?_, fun hp2p => devRow_eq ?_⟩⟩
  · simp only [ptpDelayReq, hon, hrole, hp2p, hdom, Bool.not_true, Bool.false_eq_true, ne_eq, not_true_eq_false, or_self, if_false]
  · simp only [ptpPdelayReq, hon, hp2p, Bool.not_true, Bool.false_eq_true, or_self, if_false]
  · simp only [ptpTransmit, hon, hrole, Bool.not_true, Bool.false_eq_true, if_false, decide_true, if_true]
    rfl
  · simp only [ptpTransmit, hon, hrole, Bool.not_true, Bool.false_eq_true, if_false, decide_true, if_true]
    rfl
  · simp only [ptpTransmit, hon, hrole, hp2p, Bool.not_true, Bool.not_false, Bool.and_self, Bool.false_eq_true, if_false, decide_false, if_true]
    rfl
  · simp only [ptpTransmit, hon, hp2p, Bool.not_true, Bool.false_eq_true, if_false, if_true]
    rfl

theorem ethernetRowsComplete : Rows.EthernetRowsComplete := by
  refine fun p s hup => ⟨fun addr from_ hown => devRow_eq ?_, fun dport src dst b hport hdport hown hfault => devRow_eq ?_,
    fun ptp => devRow_eq ?_⟩
  · simp only [arpRequest, hup, hown, Bool.not_true, Bool.false_eq_true, if_false, if_true]
  · simp only [telemetry, hup, hport, hdport, hown, hfault, Bool.not_true, Bool.false_eq_true, ne_eq, not_true_eq_false, or_self,
      if_false]
  · simp only [ethDrop, hup, if_true]

theorem linkChangeCompletes : Rows.LinkChangeCompletes := by
  refine fun p speed s => devRow_eq ?_
  by_cases hspeed : speed = 0 <;> simp [ethLink, hspeed, b2n]

/-- Settles O32. -/
theorem networkRowsAllComplete : Obligations.NetworkRowsAllComplete :=
  ⟨ptpReceiptRowsComplete, ptpTransmitRowsComplete, ethernetRowsComplete, linkChangeCompletes⟩

end Sys2Proof.Machine


namespace Sys2Proof.Machine

/-!
PROOFS about the Trellis chain and redundancy (spec/18_trellis_redundancy.md, and R35, R329, R341 for what they touch).
-/

/-! ### The chain (R329, R403, R405, R408) -/

/-- A TIME_MARK of a link that is trained, on a unit that takes its time from the chain (R408). -/
theorem timeMark_taken {dep delay : Nat} {step : Bool} {d : Dev} (hup : fld d Reg.trlStat 28 28 = 1) (hsrc : timeSource d = 2) :
    timeMark dep step delay d =
      (let theta := openQuot (16 * ((now d : Int) - dep) - (delay % 2 ^ 24 : Nat)) 16
       let d1 := setP Reg.trlTimeOfs (enc 32 (satS32 theta)) (setF Reg.trlUpDelay 23 0 delay d)
       if step = true ∨ d1.trl.marked = false then stepTime (-theta) { d1 with trl.marked := true, trl.stepDue := none }
       else if jumpTh d1 < theta.natAbs then { d1 with trl.stepDue := some (-theta) }
       else servo theta d1.sys.frameLen d1) := by
  simp only [timeMark, hup, hsrc, one_ne_zero, ne_eq, not_true_eq_false, or_self, if_false, Bool.not_eq_true']

theorem chainRowsComplete : Rows.ChainRowsComplete := by
  refine fun s => ⟨fun n t ht hlater => devRow_eq ?_,
    fun up hin hown hmode hup => ⟨fun hle => devRow_eq ?_, fun hge => devRow_eq ?_⟩,
    fun hmode => ⟨fun hctl => devRow_eq ?_, fun hctl => devRow_eq ?_⟩,
    fun down again hup => ⟨fun hagain => devRow_eq ?_, fun hagain => devRow_eq ?_⟩,
    fun dep step delay hup hsrc => ⟨fun hstep => devRow_eq ((timeMark_taken hup hsrc).trans (if_pos hstep)),
      fun hstep hmark hjump => devRow_eq ((timeMark_taken hup hsrc).trans ?_),
      fun hstep hmark hjump => devRow_eq ((timeMark_taken hup hsrc).trans ?_)⟩⟩
  · simp only [timeAlarm, ht, Nat.not_le.mpr hlater, if_false]
  · have h0 : up ≠ 0 := by omega
    have h16 : ¬16 ≤ up := by omega
    simp only [enumInFall, hin, hown, hmode, h0, h16, Bool.false_eq_true, ne_eq, not_true_eq_false, or_self, if_false]
  · have h0 : up ≠ 0 := by omega
    simp only [enumInFall, hin, hown, hmode, h0, hge, Bool.false_eq_true, ne_eq, not_true_eq_false, or_self, if_false, if_true]
    rfl
  · simp only [linkTrained, hmode, b2n, hctl, Bool.not_true, Bool.false_eq_true, or_self, if_false, if_true]
  · simp only [linkTrained, hmode, b2n, hctl, Bool.not_true, Bool.false_eq_true, or_self, if_false]
  · have hlink : ¬fld s.dev Reg.trlStat (28 - b2n down) (28 - b2n down) = 0 := by cases down <;> simp_all [b2n]
    simp only [crcFailure, hlink, hagain, if_false, if_true]
  · have hlink : ¬fld s.dev Reg.trlStat (28 - b2n down) (28 - b2n down) = 0 := by cases down <;> simp_all [b2n]
    simp only [crcFailure, hlink, Nat.not_lt.mpr hagain, if_false]
  · exact (if_neg (by rw [hstep, hmark]; decide)).trans (if_pos hjump)
  · exact (if_neg (by rw [hstep, hmark]; decide)).trans (if_neg (Nat.not_lt.mpr hjump))

/-! ### Reports (R409–R414) -/

/-- The unit's own report at its cut-off (R410). -/
def reported (d : Dev) : Dev :=
  let d1 := advanceTo (cutOff d) d
  let dw := { d1 with trl.own := composeReport d1.trl.pairCrc d1, trl.reported := true }
  if addrConflict d1 then dw else charge 12 .beats (Config.trellisBeats 0).toNat { dw with trl.revertReq := false }

/-- What a fault of the unit makes of its report: a waiting RED_FAILOVER completes, and the lease lapses (R414, R422). -/
def afterReport (d : Dev) : Dev :=
  if !d.trl.fault then d
  else
    let d1 := match d.trl.failover with
      | some id => complete id (ok 0 0 0 0) { d with trl.failover := none }
      | none => d
    lapse d1

/-- HEALTH_REPORT_SEND at its time. The report stays named here: the kernel must not look inside it. -/
theorem healthReportSend_eq {d : Dev} (hrep : reports d = true) (hnot : d.trl.reported = false) (hlease : d.trl.lease = true)
    (hcut : now d ≤ cutOff d) : healthReportSend d = afterReport (reported d) := by
  have hgo : ¬(!reports d ∨ d.trl.reported ∨ !d.trl.lease ∨ cutOff d < now d) := by
    simp [hrep, hnot, hlease, Nat.not_lt.mpr hcut]
  have hsent : healthReportSend d =
      (let d1 := advanceTo (cutOff d) d
       let dw := { d1 with trl.own := composeReport d1.trl.pairCrc d1, trl.reported := true }
       let d2 := if addrConflict d1 then dw
         else charge 12 .beats (Config.trellisBeats 0).toNat { dw with trl.revertReq := false }
       afterReport d2) := by
    rw [healthReportSend, if_neg hgo]
    rfl
  rw [hsent]
  rfl

theorem afterReport_sound {d : Dev} (h : d.trl.fault = false) : afterReport d = d := by
  simp only [afterReport, h, Bool.not_false, if_true]

theorem afterReport_fault {d : Dev} (h : d.trl.fault = true) (hfail : d.trl.failover = none) : afterReport d = lapse d := by
  simp only [afterReport, h, hfail, Bool.not_true, Bool.false_eq_true, if_false]

theorem afterReport_failover {d : Dev} {id : Nat} (h : d.trl.fault = true) (hfail : d.trl.failover = some id) :
    afterReport d = lapse (complete id (ok 0 0 0 0) { d with trl.failover := none }) := by
  simp only [afterReport, h, hfail, Bool.not_true, Bool.false_eq_true, if_false]

theorem reportRowsComplete : Rows.ReportRowsComplete := by
  refine fun s => ⟨fun hrep hnot hlease hcut => 
      ⟨fun hfault => devRow_eq ((healthReportSend_eq hrep hnot hlease hcut).trans (afterReport_sound (d := reported s.dev) hfault)),
        fun hfault hfail => devRow_eq ((healthReportSend_eq hrep hnot hlease hcut).trans (afterReport_fault (d := reported s.dev) hfault hfail)),
        fun id hfault hfail => devRow_eq ((healthReportSend_eq hrep hnot hlease hcut).trans
          (afterReport_failover (d := reported s.dev) hfault hfail)),
        fun hmode => devRow_eq ?_⟩,
    fun b h g images hcrc hmin hmax hmode => ⟨fun hown hconf => devRow_eq ?_, fun hown => devRow_eq ?_⟩,
    fun a hmin hmax hown hfresh hsome => devRow_eq ?_⟩
  · simp only [leaseLapse, hrep, hnot, hlease, Nat.not_lt.mpr hmode, Nat.not_lt.mpr hcut, Bool.not_true, Bool.false_eq_true, or_self,
      if_false]
  · rw [hown] at hmin hmax
    have h0 : ¬ownAddr s.dev = 0 := by omega
    simp only [healthReport, hcrc, h0, Nat.not_lt.mpr hmax, hmode, hown, hconf, ne_eq, not_true_eq_false, or_self, if_false, if_true,
      Bool.false_eq_true]
    rfl
  · have h0 : ¬fieldLE b 0 1 = 0 := by omega
    simp only [healthReport, hcrc, h0, Nat.not_lt.mpr hmax, hmode, hown, ne_eq, not_true_eq_false, or_self, if_false]
  · have h0 : ¬a = 0 := by omega
    simp only [healthReportMissed, h0, Nat.not_lt.mpr hmax, hown, hfresh, hsome, Bool.false_eq_true, or_self, if_false]

/-- Settles O33. -/
theorem trellisEventRowsComplete : Obligations.TrellisEventRowsComplete := ⟨chainRowsComplete, reportRowsComplete⟩

/-! ### The mirror and handovers (R35, R341, R407, R415–R425) -/

theorem mirrorRowsComplete : Rows.MirrorRowsComplete := by
  refine fun s => ⟨fun f c fz hsteps hmir => devRow_eq ?_,
    fun b hmir hitems hframe => ⟨fun hreq => devRow_eq ?_, fun hreq => devRow_eq ?_⟩,
    fun hstandby hlen => ⟨fun c fz hdue hsteps => devRow_eq ?_, fun hdue => devRow_eq ?_⟩, fun x hstandby hreq => devRow_eq ?_⟩
  · simp only [mirrorFast, hsteps, hmir, Bool.not_true, Bool.false_eq_true, if_false]
  · simp only [mirrorBulk, hmir, Option.isNone_iff_eq_none, Option.isSome_iff_ne_none.mp hitems, hframe, Bool.not_true,
      Bool.false_eq_true, ne_eq, not_true_eq_false, or_self, if_false]
    exact if_pos hreq
  · simp only [mirrorBulk, hmir, Option.isNone_iff_eq_none, Option.isSome_iff_ne_none.mp hitems, hframe, Bool.not_true,
      Bool.false_eq_true, ne_eq, not_true_eq_false, or_self, if_false]
    exact if_neg (by rw [hreq]; decide)
  · simp only [mirrorLate, hstandby, hlen, hdue, hsteps, Bool.not_true, Bool.false_eq_true, or_self, if_false, if_true]
  · simp only [mirrorLate, hstandby, hlen, hdue, Bool.not_true, Bool.false_eq_true, or_self, if_false]
  · simp only [syncImage, hstandby, hreq, Bool.not_true, Bool.false_eq_true, or_self, if_false]

theorem handoverRowsComplete : Rows.HandoverRowsComplete := by
  refine fun s => ⟨fun recs => devRow_eq rfl, fun o len data hown hconf hmode ho =>
      ⟨fun hmap => devRow_eq ?_, fun hmap => devRow_eq ?_, fun q w => devRow_eq ?_, fun q w => devRow_eq ?_⟩,
    fun t ht => ⟨fun hmode hlow => devRow_eq ?_, fun hno => devRow_eq ?_⟩, fun t ht hcond hctl hreq hat_ => devRow_eq ?_,
    fun t ht hrel hmode => devRow_eq ?_, fun t low ht => ⟨fun hmode => devRow_eq ?_, fun hmode => devRow_eq ?_⟩,
    fun t low hno ht => ⟨fun hmode hlow => devRow_eq ?_, fun hor => devRow_eq ?_⟩⟩
  · simp only [windowTraffic, windowAccess, hown, hconf, hmode, hmap, Nat.not_le.mpr ho, Bool.not_true, Bool.false_eq_true, or_self,
      if_false, if_true]
  · simp only [windowTraffic, windowAccess, hown, hconf, hmode, hmap, Nat.not_le.mpr ho, Bool.not_true, Bool.false_eq_true, or_self,
      if_false]
  · simp only [windowTraffic, hown, hconf, hmode, Bool.false_eq_true, or_self, if_false]
  · simp only [windowTraffic, hown, hconf, hmode, Bool.false_eq_true, or_self, if_false]
  · simp only [takeover, ht, hmode, hlow, Bool.not_false, and_self, if_true]
  · have hno' : ¬(s.dev.sys.mode = .standby ∧ !peerOwnLow s.dev) := by
      rcases hno with h | h <;> simp [h]
    simp only [takeover, ht, hno', if_false]
  · simp only [revertRequest, ht, hcond, hctl, hreq, hat_, Bool.not_true, Bool.false_eq_true, one_ne_zero, Option.isSome_none, or_self,
      if_false]
  · simp only [handoverRelease, ht, hrel, Nat.not_lt.mpr hmode, Bool.false_eq_true, or_self, if_false]
  · simp only [handover, ht]
    exact if_pos hmode
  · simp only [handover, ht]
    exact if_neg hmode
  · simp only [handover, hno, ht]
    exact if_pos ⟨hmode, by rw [hlow]; rfl⟩
  · simp only [handover, hno, ht]
    refine if_neg ?_
    rintro ⟨hmode, hlow⟩
    rcases hor with h | h
    · exact h hmode
    · simp [h] at hlow

/-- Settles O34. -/
theorem redundancyEventRowsComplete : Obligations.RedundancyEventRowsComplete := ⟨mirrorRowsComplete, handoverRowsComplete⟩

end Sys2Proof.Machine


namespace Sys2Proof.Machine

/-!
PROOFS about the Granary's, the Silo's, the panel's, the clock's and the health events (spec/19_granary_recorder.md to
22_rtc_health.md).
-/

/-! ### Journal, recorder, Silo (R431–R439, R444, R445, R449, R450, R453) -/

theorem journalRowsComplete : Rows.JournalRowsComplete := by
  refine fun s => ⟨fun r hr hrefuse => ⟨fun hclass => devRow_eq ?_, fun hclass => devRow_eq ?_⟩,
    fun r t c hr ht hc => devRow_eq ?_,
    fun hrun hform hrefuse hbackup hboot => ⟨fun hclass => devRow_eq ?_, fun hclass => devRow_eq ?_⟩,
    fun r hr hmark hrefuse => devRow_eq ?_⟩
  · simp only [appendCommit, hrefuse, hclass, hr, Bool.false_eq_true, if_false]
  · have hsome : s.dev.grn.queue.isEmpty = false :=
      List.isEmpty_eq_false_iff.mpr (List.ne_nil_of_mem (List.mem_of_find?_eq_some hr))
    simp only [appendCommit, hrefuse, hclass, hsome, Bool.false_eq_true, if_false, if_true]
  · simp only [appendTimeout, hr, ht, hc, Option.getD_some, Option.map_some]
    rfl
  · simp only [checkpointDue, hrun, hform, hrefuse, hbackup, hboot, hclass, Option.isSome_none, Bool.not_true, Bool.false_eq_true,
      or_self, if_false, if_true]
  · simp only [checkpointDue, hrun, hform, hrefuse, hbackup, hboot, hclass, Option.isSome_none, Bool.not_true, Bool.false_eq_true,
      or_self, if_false]
    exact (apply_ite (startCkpt none) ..).symm
  · simp only [checkpointComplete, hr, hmark, hrefuse, Bool.false_eq_true, or_self, if_false]

theorem recordingRowsComplete : Rows.RecordingRowsComplete := by
  refine fun s => ⟨fun x rest hq hpause hclear => ⟨fun hcmd => devRow_eq ?_, fun id hcmd => devRow_eq ?_⟩,
    fun hdirty hrefuse => devRow_eq ?_, fun b hb hret hmode => devRow_eq ?_⟩
  · simp only [eventRecord, hpause, hclear, Bool.false_eq_true, or_self, if_false, recordNext, hq, hcmd]
  · simp only [eventRecord, hpause, hclear, Bool.false_eq_true, or_self, if_false, recordNext, hq, hcmd]
  · exact if_neg (by simp [hdirty, hrefuse])
  · simp only [nandRetire, Nat.not_le.mpr hb, hret, hmode, ne_eq, not_true_eq_false, or_self, if_false]

theorem siloEventRowsComplete : Rows.SiloEventRowsComplete := by
  refine fun s => ⟨fun hmode hnoise => devRow_eq ?_, fun hmode htrng hroot => devRow_eq ?_, fun hmode => devRow_eq ?_,
    fun hmode => devRow_eq ?_, fun hmode hwhy => devRow_eq ?_⟩
  · simp only [remaskPass, hmode, hnoise, if_true, Bool.false_eq_true, if_false]
  · simp only [remaskPass, hmode, htrng, hroot, Bool.not_true, Bool.false_eq_true, or_self, if_false]
  · simp only [entropyFailure, hmode, if_true]
  · simp only [entropyFailure, hmode, if_false]
  · have hdue : (decide (2 ^ 20 ≤ s.dev.sec.requests) || s.dev.sec.trngFail) = true := by simpa using hwhy
    simp only [drbgReseed, hmode, hdue, Bool.not_true, Bool.false_eq_true, or_self, if_false]

/-- Settles O35. -/
theorem storeEventRowsComplete : Obligations.StoreEventRowsComplete :=
  ⟨journalRowsComplete, recordingRowsComplete, siloEventRowsComplete⟩

/-! ### Panel, clock, health (R462–R490) -/

theorem panelEventRowsComplete : Rows.PanelEventRowsComplete := by
  refine fun s => ⟨fun hmode => devRow_eq ?_, fun hmode hline => ⟨fun hblank => devRow_eq ?_, fun hblank hclass => devRow_eq ?_,
    fun hblank hclass => devRow_eq ?_⟩, rfl⟩
  · simp only [panelFrameStart, hmode, if_false]
  · simp only [panelLine, hmode, Nat.not_le.mpr hline, or_self, if_false, hblank, if_true]
  · simp only [panelLine, hmode, Nat.not_le.mpr hline, or_self, if_false, hblank, hclass, Bool.false_eq_true, if_true]
  · simp only [panelLine, hmode, Nat.not_le.mpr hline, or_self, if_false, hblank, hclass, Bool.false_eq_true]

theorem clockEventRowsComplete : Rows.ClockEventRowsComplete := by
  refine fun s => ⟨fun hwhy => devRow_eq ?_, rfl, rfl, rfl, fun hpf => devRow_eq ?_, rfl, rfl, rfl, fun hvbat hpf => devRow_eq ?_⟩
  · have hno : ¬(s.dev.rtc.commit = some s.dev.tim.ticks ∧ s.dev.sys.mode ≠ .backup) := by
      rcases hwhy with h | h <;> simp [h]
    simp only [rtcSecond, hno, if_false]
  · simp only [interfaceLock, hpf, Bool.or_true, if_true]
  · simp only [unlockReady, hvbat, hpf, Bool.false_eq_true, or_self, if_false]

theorem healthEventRowsComplete : Rows.HealthEventRowsComplete := by
  refine fun s => ⟨fun hmode => devRow_eq ?_, fun vo vl t ht => ⟨fun hnone => devRow_eq ?_, fun id hid => devRow_eq ?_⟩⟩
  · simp only [healthRecord, Nat.not_lt.mpr hmode, if_false]
  · simp only [batTestEnd, ht, hnone]
  · simp only [batTestEnd, ht, hid]

/-- Settles O36. -/
theorem panelClockHealthEventsComplete : Obligations.PanelClockHealthEventsComplete :=
  ⟨panelEventRowsComplete, clockEventRowsComplete, healthEventRowsComplete⟩

end Sys2Proof.Machine


namespace Sys2Proof.Machine

/-!
PROOFS about the time base (R322), the pins by mode (R105), a full completion ring (R47) and the logic engine's stack (R305).
-/

/-- Settles O53: division of a time by 10⁹ gives its seconds and what is left of them. -/
theorem ptpTimescale : Obligations.PtpTimescale := by
  refine ⟨fun _ _ _ => rfl, fun d t => ?_⟩
  simp only [toPtp]
  omega

/-! ### Pins (R105) -/

/-- In BACKUP no pin is driven. -/
theorem pins_backup {d : Dev} (h : d.sys.mode = .backup) (n : Nat) :
    dacPin d n = none ∧ pwmPin d n = none ∧ gpioPin d n = none ∧ poPin d n = none ∧ holdOut d = false := by
  simp [dacPin, pwmPin, gpioPin, poPin, holdOut, h]

section Pins
variable {d : Dev} (n : Nat)

/-- In the modes that own the outputs the latches drive the pins. -/
theorem pins_live (h : d.sys.mode = .run ∨ d.sys.mode = .hold ∨ d.sys.mode = .service) :
    dacPin d n = some (smGet 0 d.iox.dac n) ∧
    (gpioOwner d n ≠ 0 → bitAt (regA d (Reg.ioxGpioCfg n)) 5 = false → gpioPin d n = some (smGet false d.iox.gpio n)) ∧
    (gpioOwner d n = 0 → gpioPin d n = none) := by
  have hlive : pinsLive d = true := decide_eq_true h
  have hup : d.sys.mode ≠ .backup := by rintro hb; simp [hb] at h
  refine ⟨?_, fun howner hopen => ?_, fun howner => ?_⟩
  · simp only [dacPin, hup, hlive, if_false, if_true]
  · simp only [gpioPin, hup, howner, hlive, hopen, or_self, if_false, if_true, Bool.false_eq_true]
  · simp only [gpioPin, howner, or_true, if_true]

/-- In the other modes the park values drive them. -/
theorem pins_parked (h : d.sys.mode = .boot ∨ d.sys.mode = .provision ∨ d.sys.mode = .config ∨ d.sys.mode = .standby) :
    dacPin d n = some (fldA d (Reg.ioxDacPark n) 15 0) ∧ pwmPin d n = some (bitAt (regA d (Reg.ioxPwmCfg n)) 28) ∧
    (gpioOwner d n ≠ 0 → bitAt (regA d (Reg.ioxGpioCfg n)) 5 = false →
      gpioPin d n = if bitAt (regA d (Reg.ioxGpioCfg n)) 2 then some (bitAt (regA d (Reg.ioxGpioCfg n)) 1) else none) ∧
    (poLaunch d n = true → bitAt (regA d (Reg.ioxPoCfg n)) 29 = false →
      poPin d n = some (bitAt (regA d (Reg.ioxPoCfg n)) 30)) := by
  have hdead : pinsLive d = false := by rcases h with h | h | h | h <;> simp [pinsLive, h]
  have hup : d.sys.mode ≠ .backup := by rintro hb; simp [hb] at h
  refine ⟨?_, ?_, fun howner hopen => ?_, fun hlaunch hopen => ?_⟩
  · simp only [dacPin, hup, hdead, Bool.false_eq_true, if_false]
  · simp only [pwmPin, hup, hdead, Bool.false_eq_true, if_false]
  · simp only [gpioPin, hup, howner, hdead, hopen, or_self, if_false, Bool.false_eq_true]
  · simp [poPin, hup, hlaunch, hdead, hopen]

end Pins

/-- Settles O54. -/
theorem pinsByMode : Obligations.PinsByMode := by
  refine fun d n => ⟨fun h => pins_backup h n, pins_live n, pins_parked n, fun hbackup hrun => ?_, ?_⟩
  · simp [holdLow, holdOut, hbackup, hrun]
  · cases d.sys.mode <;> simp [Mode.owns]

/-! ### A full completion ring (R47) -/

/-- A value other than the default, stored at one key, leaves what another key reads, whatever the form of the table. -/
theorem smGet_smSet_listed_ne {α : Type} [DecidableEq α] {d v : α} (hv : v ≠ d) (m : SMap α) {k q : Nat} (hq : q ≠ k) :
    smGet d (smSet d m k v) q = smGet d m q := by
  induction m with
  | nil => simp [smSet, smGet, hv, hq]
  | cons kv m ih =>
    simp only [smSet, hv, if_false]
    split_ifs with hsame hbelow
    · subst hsame
      simp only [smGet, hq, if_false]
    · by_cases hlow : q < k
      · have hfirst : q < kv.1 := hlow.trans hbelow
        simp only [smGet, hq, hlow, hfirst, hfirst.ne, if_true, if_false]
      · simp only [smGet, hq, hlow, if_false]
    · simp only [smGet, ih]

/-- Settles O46: the ring takes the completion among those it keeps, and nothing else of the device changes. -/
theorem fullRingKeepsCompletions : Obligations.FullRingKeepsCompletions := by
  refine fun n c d hlost hst hfull => ?_
  have hkept : postCpl n c d = setRing n { ringOf d n with cqFull := true, kept := (ringOf d n).kept ++ [c] } d := by
    simp only [postCpl, hlost, hst, hfull, Bool.not_true, Bool.and_false, Bool.false_eq_true, if_false, or_true, if_true]
  have hother : { ringOf d n with cqFull := true, kept := (ringOf d n).kept ++ [c] } ≠ Ring.reset :=
    fun h => Bool.noConfusion (show true = false from congrArg Ring.cqFull h)
  have hring : ringOf (setRing n { ringOf d n with cqFull := true, kept := (ringOf d n).kept ++ [c] } d) n =
      { ringOf d n with cqFull := true, kept := (ringOf d n).kept ++ [c] } := smGet_smSet_listed hother _ _
  rw [hkept]
  refine ⟨?_, by rw [hring], by rw [hring], rfl, rfl, rfl, fun m hm => smGet_smSet_listed_ne hother _ hm⟩
  simp [canFetch, hring]

/-! ### The logic engine's stack (R305) -/

/-- PUSH puts ACC on the stack unless it holds 16 entries, the two pops take the top one off, and nothing else touches it; a PUSH
that is discarded and a pop of none are counted. -/
theorem logicInstr_stack (dt w : Nat) (x : Exec) :
    (logicInstr dt w x).stack =
      (if bits w 31 26 = 0x0C then (if 16 ≤ x.stack.length then x.stack else x.acc :: x.stack)
       else if bits w 31 26 = 0x0D ∨ bits w 31 26 = 0x0E then x.stack.tail else x.stack) ∧
    (logicInstr dt w x).faults =
      x.faults + (if bits w 31 26 = 0x0C ∧ 16 ≤ x.stack.length ∨ (bits w 31 26 = 0x0D ∨ bits w 31 26 = 0x0E) ∧ x.stack = [] then 1
        else 0) := by
  have hpop (y : Exec) : (popBit y).2.stack = y.stack.tail ∧ (popBit y).2.faults = y.faults + if y.stack = [] then 1 else 0 := by
    unfold popBit
    split <;> simp_all
  unfold logicInstr
  split <;> simp_all [apply_ite Exec.stack, apply_ite Exec.faults, add_ite]

/-- Settles O50. -/
theorem logicStack : Obligations.LogicStack := by
  refine ⟨fun dt e => ⟨_, rfl, rfl, rfl⟩, fun dt w x => ?_⟩
  obtain ⟨hstack, hfaults⟩ := logicInstr_stack dt w x
  refine ⟨fun hop hlen => ?_, fun hop hlen => ?_, fun hop hnone => ?_, fun hop hnone => ?_, fun hlen => ?_, ?_, fun hend => ?_⟩
  · simp [hstack, hfaults, hop, hlen]
  · simp [hstack, hfaults, hop, Nat.not_le.mpr hlen]
  · simp [hop, hnone, logicInstr, popBit]
  · simp [hop, hnone, logicInstr, popBit]
  · rw [hstack]
    split_ifs with hpush hfull hpop
    · exact hlen
    · exact Nat.lt_of_not_le hfull
    · rw [List.length_tail]
      omega
    · exact hlen
  · omega
  · rw [(logicInstr_control dt w x).2.1] at hend
    simpa using hend

end Sys2Proof.Machine


namespace Sys2Proof.Machine

/-!
PROOFS about a host write to a register of a block without register effects of its own (R82).
-/

/-! ### Bits of the masks of a register -/

theorem bitAt_eq_testBit (v b : Nat) : bitAt v b = v.testBit b := by
  rw [Nat.testBit_eq_decide_div_mod_eq, bitAt, Nat.shiftRight_eq_div_pow, beq_eq_decide]

/-- The mask of a field. -/
def fieldMask (f : Fld) : Nat := (2 ^ (f.hi + 1 - f.lo) - 1) <<< f.lo

/-- The mask of the fields of a list. -/
def fieldsMask (fs : List Fld) : Nat := fs.foldl (fun m f => m ||| fieldMask f) 0

theorem accMask_eq (fs : List Fld) (a : Acc) : accMask fs a = fieldsMask (fs.filter (fun f => f.acc = a)) := rfl

theorem rkMask_eq (o : Nat) : rkMask o = 0xFFFFFFFF - fieldsMask ((fieldsAt o).filter (fun f => f.acc ≠ .rk)) := rfl

theorem testBit_foldl_or (fs : List Fld) (m b : Nat) :
    (fs.foldl (fun m f => m ||| fieldMask f) m).testBit b = (m.testBit b || fs.any (fun f => (fieldMask f).testBit b)) := by
  induction fs generalizing m with
  | nil => simp
  | cons f fs ih => simp [ih, Bool.or_assoc]

theorem testBit_fieldsMask {fs : List Fld} {b : Nat} :
    (fieldsMask fs).testBit b = true ↔ ∃ f ∈ fs, (fieldMask f).testBit b = true := by
  simp [fieldsMask, testBit_foldl_or]

theorem testBit_fieldMask_high {f : Fld} {b : Nat} (h : f.hi < b) : (fieldMask f).testBit b = false := by
  simp only [fieldMask, Nat.testBit_shiftLeft, Nat.testBit_two_pow_sub_one, Bool.and_eq_false_iff, decide_eq_false_iff_not]
  omega

theorem fieldsMask_lt {fs : List Fld} (h : ∀ f ∈ fs, f.hi < 32) : fieldsMask fs < 2 ^ 32 := by
  refine Nat.lt_pow_two_of_testBit _ fun b hb => ?_
  rw [Bool.eq_false_iff, ne_eq, testBit_fieldsMask]
  rintro ⟨f, hf, hbit⟩
  simp [testBit_fieldMask_high ((h f hf).trans_le hb)] at hbit

/-- The complement of a mask of 32 bits. -/
theorem testBit_complement {m b : Nat} (hm : m < 2 ^ 32) (hb : b < 32) : (0xFFFFFFFF - m).testBit b = !m.testBit b := by
  have h : 0xFFFFFFFF - m = 2 ^ 32 - (m + 1) := by omega
  rw [h, Nat.testBit_two_pow_sub_succ hm]
  simp [hb]

/-! ### The fields of the register map -/

/-- Every field of the rows lies in the 32 bits of its register. -/
def fieldsFit (rs : List RegDef) : Bool := rs.all (fun r => r.fields.all (fun f => decide (f.hi < 32)))

theorem blockRows_fit (o : Nat) : fieldsFit (blockRows o) = true := by
  unfold blockRows
  split <;> decide

theorem findReg_mem {rs : List RegDef} {o : Nat} {r : RegDef} (h : findReg rs o = some r) : r ∈ rs := by
  induction rs with
  | nil => simp [findReg] at h
  | cons x rs ih =>
    rw [findReg] at h
    split at h
    · simp_all
    · exact List.mem_cons_of_mem _ (ih h)

theorem fieldsAt_fit {o : Nat} {f : Fld} (h : f ∈ fieldsAt o) : f.hi < 32 := by
  have hfit := blockRows_fit o
  cases hrow : findReg (blockRows o) o with
  | none => simp [fieldsAt, regFields, hrow] at h
  | some r =>
    simp only [fieldsFit, List.all_eq_true, decide_eq_true_eq] at hfit
    exact hfit r (findReg_mem hrow) f (by simpa [fieldsAt, regFields, hrow] using h)

theorem accMask_lt (o : Nat) (a : Acc) : accMask (fieldsAt o) a < 2 ^ 32 :=
  accMask_eq _ _ ▸ fieldsMask_lt fun _ h => fieldsAt_fit (List.mem_of_mem_filter h)

theorem rkMask_lt (o : Nat) : rkMask o < 2 ^ 32 := by
  rw [rkMask_eq]
  omega

/-- A bit that a field of another code than RK covers is not reserved. -/
theorem testBit_rkMask_of_acc {o b : Nat} {a : Acc} (ha : a ≠ .rk) (hb : b < 32)
    (h : (accMask (fieldsAt o) a).testBit b = true) : (rkMask o).testBit b = false := by
  rw [rkMask_eq, testBit_complement (fieldsMask_lt fun _ hf => fieldsAt_fit (List.mem_of_mem_filter hf)) hb, Bool.not_eq_false',
    testBit_fieldsMask]
  obtain ⟨f, hf, hbit⟩ := testBit_fieldsMask.mp (accMask_eq _ _ ▸ h)
  obtain ⟨hmem, hacc⟩ := List.mem_filter.mp hf
  exact ⟨f, List.mem_filter.mpr ⟨hmem, by simp_all⟩, hbit⟩

/-! ### The write by access code (R82) -/

/-- What the reserved bits of a register hold after a write of `w`. -/
def reservedAfter (o w : Nat) (d : Dev) : Nat :=
  if w &&& rkMask o = regP d o &&& rkMask o then regP d o &&& rkMask o
  else (Config.rkAfter o (u32 (regP d o)) (u32 w)).toNat &&& rkMask o

/-- The present value of a register after a write of `w`. -/
def presentAfter (o w : Nat) (d : Dev) : Nat :=
  (w &&& (accMask (fieldsAt o) .rw ||| accMask (fieldsAt o) .rws)) |||
    (regP d o &&& (0xFFFFFFFF - (accMask (fieldsAt o) .rw ||| accMask (fieldsAt o) .rws ||| rkMask o))) ||| reservedAfter o w d

/-- The applied value of a register after a write of `w`. -/
def appliedAfter (o w : Nat) (d : Dev) : Nat :=
  (w &&& accMask (fieldsAt o) .rw) ||| (regA d o &&& (0xFFFFFFFF - (accMask (fieldsAt o) .rw ||| rkMask o))) ||| reservedAfter o w d

theorem writePlain_eq (o w : Nat) (d : Dev) :
    writePlain o w d =
      if appliedAfter o w d = regA d o then setP o (presentAfter o w d) d
      else notePass o (guardWord d o) (setA o (appliedAfter o w d) (setP o (presentAfter o w d) d)) := rfl

theorem testBit_reservedAfter {o w b : Nat} {d : Dev} (h : (rkMask o).testBit b = false) :
    (reservedAfter o w d).testBit b = false := by
  unfold reservedAfter
  split <;> simp [h]

section Bits
variable {o w b : Nat} {d : Dev} (hb : b < 32) (hrk : (rkMask o).testBit b = false)
include hb hrk

theorem testBit_presentAfter : (presentAfter o w d).testBit b =
    if (accMask (fieldsAt o) .rw ||| accMask (fieldsAt o) .rws).testBit b then w.testBit b else (regP d o).testBit b := by
  have hlt : accMask (fieldsAt o) .rw ||| accMask (fieldsAt o) .rws ||| rkMask o < 2 ^ 32 :=
    Nat.or_lt_two_pow (Nat.or_lt_two_pow (accMask_lt o _) (accMask_lt o _)) (rkMask_lt o)
  rw [presentAfter, Nat.testBit_or, Nat.testBit_or, Nat.testBit_and, Nat.testBit_and, testBit_complement hlt hb,
    testBit_reservedAfter hrk, Nat.testBit_or _ (rkMask o), hrk]
  cases (accMask (fieldsAt o) .rw ||| accMask (fieldsAt o) .rws).testBit b <;> simp

theorem testBit_appliedAfter : (appliedAfter o w d).testBit b =
    if (accMask (fieldsAt o) .rw).testBit b then w.testBit b else (regA d o).testBit b := by
  have hlt : accMask (fieldsAt o) .rw ||| rkMask o < 2 ^ 32 := Nat.or_lt_two_pow (accMask_lt o _) (rkMask_lt o)
  rw [appliedAfter, Nat.testBit_or, Nat.testBit_or, Nat.testBit_and, Nat.testBit_and, testBit_complement hlt hb,
    testBit_reservedAfter hrk, Nat.testBit_or _ (rkMask o), hrk]
  cases (accMask (fieldsAt o) .rw).testBit b <;> simp

end Bits

/-! ### What reads after the write -/

/-- Noting the words of a pass leaves the registers. -/
theorem regP_notePass (o old q : Nat) (d : Dev) : regP (notePass o old d) q = regP d q := by
  unfold notePass
  split <;> rfl

theorem regA_notePass (o old q : Nat) (d : Dev) : regA (notePass o old d) q = regA d q := by
  unfold notePass
  split <;> rfl

/-- A write by access code touches the registers and the running pass only. -/
theorem writePlain_cmd (o w : Nat) (d : Dev) : (writePlain o w d).cmd = d.cmd ∧ (writePlain o w d).wr = d.wr := by
  rw [writePlain_eq]
  unfold notePass
  split
  · exact ⟨rfl, rfl⟩
  · split <;> exact ⟨rfl, rfl⟩

section Registers
variable {o : Nat} (w : Nat) {d : Dev} (hP : Sorted d) (hA : SortedA d)

include hP in
theorem writePlain_sorted : Sorted (writePlain o w d) := by
  rw [writePlain_eq]
  unfold notePass
  split
  · exact setP_sorted hP
  · split <;> exact setP_sorted hP

include hA in
theorem writePlain_sortedA : SortedA (writePlain o w d) := by
  rw [writePlain_eq]
  unfold notePass
  split
  · exact hA
  · split <;> exact setA_sorted hA

include hP in
theorem regP_writePlain_same : regP (writePlain o w d) o = presentAfter o w d % 2 ^ 32 := by
  rw [writePlain_eq]
  split
  · exact regP_setP_same hP
  · rw [regP_notePass, regP_setA, regP_setP_same hP]

include hA in
theorem regA_writePlain_same : regA (writePlain o w d) o = appliedAfter o w d % 2 ^ 32 := by
  rw [writePlain_eq]
  split
  · next h => rw [regA_setP, h, Nat.mod_eq_of_lt (regA_lt d o)]
  · rw [regA_notePass, regA_setA_same (d := setP o (presentAfter o w d) d) hA]

include hP hA in
theorem writePlain_ne {q : Nat} (hq : q ≠ o) :
    regP (writePlain o w d) q = regP d q ∧ regA (writePlain o w d) q = regA d q := by
  rw [writePlain_eq]
  split
  · exact ⟨regP_setP_ne hP hq, rfl⟩
  · rw [regP_notePass, regA_notePass, regP_setA, regP_setP_ne hP hq, regA_setA_ne (d := setP o _ d) hA hq, regA_setP]
    exact ⟨rfl, rfl⟩

end Registers

/-- The end of a command that stored nothing leaves what the applied registers read. -/
theorem regA_settle {d : Dev} (hr : d.cmd.resetting = []) (hw : d.wr = []) (hs : SortedA d) (s : State) (o : Nat) :
    regA (settle s d).dev o = regA d o := by
  rw [settle_plain s d hr (by simp [hw])]
  simp only [regA, regTab, smGet_smNorm hs]

/-- The blocks whose registers have effects of their own. -/
theorem regStore_plain {o : Nat} (h : o / 0x10000 ∉ [0, 1, 2, 8, 12, 14, 15, 17, 20, 21, 26]) (w : Nat) (d : Dev) :
    regStore o w d = writePlain o w d := by
  unfold regStore
  split
  case h_12 => rfl
  all_goals simp_all

/-- Settles O49: field by field, each mask disjoint from the reserved bits. -/
theorem fieldAccess : Obligations.FieldAccess := by
  refine fun o w s hup hinv hres h4 htable hpba hlow himpl hblock => ?_
  obtain ⟨_, hwr, hpresent, happlied, _⟩ := hinv
  have hP := sorted_of_wf hpresent
  have hA := sortedA_of_wf happlied
  obtain ⟨hcmd, hstored⟩ := writePlain_cmd o w.toNat s.dev
  have hreset : (writePlain o w.toNat s.dev).cmd.resetting = [] := hcmd ▸ hres
  have hnone : (writePlain o w.toNat s.dev).wr = [] := hstored.trans hwr
  have hreadP := regP_settle hreset hnone (writePlain_sorted w.toNat hP) s
  have hreadA := regA_settle hreset hnone (writePlain_sortedA w.toNat hA) s
  refine ⟨_, upRow_eq hup ((regWrite_regular h4 htable hpba hlow himpl w).trans (regStore_plain hblock _ _)), ?_, fun q hq => ?_⟩
  · intro b hb
    simp only [hreadP, hreadA, regP_writePlain_same _ hP, regA_writePlain_same _ hA, bitAt_eq_testBit, Nat.testBit_mod_two_pow, hb,
      decide_true, Bool.true_and, BitVec.getLsbD]
    refine ⟨fun hrw => ?_, fun hrws hrw => ?_, fun hro hrw hrws => ?_⟩
    · have hrk := testBit_rkMask_of_acc (by decide) hb hrw
      simp [testBit_presentAfter hb hrk, testBit_appliedAfter hb hrk, hrw]
    · have hrk := testBit_rkMask_of_acc (by decide) hb hrws
      simp [testBit_presentAfter hb hrk, testBit_appliedAfter hb hrk, hrw, hrws]
    · have hrk : (rkMask o).testBit b = false :=
        hro.elim (testBit_rkMask_of_acc (by decide) hb) (testBit_rkMask_of_acc (by decide) hb)
      simp [testBit_presentAfter hb hrk, hrw, hrws]
  · rw [hreadP, hreadA]
    exact writePlain_ne _ hP hA hq

end Sys2Proof.Machine


namespace Sys2Proof.Machine

/-!
PROOFS about a round of arbitration on the interconnect (R210, R211).
-/

/-! ### The requests served (R210) -/

/-- What a search finds stands before all else that it could find. -/
theorem idxOf_find_le {p : Nat → Bool} {l : List Nat} {a b : Nat} (ha : l.find? p = some a) (hb : p b = true) :
    l.idxOf a ≤ l.idxOf b := by
  induction l with
  | nil => simp at ha
  | cons x l ih =>
    cases hx : p x with
    | true =>
      rw [List.find?_cons_of_pos hx] at ha
      simp [Option.some.inj ha]
    | false =>
      rw [List.find?_cons_of_neg (by simp [hx])] at ha
      have hxa : x ≠ a := by rintro rfl; simp [List.find?_some ha] at hx
      have hxb : x ≠ b := by rintro rfl; simp [hb] at hx
      rw [List.idxOf_cons_ne _ hxa, List.idxOf_cons_ne _ hxb]
      exact Nat.succ_le_succ (ih ha)

theorem arbLevel_le (c : Nat) : arbLevel c ≤ 3 := by
  unfold arbLevel
  split_ifs <;> decide

theorem arbLevel_eq_three {c : Nat} : arbLevel c = 3 → c ∈ [3, 4, 5] := by
  unfold arbLevel
  split_ifs with h0 h1 h3
  · simp
  · simp
  · exact fun _ => List.elem_iff.mp h3
  · simp

/-- The requests of classes that are not paused. -/
def arbActive (paused : Nat → Bool) (rs : List ArbReq) : List ArbReq := rs.filter (fun r => !paused r.cls)

theorem mem_arbActive {paused : Nat → Bool} {rs : List ArbReq} {r : ArbReq} :
    r ∈ arbActive paused rs ↔ r ∈ rs ∧ paused r.cls = false := by
  simp [arbActive]

section Served
variable {paused : Nat → Bool} {order : List Nat} {rs : List ArbReq}

theorem arbServed_of_none (h : arbActive paused rs = []) : arbServed paused order rs = [] := by
  have hact : rs.filter (fun r => !paused r.cls) = [] := h
  simp [arbServed, hact]

theorem arbActive_ne_nil_of_mem {r : ArbReq} (h : r ∈ arbServed paused order rs) : arbActive paused rs ≠ [] := fun hnone => by
  simp [arbServed_of_none hnone] at h

/-- The level served is the highest that an active request has. -/
theorem exists_level (h : arbActive paused rs ≠ []) :
    ∃ l, [0, 1, 2, 3].find? (fun l => (arbActive paused rs).any (fun r => arbLevel r.cls = l)) = some l ∧
      ∀ q ∈ arbActive paused rs, l ≤ arbLevel q.cls := by
  obtain ⟨q, hq⟩ := List.exists_mem_of_ne_nil _ h
  have hany : ∀ r ∈ arbActive paused rs, (arbActive paused rs).any (fun x => arbLevel x.cls = arbLevel r.cls) = true :=
    fun r hr => List.any_eq_true.mpr ⟨r, hr, by simp⟩
  have hidx : ∀ l ≤ 3, [0, 1, 2, 3].idxOf l = l := by decide
  have hmem : ∀ l ≤ 3, l ∈ [0, 1, 2, 3] := by decide
  obtain ⟨l, hl⟩ : ∃ l, [0, 1, 2, 3].find? (fun l => (arbActive paused rs).any (fun r => arbLevel r.cls = l)) = some l :=
    Option.isSome_iff_exists.mp (List.find?_isSome.mpr ⟨_, hmem _ (arbLevel_le q.cls), hany q hq⟩)
  refine ⟨l, hl, fun r hr => ?_⟩
  have hle := idxOf_find_le hl (hany r hr)
  have hl3 : l ≤ 3 := (by decide : ∀ l ∈ [0, 1, 2, 3], l ≤ 3) l (List.mem_of_find?_eq_some hl)
  rwa [hidx _ hl3, hidx _ (arbLevel_le r.cls)] at hle

/-- Where the level served is one of the first three, all active requests of that level are served. -/
theorem arbServed_of_level {l : Nat} (hl : l ≠ 3)
    (hfind : [0, 1, 2, 3].find? (fun l => (arbActive paused rs).any (fun r => arbLevel r.cls = l)) = some l) :
    arbServed paused order rs = (arbActive paused rs).filter (fun r => arbLevel r.cls = l) := by
  unfold arbActive at hfind
  simp only [arbServed, hfind]
  rfl

/-- Where it is level 3, those of the class that the order names first. -/
theorem arbServed_of_class {c : Nat}
    (hfind : [0, 1, 2, 3].find? (fun l => (arbActive paused rs).any (fun r => arbLevel r.cls = l)) = some 3)
    (hclass : order.find? (fun c => (arbActive paused rs).any (fun r => r.cls = c)) = some c) :
    arbServed paused order rs = (arbActive paused rs).filter (fun r => r.cls = c) := by
  unfold arbActive at hfind hclass
  simp only [arbServed, hfind, hclass]
  rfl

/-- The requests served are the active ones of one level, the highest, and within level 3 of one class, the first. -/
theorem exists_arbServed (hall : ∀ c ∈ [3, 4, 5], c ∈ order) (honly : ∀ c ∈ order, c ∈ [3, 4, 5]) (h : arbActive paused rs ≠ []) :
    ∃ l c, (∀ q ∈ arbActive paused rs, l ≤ arbLevel q.cls) ∧
      (l = 3 → ∀ q ∈ arbActive paused rs, order.idxOf c ≤ order.idxOf q.cls) ∧ arbServed paused order rs ≠ [] ∧
      ∀ q, q ∈ arbServed paused order rs ↔ q ∈ arbActive paused rs ∧ arbLevel q.cls = l ∧ (l = 3 → q.cls = c) := by
  obtain ⟨l, hfind, hleast⟩ := exists_level h
  have hsome := List.find?_some hfind
  simp only [List.any_eq_true, decide_eq_true_eq] at hsome
  obtain ⟨r, hr, hlevel⟩ := hsome
  by_cases hl : l = 3
  · subst hl
    have hany : ∀ q ∈ arbActive paused rs, (arbActive paused rs).any (fun x => x.cls = q.cls) = true :=
      fun q hq => List.any_eq_true.mpr ⟨q, hq, by simp⟩
    obtain ⟨c, hclass⟩ : ∃ c, order.find? (fun c => (arbActive paused rs).any (fun r => r.cls = c)) = some c :=
      Option.isSome_iff_exists.mp (List.find?_isSome.mpr ⟨_, hall _ (arbLevel_eq_three hlevel), hany r hr⟩)
    have hlow : arbLevel c = 3 :=
      (by decide : ∀ c ∈ [3, 4, 5], arbLevel c = 3) c (honly c (List.mem_of_find?_eq_some hclass))
    have hnamed := List.find?_some hclass
    obtain ⟨x, hx, hxc⟩ := List.any_eq_true.mp hnamed
    rw [arbServed_of_class hfind hclass]
    refine ⟨3, c, hleast, fun _ q hq => idxOf_find_le hclass (hany q hq), List.ne_nil_of_mem (List.mem_filter.mpr ⟨hx, hxc⟩), fun q => ?_⟩
    rw [List.mem_filter, decide_eq_true_eq]
    exact ⟨fun ⟨hq, hc⟩ => ⟨hq, hc ▸ hlow, fun _ => hc⟩, fun ⟨hq, _, hc⟩ => ⟨hq, hc rfl⟩⟩
  · rw [arbServed_of_level hl hfind]
    refine ⟨l, 0, hleast, fun h3 => absurd h3 hl, List.ne_nil_of_mem (List.mem_filter.mpr ⟨hr, by simpa using hlevel⟩), fun q => ?_⟩
    rw [List.mem_filter, decide_eq_true_eq]
    exact ⟨fun ⟨hq, hc⟩ => ⟨hq, hc, fun h3 => absurd h3 hl⟩, fun ⟨hq, hc, _⟩ => ⟨hq, hc⟩⟩

end Served

/-! ### The leaf granted (R211) -/

/-- One step of a pick: the better of the child held and the next. -/
def betterChild (a : Option (Nat × Int)) (k : Nat × Int) : Option (Nat × Int) :=
  match a with
  | none => some k
  | some b => if b.2 < k.2 then some k else some b

theorem arbPick_eq (ks : List (Nat × Int)) : arbPick ks = (ks.foldl betterChild none).map (·.1) := rfl

theorem betterChild_or (a : Option (Nat × Int)) (k : Nat × Int) :
    betterChild a k = some k ∨ a.isSome = true ∧ betterChild a k = a := by
  unfold betterChild
  split
  · exact .inl rfl
  · split
    · exact .inl rfl
    · exact .inr ⟨rfl, rfl⟩

/-- A pick holds what it began with or one of the children. -/
theorem foldl_betterChild (ks : List (Nat × Int)) (a : Option (Nat × Int)) :
    ks.foldl betterChild a = a ∧ (a.isSome = true ∨ ks = []) ∨ ∃ k ∈ ks, ks.foldl betterChild a = some k := by
  induction ks generalizing a with
  | nil => exact .inl ⟨rfl, .inr rfl⟩
  | cons k ks ih =>
    rw [List.foldl_cons]
    rcases ih (betterChild a k) with ⟨hsame, _⟩ | ⟨x, hx, hpick⟩
    · rcases betterChild_or a k with hk | ⟨ha, hk⟩
      · exact .inr ⟨k, List.mem_cons_self, hsame.trans hk⟩
      · exact .inl ⟨hsame.trans hk, .inl ha⟩
    · exact .inr ⟨x, List.mem_cons_of_mem _ hx, hpick⟩

/-- A pick among some children is one of them. -/
theorem arbPick_mem (ks : List (Nat × Int)) : (arbPick ks = none → ks = []) ∧ ∀ c, arbPick ks = some c → ∃ k ∈ ks, k.1 = c := by
  rw [arbPick_eq]
  rcases foldl_betterChild ks none with ⟨hpick, hempty⟩ | ⟨k, hk, hpick⟩
  · rw [hpick]
    exact ⟨fun _ => hempty.resolve_left (by simp), by simp⟩
  · rw [hpick]
    exact ⟨by simp, fun c hc => ⟨k, hk, by simpa using hc⟩⟩

theorem arbWeight_ne_zero {act : List (List Nat)} {p : List Nat} : arbWeight act p ≠ 0 ↔ ∃ l ∈ act, p <+: l := by
  simp [arbWeight, List.countP_eq_zero]

theorem mem_arbKids {act : List (List Nat)} {cr : ArbCredits} {p : List Nat} {c : Nat} :
    (∃ k ∈ arbKids act cr p, k.1 = c) ↔ c < 64 ∧ ∃ l ∈ act, p ++ [c] <+: l := by
  simp [arbKids, arbWeight_ne_zero]

theorem arbNode_fst (act : List (List Nat)) (cr : ArbCredits) (p : List Nat) : (arbNode act cr p).1 = arbPick (arbKids act cr p) := by
  unfold arbNode
  dsimp only
  split <;> simp_all

/-- A descent from a node above a leaf ends at a leaf. -/
theorem arbDescend_mem {act : List (List Nat)} (hchild : ∀ l ∈ act, ∀ c ∈ l, c < 64) (n : Nat) (p : List Nat) (cr : ArbCredits)
    (hdeep : ∀ l ∈ act, l.length ≤ p.length + n) (habove : ∃ l ∈ act, p <+: l) : (arbDescend act n p cr).1 ∈ act := by
  induction n generalizing p cr with
  | zero =>
    obtain ⟨l, hl, hp⟩ := habove
    have hsame : p = l := hp.eq_of_length_le (hdeep l hl)
    exact hsame ▸ hl
  | succ n ih =>
    have hfst := arbNode_fst act cr p
    rw [arbDescend]
    obtain ⟨hnone, hsome⟩ := arbPick_mem (arbKids act cr p)
    split
    · next heq =>
      rw [heq] at hfst
      obtain ⟨l, hl, rest, rfl⟩ := habove
      cases rest with
      | nil => simpa using hl
      | cons c rest =>
        obtain ⟨k, hk, -⟩ := (mem_arbKids (cr := cr) (p := p)).mpr ⟨hchild _ hl c (by simp), _, hl, rest, by simp⟩
        simp [hnone hfst.symm] at hk
    · next c cr1 heq =>
      rw [heq] at hfst
      obtain ⟨-, hbelow⟩ := mem_arbKids.mp (hsome c hfst.symm)
      split
      · next hmem => exact List.elem_iff.mp hmem
      · exact ih _ _ (fun l hl => by simpa [Nat.add_assoc, Nat.add_comm 1] using hdeep l hl) hbelow

/-- Settles O55: the served requests by `exists_arbServed`, the grant by a descent that ends at a leaf of one of them. -/
theorem arbitrationRound : Obligations.ArbitrationRound := by
  intro paused order rs cr hall honly
  have hmem : ∀ c ∈ [3, 4, 5], c ∈ order := fun c hc => by simpa using List.all_eq_true.mp hall c hc
  have hclasses : ∀ c ∈ order, c ∈ [3, 4, 5] := fun c hc => by simpa using List.all_eq_true.mp honly c hc
  have hround : arbServed paused order rs ≠ [] → (arbRound paused order rs cr).1 =
      some (arbDescend ((arbServed paused order rs).map (·.path)).dedup 8 [] cr).1 := fun hne => by
    simp [arbRound, hne]
  refine ⟨fun r hr => ?_, fun r hr h3 q hq hqp => ?_, fun ⟨q, hq, hqp⟩ => ?_, fun hempty => by simp [arbRound, hempty], ?_⟩
  · obtain ⟨l, c, hleast, -, -, hserved⟩ := exists_arbServed hmem hclasses (arbActive_ne_nil_of_mem hr)
    obtain ⟨hract, rfl, hrc⟩ := (hserved r).mp hr
    obtain ⟨hrs, hrp⟩ := mem_arbActive.mp hract
    refine ⟨hrs, hrp, fun q hq hqp => ⟨hleast q (mem_arbActive.mpr ⟨hq, hqp⟩), ?_⟩⟩
    rw [hserved q, mem_arbActive]
    exact ⟨fun ⟨_, hlevel, hqc⟩ => ⟨hlevel, fun h3 => (hqc h3).trans (hrc h3).symm⟩,
      fun ⟨hlevel, hqr⟩ => ⟨⟨hq, hqp⟩, hlevel, fun h3 => (hqr h3).trans (hrc h3)⟩⟩
  · obtain ⟨l, c, -, hfirst, -, hserved⟩ := exists_arbServed hmem hclasses (arbActive_ne_nil_of_mem hr)
    obtain ⟨-, rfl, hrc⟩ := (hserved r).mp hr
    exact hrc h3 ▸ hfirst h3 q (mem_arbActive.mpr ⟨hq, hqp⟩)
  · obtain ⟨l, c, -, -, hne, -⟩ := exists_arbServed hmem hclasses (List.ne_nil_of_mem (mem_arbActive.mpr ⟨hq, hqp⟩))
    exact hne
  · intro hne hfit _
    have hleaf : ∀ l ∈ ((arbServed paused order rs).map (·.path)).dedup, l.length ≤ 8 ∧ ∀ c ∈ l, c < 64 := fun l hl => by
      obtain ⟨r, hr, rfl⟩ := List.mem_map.mp (List.mem_dedup.mp hl)
      exact hfit r hr
    obtain ⟨r, hr⟩ := List.exists_mem_of_ne_nil _ hne
    have hgrant := arbDescend_mem (fun l hl => (hleaf l hl).2) 8 [] cr (fun l hl => by simpa using (hleaf l hl).1)
      ⟨r.path, List.mem_dedup.mpr (List.mem_map_of_mem hr), List.nil_prefix⟩
    obtain ⟨x, hx, hpath⟩ := List.mem_map.mp (List.mem_dedup.mp hgrant)
    exact ⟨x, hx, by rw [hround hne, hpath]⟩

end Sys2Proof.Machine


namespace Sys2Proof.Machine

/-!
PROOFS about memory between two commands, and about commands that change only the state of their own chapter.
-/

/-- Settles O41: the commit of the log, and bytes stored that read back. -/
theorem memoryHoldsStores : Obligations.MemoryHoldsStores := by
  refine ⟨fun s d a hwf hreset hlow => ?_, fun a bs d => rdBytes_wrBytes_same⟩
  rw [settle_plain s d hreset hlow]
  exact memCommit_get s.dev.mem d.wr a hwf

/-! ### Network commands (R322–R337) -/

/-- The devices differ in the network's state, in registers and in counters only. -/
def NetOnly (e d : Dev) : Prop := ∃ tim rg ctrs, e = { d with tim := tim, rg := rg, cmd.counters := ctrs }

theorem NetOnly.refl (d : Dev) : NetOnly d d := ⟨_, _, _, rfl⟩

theorem NetOnly.trans {e f d : Dev} (h : NetOnly f e) (g : NetOnly e d) : NetOnly f d := by
  obtain ⟨_, _, _, rfl⟩ := h
  obtain ⟨_, _, _, rfl⟩ := g
  exact ⟨_, _, _, rfl⟩

theorem setPort_netOnly (p : Nat) (v : PtpPort) (d : Dev) : NetOnly (setPort p v d) d := ⟨_, _, _, rfl⟩
theorem setDom_netOnly (x : Nat) (v : PtpDom) (d : Dev) : NetOnly (setDom x v d) d := ⟨_, _, _, rfl⟩
theorem sendFrame_netOnly (f : TxFrame) (d : Dev) : NetOnly (sendFrame f d) d := ⟨_, _, _, rfl⟩
theorem dropFrame_netOnly (ptp : Bool) (d : Dev) : NetOnly (dropFrame ptp d) d := ⟨_, _, _, rfl⟩
theorem addDelay_netOnly (p : Nat) (trip : Int) (d : Dev) : NetOnly (addDelay p trip d) d := setPort_netOnly _ _ _

theorem ptpAnnounce_netOnly (h : PtpHdr) (prio1 cls accuracy variance prio2 gm steps : Nat) (d : Dev) :
    NetOnly (ptpAnnounce h prio1 cls accuracy variance prio2 gm steps d) d := by
  unfold ptpAnnounce
  split
  · exact .refl d
  · split
    · exact dropFrame_netOnly _ _
    · exact setDom_netOnly _ _ _

theorem ptpDelayReq_netOnly (h : PtpHdr) (d : Dev) : NetOnly (ptpDelayReq h d) d := by
  unfold ptpDelayReq
  split
  · exact .refl d
  · exact sendFrame_netOnly _ _

theorem ptpDelayResp_netOnly (h : PtpHdr) (secs ns : Nat) (d : Dev) : NetOnly (ptpDelayResp h secs ns d) d := by
  unfold ptpDelayResp
  dsimp only
  split
  · split
    · exact dropFrame_netOnly _ _
    · split
      · exact .refl d
      · exact (addDelay_netOnly _ _ _).trans (setPort_netOnly _ _ _)
  · exact .refl d

theorem ptpPdelayReq_netOnly (h : PtpHdr) (turn : Nat) (d : Dev) : NetOnly (ptpPdelayReq h turn d) d := by
  unfold ptpPdelayReq
  split
  · exact .refl d
  · exact sendFrame_netOnly _ _

theorem ptpPdelayResp_netOnly (h : PtpHdr) (twoStep : Bool) (d : Dev) : NetOnly (ptpPdelayResp h twoStep d) d := by
  unfold ptpPdelayResp
  dsimp only
  split
  · exact .refl d
  · split
    · exact .refl d
    · split
      · exact dropFrame_netOnly _ _
      · exact (addDelay_netOnly _ _ _).trans (setPort_netOnly _ _ _)

theorem ptpTransmit_netOnly (p kind : Nat) (d : Dev) : NetOnly (ptpTransmit p kind d) d := by
  have hsent : ∀ f v, NetOnly (sendFrame f (setPort p v d)) d := fun _ _ => (sendFrame_netOnly _ _).trans (setPort_netOnly _ _ _)
  have hasked : ∀ f v w, NetOnly (sendFrame f (setPort p v (setPort p w d))) d :=
    fun _ _ _ => ((sendFrame_netOnly _ _).trans (setPort_netOnly _ _ _)).trans (setPort_netOnly _ _ _)
  unfold ptpTransmit
  dsimp only
  split
  · exact .refl d
  · split
    case h_1 | h_2 =>
      split
      · exact hsent _ _
      · exact .refl d
    case h_3 | h_4 =>
      split
      · exact hasked _ _ _
      · exact .refl d

theorem arpRequest_netOnly (p : Nat) (addr : List Byte) (from_ : Nat) (d : Dev) : NetOnly (arpRequest p addr from_ d) d := by
  unfold arpRequest
  split
  · exact .refl d
  · split
    · exact sendFrame_netOnly _ _
    · exact dropFrame_netOnly _ _

theorem ethDrop_netOnly (p : Nat) (ptp : Bool) (d : Dev) : NetOnly (ethDrop p ptp d) d := by
  unfold ethDrop
  split
  · exact dropFrame_netOnly _ _
  · exact .refl d

theorem ethLink_netOnly (p speed : Nat) (d : Dev) : NetOnly (ethLink p speed d) d := ⟨_, _, _, rfl⟩

/-- Every network command acts on the device, and within its chapter. -/
theorem exec_netOnly {i : Instr} (h : netOnly i = true) : ∃ f, exec i = devRow f ∧ ∀ d, NetOnly (f d) d := by
  cases i with
  | announce => exact ⟨_, rfl, ptpAnnounce_netOnly _ _ _ _ _ _ _ _⟩
  | delayReq => exact ⟨_, rfl, ptpDelayReq_netOnly _⟩
  | delayResp => exact ⟨_, rfl, ptpDelayResp_netOnly _ _ _⟩
  | pdelayReq => exact ⟨_, rfl, ptpPdelayReq_netOnly _ _⟩
  | pdelayResp => exact ⟨_, rfl, ptpPdelayResp_netOnly _ _⟩
  | ptpMessageTransmit => exact ⟨_, rfl, ptpTransmit_netOnly _ _⟩
  | arpRequest => exact ⟨_, rfl, arpRequest_netOnly _ _ _⟩
  | ethernetFrameDrop => exact ⟨_, rfl, ethDrop_netOnly _ _⟩
  | ethernetLinkChange => exact ⟨_, rfl, ethLink_netOnly _ _⟩
  | _ => nomatch h

/-! ### Events of the always-on domain (R475–R485) -/

/-- The devices differ in the clock, in registers, in the recorder and in counters, messages and pauses only. -/
def ClockOnly (e d : Dev) : Prop := ∃ rtc rg grn pauses ctrs pba sent,
  e = { d with rtc := rtc, rg := rg, grn := grn, pln.pauses := pauses, cmd.counters := ctrs, cmd.pba := pba, cmd.sent := sent }

theorem ClockOnly.refl (d : Dev) : ClockOnly d d := ⟨_, _, _, _, _, _, _, rfl⟩

theorem ClockOnly.trans {e f d : Dev} (h : ClockOnly f e) (g : ClockOnly e d) : ClockOnly f d := by
  obtain ⟨_, _, _, _, _, _, _, rfl⟩ := h
  obtain ⟨_, _, _, _, _, _, _, rfl⟩ := g
  exact ⟨_, _, _, _, _, _, _, rfl⟩

theorem meetCeil_clockOnly (c : Nat) (d : Dev) : ClockOnly (meetCeil c d) d := by
  unfold meetCeil
  split
  · exact .refl d
  · split
    · exact .refl d
    · exact ⟨_, _, _, _, _, _, _, rfl⟩

theorem charge_clockOnly (c : Nat) (x : Currency) (n : Nat) (d : Dev) : ClockOnly (charge c x n d) d := by
  unfold charge
  split
  · exact (meetCeil_clockOnly _ _).trans ⟨_, _, _, _, _, _, _, rfl⟩
  · exact .refl d

theorem bump_clockOnly (g i n : Nat) (d : Dev) : ClockOnly (bump g i n d) d := ⟨_, _, _, _, _, _, _, rfl⟩
theorem orP_clockOnly (o m : Nat) (d : Dev) : ClockOnly (orP o m d) d := ⟨_, _, _, _, _, _, _, rfl⟩

theorem msixSend_clockOnly (v : Nat) (d : Dev) : ClockOnly (msixSend v d) d := by
  unfold msixSend
  split
  · exact .refl d
  · split
    · exact ⟨_, _, _, _, _, _, _, rfl⟩
    · exact ⟨_, _, _, _, _, _, _, rfl⟩

theorem raiseVec_clockOnly (v : Nat) (d : Dev) : ClockOnly (raiseVec v d) d :=
  (msixSend_clockOnly _ _).trans (orP_clockOnly _ _ _)

theorem evLose_clockOnly (d : Dev) : ClockOnly (evLose d) d := ⟨_, _, _, _, _, _, _, rfl⟩

theorem evWrite_clockOnly (e : EvReq) (d : Dev) : ClockOnly (evWrite e d) d := by
  unfold evWrite
  split
  · exact evLose_clockOnly d
  · exact (bump_clockOnly _ _ _ _).trans ((charge_clockOnly _ _ _ _).trans ⟨_, _, _, _, _, _, _, rfl⟩)

/-- What an event does to the recorder changes no chapter but its own. -/
theorem recordEvent_clockOnly (source code : Nat) (data : List Byte) (cmd : Option Nat) (d : Dev) :
    ClockOnly (recordEvent source code data cmd d) d := by
  have hpause : ClockOnly (if recorderPaused d then meetCeil 11 d else d) d := by
    split
    · exact meetCeil_clockOnly _ _
    · exact .refl d
  have hqueue : ∀ (e : EvReq) (x : Dev),
      ClockOnly (if x.grn.evq.length < 64 then { x with grn.evq := x.grn.evq ++ [e] } else evLose x) x := fun e x => by
    split
    · exact ⟨_, _, _, _, _, _, _, rfl⟩
    · exact evLose_clockOnly x
  unfold recordEvent
  dsimp only
  split
  · exact (hqueue _ _).trans hpause
  · exact evWrite_clockOnly _ _

theorem rtcEvent_clockOnly (code : Nat) (items : List Nat) (d : Dev) : ClockOnly (rtcEvent code items d) d := by
  unfold rtcEvent
  split
  · exact ⟨_, _, _, _, _, _, _, rfl⟩
  · exact recordEvent_clockOnly _ _ _ _ _

theorem trimCorrection_clockOnly (d : Dev) : ClockOnly (trimCorrection d) d := ⟨_, _, _, _, _, _, _, rfl⟩
theorem switchToVaon_clockOnly (d : Dev) : ClockOnly (switchToVaon d) d := ⟨_, _, _, _, _, _, _, rfl⟩

theorem unlockReady_clockOnly (d : Dev) : ClockOnly (unlockReady d) d := by
  unfold unlockReady
  split
  · exact .refl d
  · exact ⟨_, _, _, _, _, _, _, rfl⟩

theorem oscStop_clockOnly (d : Dev) : ClockOnly (oscStop d) d :=
  (rtcEvent_clockOnly _ _ _).trans ((bump_clockOnly _ _ _ _).trans (orP_clockOnly _ _ _))

/-- Every event of the always-on domain acts on the device, and within its chapter. -/
theorem exec_clockOnly {i : Instr} (h : clockOnly i = true) : ∃ f, exec i = devRow f ∧ ∀ d, ClockOnly (f d) d := by
  cases i with
  | trimCorrection => exact ⟨_, rfl, trimCorrection_clockOnly⟩
  | switchBackToVaon => exact ⟨_, rfl, switchToVaon_clockOnly⟩
  | unlockReady => exact ⟨_, rfl, unlockReady_clockOnly⟩
  | oscStopDetect => exact ⟨_, rfl, oscStop_clockOnly⟩
  | _ => nomatch h

/-! ### The end of such commands -/

section End
variable {s : State} (hinv : Inv s) (hres : noReset s)
include hinv hres

/-- The end of a command that stored nothing and left the rings changes the register tables only, to their canonical forms. -/
theorem settle_silent {e : Dev} (hmem : e.mem = s.dev.mem) (hwr : e.wr = s.dev.wr) (hreset : e.cmd.resetting = s.dev.cmd.resetting)
    (hrings : e.cmd.rings = s.dev.cmd.rings) :
    (settle s e).dev = { e with rg.present := smNorm none e.rg.present, rg.applied := smNorm none e.rg.applied } := by
  obtain ⟨_, hlog, _, _, hcanonical⟩ := hinv
  rw [settle_plain s e (hreset.trans hres) (by simp [hwr, hlog])]
  simp only [hwr, hlog, hrings, smNorm_id hcanonical, memCommit, List.foldr_nil]
  rw [← hmem, ← hrings, ← hlog, ← hwr]

theorem NetOnly.settle {e : Dev} (h : NetOnly e s.dev) : NetOnly (settle s e).dev s.dev := by
  refine NetOnly.trans ?_ h
  obtain ⟨_, _, _, he⟩ := h
  rw [settle_silent hinv hres (by rw [he]) (by rw [he]) (by rw [he]) (by rw [he])]
  exact ⟨_, _, _, rfl⟩

theorem ClockOnly.settle {e : Dev} (h : ClockOnly e s.dev) : ClockOnly (settle s e).dev s.dev := by
  refine ClockOnly.trans ?_ h
  obtain ⟨_, _, _, _, _, _, _, he⟩ := h
  rw [settle_silent hinv hres (by rw [he]) (by rw [he]) (by rw [he]) (by rw [he])]
  exact ⟨_, _, _, _, _, _, _, rfl⟩

end End

/-- Settles O60: each command's function stays within its chapter, and the end of the command changes the forms of tables only. -/
theorem chapterFrames : Obligations.ChapterFrames := by
  refine fun i s t hinv hres hexec => ⟨fun hnet => ?_, fun hclock => ?_⟩
  · obtain ⟨f, hf, honly⟩ := exec_netOnly hnet
    rw [hf] at hexec
    cases hexec
    obtain ⟨_, _, _, hdev⟩ := (honly s.dev).settle hinv hres
    rw [hdev]
  · obtain ⟨f, hf, honly⟩ := exec_clockOnly hclock
    rw [hf] at hexec
    cases hexec
    obtain ⟨_, _, _, _, _, _, _, hdev⟩ := (honly s.dev).settle hinv hres
    rw [hdev]

end Sys2Proof.Machine


namespace Sys2Proof.Machine

/-!
PROOFS about the commands that store no byte of memory.
-/

/-- A change of the device that stores no byte and completes no ring reset. -/
structure Silent (e d : Dev) : Prop where
  wr : e.wr = d.wr
  resetting : e.cmd.resetting = d.cmd.resetting

theorem Silent.refl (d : Dev) : Silent d d := ⟨rfl, rfl⟩

theorem Silent.trans {e f d : Dev} (h : Silent f e) (g : Silent e d) : Silent f d :=
  ⟨h.wr.trans g.wr, h.resetting.trans g.resetting⟩

theorem NetOnly.silent {e d : Dev} (h : NetOnly e d) : Silent e d := by
  obtain ⟨_, _, _, rfl⟩ := h
  exact ⟨rfl, rfl⟩

theorem ClockOnly.silent {e d : Dev} (h : ClockOnly e d) : Silent e d := by
  obtain ⟨_, _, _, _, _, _, _, rfl⟩ := h
  exact ⟨rfl, rfl⟩

/-- Memory reads as before once a command that stored nothing has ended. -/
theorem Silent.rdB_settle {s : State} {e : Dev} (hinv : Inv s) (hres : noReset s) (h : Silent e s.dev) (a : Nat) :
    rdB (settle s e).dev a = rdB s.dev a := by
  obtain ⟨_, hlog, _⟩ := hinv
  rw [settle_plain s e (h.resetting.trans hres) (by simp [h.wr, hlog]), h.wr, rdB, rdB, hlog]
  rfl

/-! ### Registers -/

theorem writePlain_silent (o w : Nat) (d : Dev) : Silent (writePlain o w d) d :=
  ⟨(writePlain_cmd o w d).2, congrArg (·.resetting) (writePlain_cmd o w d).1⟩

theorem winBaseWrite_silent (w : Nat) (d : Dev) : Silent (winBaseWrite w d) d :=
  have h := writePlain_silent Reg.sysWinBaseLo w d
  ⟨h.wr, h.resetting⟩

theorem hostBaseWrite_silent (w : Nat) (d : Dev) : Silent (hostBaseWrite w d) d := by
  unfold hostBaseWrite
  split
  · exact ⟨rfl, rfl⟩
  · have h := writePlain_silent Reg.sysHostBaseLo w d
    exact ⟨h.wr, h.resetting⟩

/-! ### CAN buffers and queues (R392, R393, R396) -/

theorem canRelease_silent (n m : Nat) (d : Dev) : Silent (canRelease n m d) d := by
  unfold canRelease
  dsimp only
  split
  · exact ⟨rfl, rfl⟩
  · split <;> exact ⟨rfl, rfl⟩

theorem canPop_silent (n k : Nat) (d : Dev) : Silent (canPop n k d) d := by
  unfold canPop
  split
  · exact .refl d
  · exact ⟨rfl, rfl⟩

theorem canTakeup_silent (n : Nat) (d : Dev) : Silent (canTakeup n d) d := by
  unfold canTakeup
  dsimp only
  split
  · exact .refl d
  · exact ⟨rfl, rfl⟩

/-! ### Pins (R352–R356) -/

theorem pwmPeriodStart_silent (n : Nat) (d : Dev) : Silent (pwmPeriodStart n d) d := by
  unfold pwmPeriodStart
  split
  · exact ⟨rfl, rfl⟩
  · exact .refl d

theorem pulseEdge_silent (n : Nat) (rising : Bool) (d : Dev) : Silent (pulseEdge n rising d) d := by
  unfold pulseEdge
  dsimp only
  generalize (bitAt (regA d (Reg.ioxPiCfg n)) 31 && _ && _) = counts
  cases counts <;> exact ⟨rfl, rfl⟩

theorem discardPulses_silent (d : Dev) : Silent (discardPulses d) d := by
  unfold discardPulses
  refine List.foldlRecOn (motive := fun e => Silent e d) _ _ (.refl d) fun e h n _ => Silent.trans ?_ h
  dsimp only
  split
  · exact ⟨rfl, rfl⟩
  · exact .refl e

theorem holdChange_silent (ext sense : Bool) (d : Dev) : Silent (holdChange ext sense d) d := by
  unfold holdChange
  dsimp only
  split
  · exact (discardPulses_silent _).trans ⟨rfl, rfl⟩
  · exact ⟨rfl, rfl⟩

/-! ### The serial port (R76–R79) -/

theorem spiCount_silent (err : Bool) (d : Dev) : Silent (spiCount err d) d := by
  cases err <;> exact ⟨rfl, rfl⟩

theorem spiWrite_silent (a : Nat) (bs : List Byte) (d : Dev) : Silent (spiWrite a bs d) d := by
  unfold spiWrite
  split <;> exact (spiCount_silent _ _).trans ⟨rfl, rfl⟩

theorem spiStatus_silent (d : Dev) : Silent (spiStatus d) d := (spiCount_silent _ _).trans ⟨rfl, rfl⟩
theorem spiUnknown_silent (d : Dev) : Silent (spiUnknown d) d := (spiCount_silent _ _).trans ⟨rfl, rfl⟩

/-! ### Telemetry, the reference and the Silo (R17, R335–R337, R453) -/

theorem telemetry_silent (p dport : Nat) (src dst b : List Byte) (d : Dev) : Silent (telemetry p dport src dst b d) d := by
  unfold telemetry
  dsimp only
  split
  · exact .refl d
  · split
    · exact (dropFrame_netOnly _ _).silent
    · split
      · exact ⟨rfl, rfl⟩
      · split <;> exact ⟨rfl, rfl⟩

theorem referenceLoss_silent (d : Dev) : Silent (referenceLoss d) d := by
  unfold referenceLoss
  split
  · exact .refl d
  · exact (raiseVec_clockOnly _ _).silent.trans ⟨rfl, rfl⟩

theorem referenceRelock_silent (d : Dev) : Silent (referenceRelock d) d := by
  unfold referenceRelock
  split
  · exact .refl d
  · exact ⟨rfl, rfl⟩

theorem drbgReseed_silent (d : Dev) : Silent (drbgReseed d) d := by
  unfold drbgReseed
  split
  · exact .refl d
  · exact ⟨rfl, rfl⟩

theorem entropyFailure_silent (d : Dev) : Silent (entropyFailure d) d := by
  unfold entropyFailure
  split
  · exact ⟨rfl, rfl⟩
  · exact ((recordEvent_clockOnly _ _ _ _ _).trans (raiseVec_clockOnly _ _)).silent.trans ⟨rfl, rfl⟩

/-! ### The commands -/

/-- A row of the device whose function stores nothing. -/
theorem devRow_silent {f : Dev → Dev} (hf : ∀ d, Silent (f d) d) (s : State) :
    ∃ e, devRow f s = .next (settle s e) ∧ Silent e s.dev := ⟨_, rfl, hf s.dev⟩

/-- A row of a device that can be reached, whose function stores nothing. -/
theorem upRow_silent {f : Dev → Dev} (hf : ∀ d, Silent (f d) d) (s : State) :
    ∃ e, upRow f s = .next (settle s e) ∧ Silent e s.dev := by
  refine devRow_silent (fun d => ?_) s
  unfold whenUp
  split
  · exact hf d
  · exact .refl d

/-- What each of the commands makes of the device stores nothing. -/
theorem exec_silent {i : Instr} (h : storesNothing i = true) (s : State) :
    ∃ e, exec i s = .next (settle s e) ∧ Silent e s.dev := by
  by_cases hnet : netOnly i = true
  · obtain ⟨f, hf, honly⟩ := exec_netOnly hnet
    rw [hf]
    exact devRow_silent (fun d => (honly d).silent) s
  by_cases hclock : clockOnly i = true
  · obtain ⟨f, hf, honly⟩ := exec_clockOnly hclock
    rw [hf]
    exact devRow_silent (fun d => (honly d).silent) s
  cases i with
  | updateStrobe => exact upRow_silent (f := armStrobe) (fun _ => ⟨rfl, rfl⟩) s
  | commitAtStrobe => exact upRow_silent (f := commitAtStrobe) (fun _ => ⟨rfl, rfl⟩) s
  | captureNextPass => exact upRow_silent (f := captureNext) (fun _ => ⟨rfl, rfl⟩) s
  | canLockBuffer => exact upRow_silent (f := canLock _ _) (fun _ => ⟨rfl, rfl⟩) s
  | timAlarmArm => exact upRow_silent (f := armAlarm _ _) (fun _ => ⟨rfl, rfl⟩) s
  | adcStartWrite => exact upRow_silent (f := adcStartReg _) (fun _ => ⟨rfl, rfl⟩) s
  | winBaseWrite => exact upRow_silent (winBaseWrite_silent _) s
  | hostBaseWrite => exact upRow_silent (hostBaseWrite_silent _) s
  | canReleaseBuffer => exact upRow_silent (canRelease_silent _ _) s
  | canFifoPop => exact upRow_silent (canPop_silent _ _) s
  | canTimingTakeup => exact devRow_silent (canTakeup_silent _) s
  | pwmPeriodStart => exact devRow_silent (pwmPeriodStart_silent _) s
  | pulseInputEdge => exact devRow_silent (pulseEdge_silent _ _) s
  | holdNChange => exact devRow_silent (holdChange_silent _ _) s
  | spiWrite => exact upRow_silent (spiWrite_silent _ _) s
  | spiStatus => exact upRow_silent spiStatus_silent s
  | spiUnknownInstruction => exact upRow_silent spiUnknown_silent s
  | telemetryDatagram => exact devRow_silent (telemetry_silent _ _ _ _ _) s
  | referenceLoss => exact devRow_silent referenceLoss_silent s
  | referenceRelock => exact devRow_silent referenceRelock_silent s
  | drbgReseed => exact devRow_silent drbgReseed_silent s
  | entropyTestFailure => exact devRow_silent entropyFailure_silent s
  | announce | delayReq | delayResp | pdelayReq | pdelayResp | ptpMessageTransmit | arpRequest | ethernetFrameDrop
  | ethernetLinkChange => exact absurd rfl hnet
  | trimCorrection | switchBackToVaon | unlockReady | oscStopDetect => exact absurd rfl hclock
  | _ => nomatch h

/-- Settles O56. -/
theorem exec_storesNothing : Obligations.StoresNothing := by
  intro i s t hinv hres hnone hexec a
  obtain ⟨e, he, hsilent⟩ := exec_silent hnone s
  rw [he] at hexec
  cases hexec
  exact hsilent.rdB_settle hinv hres a

end Sys2Proof.Machine


namespace Sys2Proof.Machine

/-!
PROOFS about the frame of a command's stores: which keys the address map gives, what leaves a byte of memory, and the writes
through a window (R35, R40).
-/

/-! ### Keys of memory lie below the register mirror (R33) -/

theorem opBuf_lt (b : Nat) : opBuf b < 0x40000000 := by
  unfold opBuf
  split
  · omega
  · split <;> omega

theorem tentTarget_lt {d : Dev} {a : Nat} (h : a < 0x200000000) : tentTarget d a < 0x300000000 := by
  have hbuf := opBuf_lt
  unfold tentTarget
  dsimp only
  split
  · have := hbuf d.ra.resBuf
    omega
  · split
    · split
      · omega
      · split
        · next p _ =>
          have hwork := hbuf p.buf
          have hslot := hbuf (p.slot + 1)
          split <;> omega
        · omega
    · omega

theorem ownTarget_lt {d : Dev} {a key : Nat} (h : ownTarget d a = .key key) : key < mirrorIn := by
  have hbig : 0x2000000000 < mirrorIn := by decide
  unfold ownTarget at h
  split at h
  · next ha =>
    cases h
    exact (tentTarget_lt ha).trans (lt_trans (by decide) hbig)
  · split at h
    · cases h
      omega
    · split at h
      · split at h
        · cases h
        · cases h
          omega
      · cases h

/-- An address that leads to memory leads to a key below the register mirror. -/
theorem target_lt {d : Dev} {a key : Nat} (h : target d a = .key key) : key < mirrorIn := by
  have hhost : hostKey + 2 ^ 64 < mirrorIn := by decide
  have hbig : 0xC400000000 < mirrorIn := by decide
  unfold target at h
  dsimp only at h
  split at h
  · cases h
  · split at h
    · rw [← Target.key.inj h]
      exact (Nat.add_lt_add_left (Nat.mod_lt _ (Nat.two_pow_pos 64)) hostKey).trans hhost
    · split at h
      · next hwin =>
        split at h
        · cases h
        · split at h
          · cases h
          · split at h
            · exact ownTarget_lt h
            · cases h
              omega
      · exact ownTarget_lt h

/-! ### What leaves a byte of memory -/

/-- A change of the device that stores no byte at key `a`, none in the register mirror, and completes no ring reset. -/
structure LeavesByte (a : Nat) (e d : Dev) : Prop where
  low : (∀ w ∈ d.wr, w.1 < mirrorIn) → ∀ w ∈ e.wr, w.1 < mirrorIn
  log : logFind e.wr a = logFind d.wr a
  resetting : e.cmd.resetting = d.cmd.resetting

section LeavesByte
variable {a : Nat} {d e f : Dev}

theorem Silent.leaves (h : Silent e d) : LeavesByte a e d := ⟨fun hd => h.wr ▸ hd, by rw [h.wr], h.resetting⟩

theorem LeavesByte.refl (a : Nat) (d : Dev) : LeavesByte a d d := (Silent.refl d).leaves

theorem LeavesByte.trans (h : LeavesByte a f e) (g : LeavesByte a e d) : LeavesByte a f d :=
  ⟨fun hd => h.low (g.low hd), h.log.trans g.log, h.resetting.trans g.resetting⟩

/-- A byte stored at another key of memory. -/
theorem wrB_leaves {k : Nat} (b : Byte) (hlow : k < mirrorIn) (hne : k ≠ a) : LeavesByte a (wrB d k b) d where
  low hd w hw := by
    rcases List.mem_cons.mp hw with rfl | hw
    · exact hlow
    · exact hd w hw
  log := by simp [wrB, logFind, hne]
  resetting := rfl

/-- Bytes stored at device addresses that lead to other keys of memory. -/
theorem wrBytes_leaves {p : Nat} {bs : List Byte} (hkey : ∀ k, k < bs.length → ∃ key, target d (p + k) = .key key)
    (hne : ∀ k, k < bs.length → target d (p + k) ≠ .key a) : LeavesByte a (wrBytes p bs d) d := by
  induction bs generalizing p d with
  | nil => exact .refl a d
  | cons b bs ih =>
    have hnext : ∀ k, p + 1 + k = p + (k + 1) := by omega
    obtain ⟨key, hk⟩ := hkey 0 (Nat.succ_pos _)
    have hne0 := hne 0 (Nat.succ_pos _)
    rw [Nat.add_zero] at hk hne0
    have hother : key ≠ a := fun h => hne0 (h ▸ hk)
    rw [wrBytes, hk]
    refine LeavesByte.trans (ih ?_ ?_) (wrB_leaves b (target_lt hk) hother)
    · intro k hlt
      rw [target_wrB, hnext]
      exact hkey (k + 1) (Nat.succ_lt_succ hlt)
    · intro k hlt
      rw [target_wrB, hnext]
      exact hne (k + 1) (Nat.succ_lt_succ hlt)

/-- The byte reads as before when a command that left it has ended. -/
theorem LeavesByte.rdB_settle {s : State} (hinv : Inv s) (hres : noReset s) (h : LeavesByte a e s.dev) :
    rdB (settle s e).dev a = rdB s.dev a := by
  obtain ⟨hwf, hlog, _⟩ := hinv
  rw [settle_plain s e (h.resetting.trans hres) (h.low (by simp [hlog])), rdB, rdB, hlog]
  simp only [logFind]
  rw [memCommit_get _ _ _ hwf, h.log, hlog]
  rfl

end LeavesByte

/-! ### Windows (R35, R40) -/

theorem meetCeil_silent (c : Nat) (d : Dev) : Silent (meetCeil c d) d := (meetCeil_clockOnly c d).silent
theorem charge_silent (c : Nat) (x : Currency) (n : Nat) (d : Dev) : Silent (charge c x n d) d := (charge_clockOnly c x n d).silent

/-- A write through BAR2 is stored at once or held; either way no other byte changes. -/
theorem bar2Access_write_leaves {x len a : Nat} {data : List Byte} {d : Dev}
    (hreach : winReaches d (winBase d + x) data.length true = true)
    (hkey : ∀ k, k < data.length → ∃ key, target d (winBase d + x + k) = .key key)
    (hne : ∀ k, k < data.length → target d (winBase d + x + k) ≠ .key a) : LeavesByte a (bar2Access x true len data d) d := by
  simp only [bar2Access, if_true, bar2Write, hreach]
  by_cases hfree : classStops d 15 = false ∧ d.cmd.bar2 = []
  · rw [bar2Take_free hfree]
    exact (charge_silent _ _ _ _).leaves.trans (wrBytes_leaves hkey hne)
  · rw [bar2Take_held hfree]
    have hheld : Silent { d with cmd.bar2 := d.cmd.bar2 ++ [⟨winBase d + x, data.length, some data⟩] } d := ⟨rfl, rfl⟩
    exact ((meetCeil_silent _ _).trans hheld).leaves

/-- A write through the Trellis window of this unit. -/
theorem windowTraffic_write_leaves {x len a : Nat} {data : List Byte} {d : Dev} (hown : ownAddr d ≠ 0) (hconf : addrConflict d = false)
    (hmode : d.sys.mode ≠ .backup) (hx : x < 0x400000000)
    (hmap : mapped d (0x8000000000 + ownAddr d * 0x400000000 + x) data.length = true)
    (hkey : ∀ k, k < data.length → ∃ key, target d (0x8000000000 + ownAddr d * 0x400000000 + x + k) = .key key)
    (hne : ∀ k, k < data.length → target d (0x8000000000 + ownAddr d * 0x400000000 + x + k) ≠ .key a) :
    LeavesByte a (windowTraffic x true len (.access data) d) d := by
  have hstore : windowTraffic x true len (.access data) d = wrBytes (0x8000000000 + ownAddr d * 0x400000000 + x) data d := by
    simp only [windowTraffic, windowAccess, hown, hconf, hmode, hmap, Nat.not_le.mpr hx, Bool.not_true, Bool.false_eq_true,
      or_self, if_false, if_true]
  rw [hstore]
  exact wrBytes_leaves hkey hne

/-- Settles O58. -/
theorem windowWritesFrame : Obligations.WindowWritesFrame := by
  refine fun x data s t a hinv hres => ⟨?_, ?_⟩
  · rintro w len hup rfl hreach hexec hkey hne
    rw [show exec (.bar2Access x true len data) s = _ from upRow_up hup] at hexec
    cases hexec
    exact (bar2Access_write_leaves hreach hkey hne).rdB_settle hinv hres
  · rintro w len hown hconf hmode hx rfl hmap hexec hkey hne
    cases hexec
    exact (windowTraffic_write_leaves hown hconf hmode hx hmap hkey hne).rdB_settle hinv hres

end Sys2Proof.Machine


namespace Sys2Proof.Machine

/-!
PROOFS about the bytes that a packet stores: its entry, the buffer of a command that writes one, and its completion.
-/

/-! ### The completion (R46, R59, R63) -/

/-- The command interface takes note of a completion: nothing is stored, and the commands in flight stand. -/
structure Noted (e d : Dev) : Prop extends Silent e d where
  cmds : e.cmd.cmds = d.cmd.cmds

theorem Noted.trans {e f d : Dev} (h : Noted f e) (g : Noted e d) : Noted f d :=
  ⟨h.toSilent.trans g.toSilent, h.cmds.trans g.cmds⟩

theorem setRing_noted (n : Nat) (r : Ring) (d : Dev) : Noted (setRing n r d) d := ⟨⟨rfl, rfl⟩, rfl⟩

theorem msixSend_noted (v : Nat) (d : Dev) : Noted (msixSend v d) d := by
  obtain ⟨_, _, _, h⟩ := msixSend_frame v d
  rw [h]
  exact ⟨⟨rfl, rfl⟩, rfl⟩

theorem Counted.noted {e d : Dev} (h : Counted e d) : Noted e d := by
  obtain ⟨_, rfl⟩ := h
  exact ⟨⟨rfl, rfl⟩, rfl⟩

theorem ringMessage_noted (n : Nat) (notify : Bool) (d : Dev) : Noted (ringMessage n notify d) d := by
  have hsend : ∀ r, Noted (msixSend n (setRing n r d)) d := fun r => (msixSend_noted n _).trans (setRing_noted n r d)
  unfold ringMessage
  dsimp only
  split
  · split
    · split
      · exact setRing_noted _ _ _
      · exact hsend _
    · exact hsend _
  · exact ⟨.refl d, rfl⟩

theorem cplEvent_noted (n : Nat) (d : Dev) : Noted (cplEvent n d) d := by
  unfold cplEvent
  split <;> exact ⟨⟨rfl, rfl⟩, rfl⟩

theorem ringFails_noted (n : Nat) (d : Dev) : Noted (ringFails n d) d := by
  refine (msixSend_noted 69 _).trans ⟨⟨rfl, rfl⟩, rfl⟩

section Completion
variable {a n : Nat} {d : Dev} (hkey : ∀ k, k < 32 → ∃ key, target d (cplAddr (ringOf d n) + k) = .key key)
  (hne : ∀ k, k < 32 → target d (cplAddr (ringOf d n) + k) ≠ .key a)
include hkey hne

/-- A completion stores into its entry alone. -/
theorem postCpl_leaves (c : Cpl) : LeavesByte a (postCpl n c d) d ∧ (postCpl n c d).cmd.cmds = d.cmd.cmds := by
  have hnoted : ∀ {e}, Noted e d → LeavesByte a e d ∧ e.cmd.cmds = d.cmd.cmds := fun h => ⟨h.toSilent.leaves, h.cmds⟩
  unfold postCpl
  dsimp only
  split
  · exact hnoted (setRing_noted _ _ _)
  · split
    · exact ⟨.refl a d, rfl⟩
    · split
      · exact hnoted (ringFails_noted _ _)
      · split
        · exact hnoted (setRing_noted _ _ _)
        · rw [writeCpl_eq]
          have hstored := wrBytes_leaves (bs := cplBytes c (ringOf d n).phase) (by rwa [length_cplBytes]) (by rwa [length_cplBytes])
          have hafter := fun e => ((ringMessage_noted n c.notify _).trans ((cplEvent_noted n _).trans
            ((countCpl_counted n c.status _).noted.trans (setRing_noted n (ringOf d n).pushed e))))
          refine ⟨(hafter _).toSilent.leaves.trans hstored, (hafter _).cmds.trans ?_⟩
          rw [wrBytes_cmd]

end Completion

/-- The device when a command has left those in flight. -/
theorem departed_silent (c : Cmd) (x : Res) (d : Dev) :
    Silent (departed c x d) d ∧ (departed c x d).cmd.cmds = d.cmd.cmds.filter (fun e => e.id ≠ c.id) := by
  obtain ⟨ctrs, h⟩ := departed_counted c x d
  rw [h]
  exact ⟨⟨rfl, rfl⟩, rfl⟩

/-- The only command in flight completes by storing into its completion entry alone. -/
theorem complete_leaves {a : Nat} {x : Res} {c : Cmd} {d : Dev} (hs : smAbove none d.cmd.rings = true) (hcmds : d.cmd.cmds = [c])
    (hring : c.ringless = false) (hst : x.status ≠ stInternal)
    (hkey : ∀ k, k < 32 → ∃ key, target d (cplAddr (ringOf d c.pkt.ring.val) + k) = .key key)
    (hne : ∀ k, k < 32 → target d (cplAddr (ringOf d c.pkt.ring.val) + k) ≠ .key a) : LeavesByte a (complete c.id x d) d := by
  obtain ⟨l, hr⟩ := ringOf_departed c x hs c.pkt.ring.val
  obtain ⟨hgone, hleft⟩ := departed_silent c x d
  have hmap := (departed_sameMap c x d).target_eq
  obtain ⟨hpost, hnone⟩ := postCpl_leaves (a := a) (n := c.pkt.ring.val) (d := departed c x d) (by rw [hr, hmap]; exact hkey)
    (by rw [hr, hmap]; exact hne) (lastCpl c x d)
  have hfind : findCmd d c.id = some c := by simp [findCmd, hcmds]
  rw [hleft, hcmds] at hnone
  simp only [complete, hfind, complete1_eq hring hst]
  rw [releaseFences_of_no_fence (by simp [hnone])]
  exact hpost.trans hgone.leaves

/-! ### The entry (R45, R53) -/

theorem fetch_sameMap (p : Pkt) (d : Dev) : SameMap (fetch p d) d := ⟨rfl, rfl, rfl, rfl, rfl, rfl, rfl, rfl⟩
theorem fetch_silent (p : Pkt) (d : Dev) : Silent (fetch p d) d := ⟨rfl, rfl⟩
theorem setRing_sameMap (n : Nat) (r : Ring) (d : Dev) : SameMap (setRing n r d) d := ⟨rfl, rfl, rfl, rfl, rfl, rfl, rfl, rfl⟩

theorem noteAccepted_sameMap (sp : OpSpec) (p : Pkt) (d : Dev) : SameMap (noteAccepted sp p d) d :=
  ⟨rfl, rfl, rfl, rfl, rfl, rfl, rfl, rfl⟩

theorem noteAccepted_silent (sp : OpSpec) (p : Pkt) (d : Dev) : Silent (noteAccepted sp p d) d := ⟨rfl, rfl⟩

/-- A fetched entry becomes a command in flight. -/
theorem fetch_cmds (p : Pkt) (d : Dev) :
    (fetch p d).cmd.cmds = d.cmd.cmds ++ [{ id := d.cmd.nextId, pkt := p, phase := .active, cls := pktClass p d, ringless := false }] :=
  rfl

/-- A fetch leaves the ring's completion pointers. -/
theorem fetch_rings (p : Pkt) {d : Dev} (hs : smAbove none d.cmd.rings = true) :
    smAbove none (fetch p d).cmd.rings = true ∧ cplAddr (ringOf (fetch p d) (ringN p)) = cplAddr (ringOf d (ringN p)) := by
  refine ⟨smSet_sorted hs, ?_⟩
  show cplAddr (smGet Ring.reset (smSet Ring.reset d.cmd.rings (ringN p) _) (ringN p)) = _
  rw [smGet_smSet_same hs]
  rfl

section Packet
variable {sp : OpSpec} {p : Pkt} {s : State} {a : Nat} (hbuf : sp.bufUse = .write)
include hbuf

/-- A command that writes a buffer reads nothing of the register mirror. -/
theorem begun_output : begun sp p s = noteAccepted sp p (fetch p (placeEntry p s.dev)) := by
  simp [begun, mirrored, fetched, placed, stageMirror, hbuf]

theorem begun_cmds (h : s.dev.cmd.cmds = []) :
    ∃ c, (begun sp p s).cmd.cmds = [c] ∧ c.id = s.dev.cmd.nextId ∧ c.pkt = p ∧ c.ringless = false := by
  rw [begun_output hbuf, noteAccepted_cmd, fetch_cmds, placeEntry_cmds, h, List.nil_append]
  refine ⟨_, rfl, ?_, rfl, rfl⟩
  dsimp only
  rw [placeEntry_nextId]

theorem begun_target : target (begun sp p s) = target s.dev := by
  rw [begun_output hbuf, (noteAccepted_sameMap _ _ _).target_eq, (fetch_sameMap _ _).target_eq, placeEntry, target_wrBytes]
  exact (setRing_sameMap _ _ _).target_eq

theorem begun_rings (hinv : Inv s) : smAbove none (begun sp p s).cmd.rings = true ∧
    cplAddr (ringOf (begun sp p s) (ringN p)) = cplAddr (ringOf s.dev (ringN p)) := by
  obtain ⟨_, _, _, _, hrings⟩ := hinv
  have hs : smAbove none s.dev.cmd.rings = true := (Bool.and_eq_true_iff.mp hrings).1
  have hplaced : smAbove none (placeEntry p s.dev).cmd.rings = true := by
    rw [placeEntry, wrBytes_cmd]
    exact smSet_sorted hs
  obtain ⟨hsorted, haddr⟩ := fetch_rings p hplaced
  have hring : ringOf (begun sp p s) (ringN p) = ringOf (fetch p (placeEntry p s.dev)) (ringN p) := by
    rw [begun_output hbuf, ringOf, noteAccepted_cmd, ringOf]
  rw [hring, haddr, ringOf_placeEntry, begun_output hbuf, noteAccepted_cmd]
  exact ⟨hsorted, rfl⟩

/-- Up to its own effect a packet stores its entry alone. -/
theorem begun_leaves
    (hkey : ∀ k, k < 64 → ∃ key, target s.dev (entryAddr (ringOf s.dev (ringN p)) (ringOf s.dev (ringN p)).filled + k) = .key key)
    (hne : ∀ k, k < 64 → target s.dev (entryAddr (ringOf s.dev (ringN p)) (ringOf s.dev (ringN p)).filled + k) ≠ .key a) :
    LeavesByte a (begun sp p s) s.dev := by
  have hmap : target (modRing (ringN p) (fun r => { r with filled := r.filled + 1 }) s.dev) = target s.dev :=
    (setRing_sameMap _ _ _).target_eq
  have hentry : LeavesByte a (placeEntry p s.dev) s.dev :=
    (wrBytes_leaves (by rw [length_pktBytes, hmap]; exact hkey) (by rw [length_pktBytes, hmap]; exact hne)).trans
      (setRing_noted (ringN p) _ s.dev).toSilent.leaves
  rw [begun_output hbuf]
  exact ((noteAccepted_silent _ _ _).trans (fetch_silent _ _)).leaves.trans hentry

end Packet

/-! ### The buffer -/

/-- A command's own effect stores its buffer and leaves the rings, the commands in flight and the address map. -/
structure Output (a : Nat) (e d : Dev) : Prop extends LeavesByte a e d where
  cmds : e.cmd.cmds = d.cmd.cmds
  rings : e.cmd.rings = d.cmd.rings
  map : target e = target d

theorem Output.trans {a : Nat} {e f d : Dev} (h : Output a f e) (g : Output a e d) : Output a f d :=
  ⟨h.toLeavesByte.trans g.toLeavesByte, h.cmds.trans g.cmds, h.rings.trans g.rings, h.map.trans g.map⟩

theorem Counted.output {e d : Dev} (h : Counted e d) (a : Nat) : Output a e d := by
  obtain ⟨_, rfl⟩ := h
  exact ⟨Silent.leaves ⟨rfl, rfl⟩, rfl, rfl, SameMap.target_eq ⟨rfl, rfl, rfl, rfl, rfl, rfl, rfl, rfl⟩⟩

/-- A draw from the generator changes the generator alone. -/
theorem drbgDraw_output (a : Nat) (d : Dev) : Output a (drbgDraw d).2 d :=
  ⟨Silent.leaves ⟨rfl, rfl⟩, rfl, rfl, SameMap.target_eq ⟨rfl, rfl, rfl, rfl, rfl, rfl, rfl, rfl⟩⟩

theorem wrBytes_output {a p : Nat} {bs : List Byte} {d : Dev} (hkey : ∀ k, k < bs.length → ∃ key, target d (p + k) = .key key)
    (hne : ∀ k, k < bs.length → target d (p + k) ≠ .key a) : Output a (wrBytes p bs d) d :=
  ⟨wrBytes_leaves hkey hne, by rw [wrBytes_cmd], by rw [wrBytes_cmd], target_wrBytes p bs d⟩

@[simp] theorem length_sliceB (bs : List Byte) (o n : Nat) : (sliceB bs o n).length = n := by
  simp only [sliceB, List.length_append, List.length_take, List.length_drop, List.length_replicate]
  omega

theorem length_evBytes (r : EvRec) : (evBytes r).length = 64 := by
  simp only [evBytes, List.length_append, apply_ite List.length, length_leBytes, length_sliceB]
  split <;> rfl

theorem length_grnState (d : Dev) : (grnState d).length = 64 := by
  simp only [grnState, List.length_append, length_leBytes]

/-- Records of one length laid one after another. -/
theorem length_flatMap_const {α : Type} {l : List α} {f : α → List Byte} {n : Nat} (h : ∀ x, (f x).length = n) :
    (l.flatMap f).length = n * l.length := by
  simp [List.length_flatMap, h, Nat.mul_comm]

theorem begun_grn {sp : OpSpec} {p : Pkt} {s : State} (hbuf : sp.bufUse = .write) : (begun sp p s).grn = s.dev.grn := by
  rw [begun_output hbuf, noteAccepted_grn, fetch_grn, placeEntry, wrBytes_grn, modRing_grn]

theorem ok_status_ne (a b c d : Nat) : (ok a b c d).status ≠ stInternal := show stOk ≠ stInternal by decide

theorem siloCharge_silent (p : Pkt) (d : Dev) : Silent (siloCharge p d) d := (charge_silent _ _ _ _).trans (charge_silent _ _ _ _)

section OutputRows
variable {p : Pkt} {s : State} {a len : Nat}

/-- Where a packet's entry, its completion and the buffer it writes lie in memory, none of them at key `a`. -/
structure Elsewhere (p : Pkt) (s : State) (a len : Nat) : Prop where
  inv : Inv s
  idle : s.dev.cmd.cmds = []
  bufKey : ∀ k, k < len → ∃ key, target s.dev (bufA p + k) = .key key
  bufNe : ∀ k, k < len → target s.dev (bufA p + k) ≠ .key a
  entryKey : ∀ k, k < 64 → ∃ key, target s.dev (entryAddr (ringOf s.dev (ringN p)) (ringOf s.dev (ringN p)).filled + k) = .key key
  entryNe : ∀ k, k < 64 → target s.dev (entryAddr (ringOf s.dev (ringN p)) (ringOf s.dev (ringN p)).filled + k) ≠ .key a
  cplKey : ∀ k, k < 32 → ∃ key, target s.dev (cplAddr (ringOf s.dev (ringN p)) + k) = .key key
  cplNe : ∀ k, k < 32 → target s.dev (cplAddr (ringOf s.dev (ringN p)) + k) ≠ .key a

variable (h : Elsewhere p s a len)
include h

/-- The bytes of the buffer, stored by the command's effect. -/
theorem buffer_output {sp : OpSpec} (hbuf : sp.bufUse = .write) {bs : List Byte} {d : Dev} (hd : Output a d (begun sp p s))
    (hlen : bs.length = len) : Output a (wrBytes (bufA p) bs d) (begun sp p s) := by
  have hmap : target d = target s.dev := hd.map.trans (begun_target hbuf)
  refine (wrBytes_output ?_ ?_).trans hd
  · rw [hlen, hmap]
    exact h.bufKey
  · rw [hlen, hmap]
    exact h.bufNe

/-- A command that stores its buffer and completes leaves every other byte. -/
theorem output_leaves {sp : OpSpec} (hbuf : sp.bufUse = .write) {x : Res} (hst : x.status ≠ stInternal) {e : Dev}
    (he : Output a e (begun sp p s)) : LeavesByte a (complete s.dev.cmd.nextId x e) s.dev := by
  obtain ⟨c, hcmds, hid, hpkt, hring⟩ := begun_cmds (sp := sp) (p := p) hbuf h.idle
  obtain ⟨hsorted, haddr⟩ := begun_rings (sp := sp) (p := p) hbuf h.inv
  have hmap : target e = target s.dev := he.map.trans (begun_target hbuf)
  have hcpl : cplAddr (ringOf e c.pkt.ring.val) = cplAddr (ringOf s.dev (ringN p)) := by
    rw [← haddr, hpkt, ringOf, he.rings]
    rfl
  have hdone := complete_leaves (a := a) (x := x) (c := c) (d := e) (by rw [he.rings]; exact hsorted) (he.cmds.trans hcmds) hring hst
    (by rw [hcpl, hmap]; exact h.cplKey) (by rw [hcpl, hmap]; exact h.cplNe)
  rw [← hid]
  exact hdone.trans (he.toLeavesByte.trans (begun_leaves hbuf h.entryKey h.entryNe))

theorem effGetCounters_leaves (hlen : len = 8 * min (counterCount (param p 0)) (bufL p / 8)) :
    LeavesByte a (effGetCounters s.dev.cmd.nextId p (begun specGetCounters p s)) s.dev := by
  have hstored := buffer_output h (sp := specGetCounters) rfl (bs := (List.range (min (counterCount (param p 0)) (bufL p / 8))).flatMap
      (fun i => leBytes 8 (ctr (begun specGetCounters p s) (param p 0) i).toNat)) ((Counted.refl _).output a)
    (by rw [length_flatMap_const (fun _ => length_leBytes 8 _), List.length_range, hlen])
  refine output_leaves h (sp := specGetCounters) rfl ?_ (Output.trans ?_ hstored)
  · dsimp only
    split <;> decide
  · dsimp only
    split
    · exact Counted.output ⟨_, rfl⟩ a
    · exact (Counted.refl _).output a

theorem effEvrRead_leaves (hlen : len = 64 * min (s.dev.grn.evr.length - param p 0) (bufL p / 64)) :
    LeavesByte a (effEvrRead s.dev.cmd.nextId p (begun specEvrRead p s)) s.dev := by
  refine output_leaves h (sp := specEvrRead) rfl ?_ (buffer_output h rfl ((Counted.refl _).output a) ?_)
  · dsimp only
    split <;> decide
  · rw [length_flatMap_const length_evBytes, begun_grn rfl, List.length_take, List.length_drop, hlen, Nat.min_eq_left (Nat.min_le_left _ _)]

theorem effPavStressRead_leaves (hlen : len = 4 * param p 1) :
    LeavesByte a (effPavStressRead s.dev.cmd.nextId p (begun specPavStressRead p s)) s.dev := by
  refine output_leaves h (sp := specPavStressRead) rfl (ok_status_ne _ _ _ _) (buffer_output h rfl ((Counted.refl _).output a) ?_)
  rw [length_flatMap_const (fun _ => length_leBytes 4 _), List.length_range, hlen]

theorem effGrnQuery_leaves (hlen : len = if bufL p = 0 then 0 else 64) :
    LeavesByte a (effGrnQuery s.dev.cmd.nextId p (begun specGrnQuery p s)) s.dev := by
  refine output_leaves h (sp := specGrnQuery) rfl (ok_status_ne _ _ _ _) ?_
  dsimp only
  split
  · exact (Counted.refl _).output a
  · next hbuf => exact buffer_output h rfl ((Counted.refl _).output a) (by rw [length_grnState, hlen, if_neg hbuf])

theorem effSecRandom_leaves (hlen : len = param p 0) :
    LeavesByte a (effSecRandom s.dev.cmd.nextId p (begun specSecRandom p s)) s.dev := by
  have hdone := output_leaves h (sp := specSecRandom) (x := ok 0 0 0 0) rfl (ok_status_ne _ _ _ _)
    (buffer_output h (bs := leBytes (param p 0) (drbgDraw (begun specSecRandom p s)).1) rfl (drbgDraw_output a _)
      (by rw [length_leBytes, hlen]))
  exact (siloCharge_silent p _).leaves.trans hdone

end OutputRows

/-- Settles O57: each command stores its entry, its buffer and its completion, all of them elsewhere. -/
theorem outputCommandsFrame : Obligations.OutputCommandsFrame := by
  intro i p s t a len hinv hres hidle hi r hbufKey hcplKey hbufNe hentryKey hentryNe hcplNe hexec
  have h : Elsewhere p s a len := ⟨hinv, hidle, hbufKey, hbufNe, hentryKey, hentryNe, hcplKey, hcplNe⟩
  have hrow : ∀ {sp eff}, starts sp p s = true → exec i s = packetRow sp eff p s →
      LeavesByte a (eff s.dev.cmd.nextId p (begun sp p s)) s.dev → rdB t.dev a = rdB s.dev a := by
    intro sp eff hstart hpacket hleaves
    rw [hpacket, packetRow_eff hstart rfl] at hexec
    cases hexec
    exact hleaves.rdB_settle hinv hres
  rcases hi with ⟨rfl, hstart, hlen⟩ | ⟨rfl, hstart, hlen⟩ | ⟨rfl, hstart, hlen⟩ | ⟨rfl, hstart, hlen⟩ | ⟨rfl, hstart, hlen⟩
  · exact hrow hstart rfl (effGetCounters_leaves h hlen)
  · exact hrow hstart rfl (effEvrRead_leaves h hlen)
  · exact hrow hstart rfl (effPavStressRead_leaves h hlen)
  · exact hrow hstart rfl (effGrnQuery_leaves h hlen)
  · exact hrow hstart rfl (effSecRandom_leaves h hlen)

end Sys2Proof.Machine


namespace Sys2Proof.Machine

/-!
PROOFS about the element kernels of a run that is no sheaf (R167–R171): they store only into the tile they write.
-/

/-! ### Reads of the register mirror that a record does not make -/

theorem clearRead_shf (o : Nat) (d : Dev) : (clearRead o d).shf = d.shf := by
  unfold clearRead
  dsimp only
  split
  · rfl
  · split
    · rfl
    · split <;> rfl

theorem latchRead_shf (o : Nat) (d : Dev) : (latchRead o d).shf = d.shf := by
  unfold latchRead
  repeat' split
  all_goals rfl

theorem regRead_shf (o : Nat) (d : Dev) : (regRead o d).2.shf = d.shf := by
  unfold regRead
  dsimp only
  split
  · rfl
  · split
    · rfl
    · generalize (if 0x8000 ≤ o % 0x10000 then o - 0x8000 else o) = q
      split
      · rfl
      · split
        · rfl
        · rw [latchRead_shf, clearRead_shf]

theorem engineReads_shf (os : List Nat) (d : Dev) : (engineReads os d).shf = d.shf := by
  have hreads : (readWords os d).2.shf = d.shf := by
    unfold readWords
    exact List.foldlRecOn (motive := fun acc : List (Nat × Byte) × Dev => acc.2.shf = d.shf) _ _ rfl
      fun acc h o _ => (regRead_shf o acc.2).trans h
  unfold engineReads
  dsimp only
  split
  · rfl
  · exact hreads

/-- A run that is no sheaf reads nothing through operands of a sheaf. -/
theorem readSpans_of_no_sheaf {d : Dev} {r : Run} (h : sheafOf d r.id = none) : readSpans d r = [] := by
  unfold readSpans
  refine List.filterMap_eq_nil_iff.mpr fun t ht => ?_
  simp only [List.mem_filter, decide_eq_true_eq] at ht
  obtain ⟨-, -, hbinding⟩ := ht
  simp [tileSpan, hbinding, h]

theorem stageRecord_of_no_sheaf {code id : Nat} {d : Dev} (h : sheafOf (stageRecord code anyRec id d) id = none) :
    stageRecord code anyRec id d = d := by
  unfold stageRecord at h ⊢
  split
  · rfl
  · next r hr =>
    have hid : r.id = id := by simpa using List.find?_some hr
    split
    · next hends =>
      rw [hr] at h
      simp only [hends, if_true, sheafOf, engineReads_shf] at h
      rw [readSpans_of_no_sheaf (r := r) (hid ▸ h)]
      rfl
    · rfl

/-! ### What a kernel leaves -/

/-- A kernel's work leaves a byte of memory, the runs, the sheaves and all that places a tile. -/
structure KernelFrame (a : Nat) (e d : Dev) : Prop extends LeavesByte a e d where
  runs : e.pln.runs = d.pln.runs
  shf : e.shf = d.shf
  homes : e.plc.homes = d.plc.homes
  map : target e = target d
  place : homeByte e = homeByte d

section KernelFrame
variable {a : Nat} {d e f : Dev}

theorem KernelFrame.refl (a : Nat) (d : Dev) : KernelFrame a d d := ⟨.refl a d, rfl, rfl, rfl, rfl, rfl⟩

theorem KernelFrame.trans (h : KernelFrame a f e) (g : KernelFrame a e d) : KernelFrame a f d :=
  ⟨h.toLeavesByte.trans g.toLeavesByte, h.runs.trans g.runs, h.shf.trans g.shf, h.homes.trans g.homes, h.map.trans g.map,
    h.place.trans g.place⟩

theorem KernelFrame.sheafOf_eq (h : KernelFrame a e d) (id : Nat) : sheafOf e id = sheafOf d id := by
  rw [sheafOf, sheafOf, h.shf]

/-- A byte of a tile has the same key as before. -/
theorem KernelFrame.tileKey_eq (h : KernelFrame a e d) (r : Run) (t x : Nat) : tileKey e r t x = tileKey d r t x := by
  have htarget : tileTarget e r t x = tileTarget d r t x := by
    simp only [tileTarget, tileHome, sheafOpnd, sheafOf, h.homes, h.shf, h.map, h.place]
  rw [tileKey, tileKey, htarget]

end KernelFrame

theorem wrB_frame {a k : Nat} (b : Byte) (d : Dev) (hlow : k < mirrorIn) (hne : k ≠ a) : KernelFrame a (wrB d k b) d :=
  ⟨wrB_leaves b hlow hne, rfl, rfl, rfl, target_wrB d k b, rfl⟩

theorem setLsq_frame (a : Nat) (q : LsqRun) (d : Dev) : KernelFrame a (setLsq q d) d :=
  ⟨Silent.leaves ⟨rfl, rfl⟩, rfl, rfl, rfl, SameMap.target_eq ⟨rfl, rfl, rfl, rfl, rfl, rfl, rfl, rfl⟩, rfl⟩

/-- The flags that an element raises at its cluster leave the cluster's state and its logical number. -/
theorem clusterOf_aluOn {phys k : Nat} (alu : Alu) (d : Dev) (hk : k < 34) :
    (clusterOf (aluOn phys alu d) k).state = (clusterOf d k).state ∧ (clusterOf (aluOn phys alu d) k).logical = (clusterOf d k).logical := by
  unfold aluOn
  rw [clusterOf, List.getD_eq_getElem _ _ (by simpa using hk)]
  simp only [List.getElem_map, List.getElem_range]
  split <;> exact ⟨rfl, rfl⟩

theorem target_aluOn (phys : Nat) (alu : Alu) (d : Dev) : target (aluOn phys alu d) = target d := by
  have hown : ownTarget (aluOn phys alu d) = ownTarget d := by
    funext x
    unfold ownTarget
    split
    · rfl
    · split
      · rfl
      · split
        · next hin =>
          rw [(clusterOf_aluOn alu d (by omega)).1]
        · rfl
  have hregs : hostBase (aluOn phys alu d) = hostBase d ∧ ownAddr (aluOn phys alu d) = ownAddr d ∧
      fld (aluOn phys alu d) Reg.trlStat = fld d Reg.trlStat := ⟨rfl, rfl, rfl⟩
  obtain ⟨hhost, haddr, htrl⟩ := hregs
  funext x
  rw [target, target, hown, hhost, haddr, htrl]

theorem physOf_aluOn (phys : Nat) (alu : Alu) (d : Dev) : physOf (aluOn phys alu d) = physOf d := by
  funext l
  have hsame : (List.range 34).find? (fun k => decide ((clusterOf (aluOn phys alu d) k).logical = l) &&
      (decide ((clusterOf (aluOn phys alu d) k).state = 0) || d.thr.shed.contains k)) =
      (List.range 34).find? (fun k => decide ((clusterOf d k).logical = l) &&
      (decide ((clusterOf d k).state = 0) || d.thr.shed.contains k)) := by
    refine List.find?_congr fun k hk => ?_
    obtain ⟨hstate, hlogical⟩ := clusterOf_aluOn (phys := phys) alu d (List.mem_range.mp hk)
    rw [hstate, hlogical]
  unfold physOf
  exact congrArg (Option.getD · 33) hsame

theorem aluOn_frame (a phys : Nat) (alu : Alu) (d : Dev) : KernelFrame a (aluOn phys alu d) d := by
  refine ⟨Silent.leaves ⟨rfl, rfl⟩, rfl, rfl, rfl, target_aluOn phys alu d, ?_⟩
  funext tl h x
  simp only [homeByte, physOf_aluOn]
  rfl

/-! ### The stores of an element (R145, R167) -/

/-- The device once a byte of a tile is stored, where the tile may be written. -/
def tileByteStored (r : Run) (t x : Nat) (b : Byte) (d : Dev) : Dev :=
  match tileKey d r t x with
  | some k => if bitAt (tileAt r.plan t).tflags 0 then d else wrB d k b
  | none => d

theorem wrTile_cons (r : Run) (t x : Nat) (b : Byte) (bs : List Byte) (d : Dev) :
    wrTile r t x (b :: bs) d = wrTile r t (x + 1) bs (tileByteStored r t x b d) := rfl

theorem tileByteStored_frame {a : Nat} {r : Run} {t x : Nat} {d : Dev} (b : Byte)
    (h : ∀ k, tileKey d r t x = some k → k < mirrorIn ∧ k ≠ a) : KernelFrame a (tileByteStored r t x b d) d := by
  unfold tileByteStored
  split
  · next k hk =>
    split
    · exact .refl a d
    · obtain ⟨hlow, hne⟩ := h k hk
      exact wrB_frame b d hlow hne
  · exact .refl a d

/-- Bytes of a tile stored at other keys of memory. -/
theorem wrTile_frame {a : Nat} {r : Run} {t x : Nat} {bs : List Byte} {d : Dev}
    (h : ∀ b, b < bs.length → ∀ k, tileKey d r t (x + b) = some k → k < mirrorIn ∧ k ≠ a) : KernelFrame a (wrTile r t x bs d) d := by
  induction bs generalizing x d with
  | nil => exact .refl a d
  | cons b bs ih =>
    rw [wrTile_cons]
    have hfirst : KernelFrame a (tileByteStored r t x b d) d := tileByteStored_frame b (h 0 (Nat.succ_pos _))
    refine KernelFrame.trans (ih fun c hc k hk => ?_) hfirst
    rw [hfirst.tileKey_eq, Nat.add_assoc, Nat.add_comm 1 c] at hk
    exact h (c + 1) (Nat.succ_lt_succ hc) k hk

/-- Whether element (i, c) of member j of a tile lies at other keys of memory. -/
def ElementElsewhere (a : Nat) (d : Dev) (r : Run) (t j i c : Nat) : Prop :=
  ∀ b k, b < elemSize (tileAt r.plan t).prec → tileKey d r t (elemOfs (tileAt r.plan t) j i c + b) = some k → k < mirrorIn ∧ k ≠ a

section Element
variable {a : Nat} {r : Run} {d : Dev} (hsheaf : sheafOf d r.id = none)
include hsheaf

theorem flagMember_frame (j : Nat) (alu : Alu) (input : Bool) : KernelFrame a (flagMember r j alu input d) d := by
  unfold flagMember
  rw [hsheaf]
  dsimp only
  split
  · split
    · exact setLsq_frame a _ d
    · exact .refl a d
  · exact .refl a d

variable {t j i c : Nat} (helse : ElementElsewhere a d r t j i c)
include helse

theorem writeElem_frame (v : Nat) : KernelFrame a (writeElem r t j i c v d) d := by
  unfold writeElem
  rw [hsheaf]
  refine wrTile_frame fun b hb k hk => helse b k ?_ hk
  rwa [length_leBytes] at hb

theorem elemStep_frame (x : KRec) (e : Nat) (input : Bool) (g : K Nat) : KernelFrame a (elemStep r x t j i c e input g d) d := by
  unfold elemStep
  have hflags : KernelFrame a (aluElem r x e (g.run Alu.zero).2 d) d := aluOn_frame a _ _ d
  have hmember := flagMember_frame (a := a) ((hflags.sheafOf_eq r.id).trans hsheaf) j (g.run Alu.zero).2 input
  have hboth := hmember.trans hflags
  refine KernelFrame.trans (writeElem_frame ((hboth.sheafOf_eq r.id).trans hsheaf) (fun b k hb hk => helse b k hb ?_) _) hboth
  rwa [hboth.tileKey_eq] at hk

end Element

/-! ### The element kernels -/

section Body
variable {a : Nat} {r : Run} {x : KRec} {d : Dev} (hsheaf : sheafOf d r.id = none)

include hsheaf in
theorem members_of_no_sheaf : members d r x = x.batch := by
  unfold members
  rw [hsheaf]

/-- A loop over the elements of a tile, each step of which leaves what a kernel leaves. -/
theorem foldl_frame {n : Nat} {g : Dev → Nat → Dev} {e : Dev} (he : KernelFrame a e d)
    (hg : ∀ f k, KernelFrame a f d → k < n → KernelFrame a (g f k) f) : KernelFrame a ((List.range n).foldl g e) d :=
  List.foldlRecOn (motive := fun f => KernelFrame a f d) _ _ he fun f hf k hk => (hg f k hf (List.mem_range.mp hk)).trans hf

theorem ElementElsewhere.of_frame {t j i c : Nat} {e : Dev} (h : ElementElsewhere a d r t j i c) (he : KernelFrame a e d) :
    ElementElsewhere a e r t j i c := fun b k hb hk => h b k hb (he.tileKey_eq r t _ ▸ hk)

include hsheaf in
theorem fillBody_frame (h : ∀ j i c, j < x.batch → i < x.m → c < x.n → ElementElsewhere a d r (opnd x 0) j i c) :
    KernelFrame a (fillBody r x d) d := by
  unfold fillBody
  rw [members_of_no_sheaf hsheaf]
  refine foldl_frame (.refl a d) fun e j he hj => foldl_frame (.refl a e) fun f c hf hc => foldl_frame (.refl a f) fun g i hg hi => ?_
  have hall := hg.trans (hf.trans he)
  exact writeElem_frame ((hall.sheafOf_eq r.id).trans hsheaf) ((h j i c hj hi hc).of_frame hall) _

include hsheaf in
theorem copyBody_frame (h : ∀ j i c, j < x.batch → i < x.m → c < x.n → ElementElsewhere a d r (opnd x 1) j i c) :
    KernelFrame a (copyBody r x d) d := by
  unfold copyBody
  rw [members_of_no_sheaf hsheaf]
  refine foldl_frame (.refl a d) fun e j he hj => foldl_frame (.refl a e) fun f c hf hc => foldl_frame (.refl a f) fun g i hg hi => ?_
  have hall := hg.trans (hf.trans he)
  exact elemStep_frame ((hall.sheafOf_eq r.id).trans hsheaf) ((h j i c hj hi hc).of_frame hall) _ _ _ _

include hsheaf in
theorem axpyBody_frame (h : ∀ j n, j < x.batch → n < x.n → ElementElsewhere a d r (opnd x 1) j
      (n % max (tileAt r.plan (opnd x 1)).rows 1) (n / max (tileAt r.plan (opnd x 1)).rows 1)) :
    KernelFrame a (axpyBody r x d) d := by
  unfold axpyBody
  rw [members_of_no_sheaf hsheaf]
  refine foldl_frame (.refl a d) fun e j he hj => foldl_frame (.refl a e) fun f n hf hn => ?_
  have hall := hf.trans he
  have hfrozen : frozenMember f r j = false := by simp only [frozenMember, hall.sheafOf_eq, hsheaf]
  simp only [hfrozen, Bool.false_eq_true, if_false]
  exact elemStep_frame ((hall.sheafOf_eq r.id).trans hsheaf) ((h j n hj hn).of_frame hall) _ _ _ _

end Body

/-! ### Control after a record (R139, R226) -/

theorem dropRun_silent (id : Nat) (d : Dev) : Silent (dropRun id d) d := by
  unfold dropRun
  dsimp only
  split <;> exact ⟨rfl, rfl⟩

theorem recordsDone_silent {q : Run} (hkind : q.kind ≠ .extrapolate) (d : Dev) : Silent (recordsDone q d) d := by
  unfold recordsDone
  split
  · contradiction
  · exact dropRun_silent _ _
  · exact (dropRun_silent _ _).trans ⟨rfl, rfl⟩
  · split
    · split <;> exact ⟨rfl, rfl⟩
    · exact ⟨rfl, rfl⟩

theorem markEnd_silent {r q : Run} {d : Dev} (hfind : findRun d r.id = some q) (hkind : q.kind ≠ .extrapolate) :
    Silent (markEnd r d) d := by
  unfold markEnd
  rw [hfind]
  dsimp only
  split
  · exact recordsDone_silent (q := { q with tail := _, part := 0, beat := 0 }) hkind d
  · exact ⟨rfl, rfl⟩

/-- The kernels that steer no run: control moves on to the next record. -/
def MovesOn (code : Nat) : Prop := ∀ (id : Nat) (r q : Run) (pass : Bool) (d : Dev), findRun d id = some q →
  moveOn code id r pass d = markEnd r (nextRec q d)

theorem moveOn_silent {code id : Nat} {r q : Run} {d : Dev} (hcode : MovesOn code) (hr : r.id = id) (hfind : findRun d id = some q)
    (hkind : q.kind ≠ .extrapolate) (pass : Bool) : Silent (moveOn code id r pass d) d := by
  rw [hcode id r q pass d hfind]
  have hnext : findRun (nextRec q d) r.id = some { q with idx := q.idx + 1 } := hr ▸ findRun_setRun hfind rfl
  exact (markEnd_silent hnext hkind).trans ⟨rfl, rfl⟩

theorem moveOn_elementKernels : MovesOn 0x04 ∧ MovesOn 0x05 ∧ MovesOn 0x07 ∧ MovesOn 0x08 := by
  refine ⟨?_, ?_, ?_, ?_⟩
  all_goals
    intro id r q pass d h
    simp only [moveOn, h]

/-! ### The rows -/

theorem paidDev_silent (d : Dev) (r : Run) : Silent (paidDev d r) d :=
  (charge_silent _ _ _ _).trans ((charge_silent _ _ _ _).trans ⟨rfl, rfl⟩)

/-- Paying for a record leaves the sheaves. -/
theorem paidDev_shf (d : Dev) (r : Run) : (paidDev d r).shf = d.shf := by
  rw [paidDev, charge_shf, charge_shf, setRun_shf]

section Row
variable {code id a : Nat} {r : Run} {s t : State} {f : Run → KRec → Dev → Dev}

/-- A row of an element kernel leaves the bytes that its body leaves. -/
theorem elementRow_leaves (hinv : Inv s) (hres : noReset s) (hkind : r.kind ≠ .extrapolate) (hcode : MovesOn code)
    (hsheaf : sheafOf (stageRecord code anyRec id s.dev) id = none) (hready : recordReady (stageRecord code anyRec id s.dev) code id anyRec r)
    (hbody : sheafOf (paidDev (stageRecord code anyRec id s.dev) r) (paidRun (stageRecord code anyRec id s.dev) r).id = none →
      KernelFrame a (f (paidRun (stageRecord code anyRec id s.dev) r) (curRec r) (paidDev (stageRecord code anyRec id s.dev) r))
        (paidDev (stageRecord code anyRec id s.dev) r))
    (hexec : devRow (kernelRow code anyRec (plain f) id) s = .next t) : rdB t.dev a = rdB s.dev a := by
  rw [kernelRow_plain rfl hready] at hexec
  cases hexec
  have hstage := stageRecord_of_no_sheaf hsheaf
  rw [hstage] at hready hbody hsheaf ⊢
  have hfind := findRun_paidDev hready.1
  have hid : r.id = id := by simpa using List.find?_some hready.1
  have hframe := hbody (by rw [sheafOf, paidDev_shf]; exact hid ▸ hsheaf)
  have hfind' : findRun (f (paidRun s.dev r) (curRec r) (paidDev s.dev r)) id = some (paidRun s.dev r) := by
    rw [findRun, hframe.runs]
    exact hfind
  exact ((moveOn_silent hcode hid hfind' hkind false).leaves.trans
    (hframe.toLeavesByte.trans (paidDev_silent s.dev r).leaves)).rdB_settle hinv hres

end Row

/-- Settles O59: each kernel stores element by element into its tile, and control after the record stores nothing. -/
theorem elementKernelsFrame : Obligations.ElementKernelsFrame := by
  intro id r s t a hinv hres hkind x rows ready hrow
  obtain ⟨hcopy, hfill, hpublish, haxpy⟩ := moveOn_elementKernels
  rcases hrow with ⟨⟨hsheaf, hready, hkeys⟩, hexec⟩ | ⟨⟨hsheaf, hready, hkeys⟩, hexec⟩ | ⟨⟨hsheaf, hready, hkeys⟩, hexec⟩ |
    ⟨⟨hsheaf, hready, hkeys⟩, hexec⟩
  · refine elementRow_leaves hinv hres hkind hfill hsheaf hready (fun hnone => fillBody_frame hnone ?_) hexec
    exact fun j i c hj hi hc b k hb hk => hkeys j i c b k hj hb (by rw [if_neg (by decide)]; exact ⟨hi, hc⟩) hk
  · refine elementRow_leaves hinv hres hkind hcopy hsheaf hready (fun hnone => copyBody_frame hnone ?_) hexec
    exact fun j i c hj hi hc b k hb hk => hkeys j i c b k hj hb (by rw [if_neg (by decide)]; exact ⟨hi, hc⟩) hk
  · refine elementRow_leaves hinv hres hkind hpublish hsheaf hready (fun hnone => copyBody_frame hnone ?_) hexec
    exact fun j i c hj hi hc b k hb hk => hkeys j i c b k hj hb (by rw [if_neg (by decide)]; exact ⟨hi, hc⟩) hk
  · refine elementRow_leaves hinv hres hkind haxpy hsheaf hready (fun hnone => axpyBody_frame hnone ?_) hexec
    exact fun j n hj hn b k hb hk => hkeys j _ _ b k hj hb (by rw [if_pos rfl]; exact ⟨n, hn, rfl, rfl⟩) hk

end Sys2Proof.Machine
